-- ==== Sys2Proof/Word.lean ====
section
/-! DEFINITION. The word types of the module (R10, R11, R38) and sparse tables of plain data. -/

namespace Sys2Proof

/-- One byte of memory or of a packet. -/
abbrev Byte := BitVec 8

/-- Two bytes. -/
abbrev Half := BitVec 16

/-- An FP32 encoding, an epoch, a step number, a sequence number. -/
abbrev Word32 := BitVec 32

/-- A register (R38). -/
abbrev Word64 := BitVec 64

/-- A sparse table: keys strictly rising, and no entry equal to what its key reads as when unlisted
(the canonical form that `Tab.wf` of Machine/Tab.lean states). -/
abbrev Tab (α : Type) := List (Nat × α)

end Sys2Proof
end

