-- ==== Sys2Proof/Syntax.lean ====
section
/-! DEFINITION. The commands the block takes: one constructor of `Instr` per row of spec/opcode_table.json, in the table's
order, with the operands the row's rule needs, and the types of those operands. -/

namespace Sys2Proof

/-- Who performs a register operation (R56): the Curator over the control virtual network, or a Zazel session, named by
its 16-bit index (R343). -/
inductive Source where
  | curator
  | session (i : Half)
  deriving DecidableEq, Repr

/-- An Ethernet port (R12). -/
structure PortId where
  xdie : Fin 6
  port : Fin 8
  deriving DecidableEq, Repr

/-- A received Zazel packet (R338, R340, R341): the port it came in on, the fields of its header, whether its frame was marked CE
(R351), whether its GCM tag verifies (R348), the CRC-32C of the types that have one, and the byte offset, in its type header or in its
payload, of the first reserved field that is not 0 or defined value that is reserved (R18). -/
structure Pkt where
  port : PortId
  version : Byte
  type : Byte
  flags : Byte
  tclass : Byte
  session : Half
  length : Half
  pn : Word64
  seq : Word32
  ack : Word32
  sack : Word64
  epoch : Word32
  msg : Word32
  ts : Word32
  tsEcho : Word32
  ce : Bool
  authentic : Bool
  crc : Word32
  reserved : Option Nat
  deriving DecidableEq, Repr

/-- FLAGS.ENC (R340). -/
def Pkt.enc (k : Pkt) : Bool := k.flags.getLsbD 0
/-- FLAGS.FIRST (R340). -/
def Pkt.first (k : Pkt) : Bool := k.flags.getLsbD 2
/-- FLAGS.LAST (R340). -/
def Pkt.last (k : Pkt) : Bool := k.flags.getLsbD 3
/-- FLAGS.ECE (R340). -/
def Pkt.ece (k : Pkt) : Bool := k.flags.getLsbD 4

/-- The place of an operation in its register message (R58, R60, R355): whether it is the first or the last, STOP_ON_ERROR, with the
first operation of a session's message the packet that carries it, the 8 bytes of the message's header, and the 8 bytes of the operation
from its OP on. -/
structure MsgPos where
  first : Bool
  last : Bool
  stopOnError : Bool
  pkt : Option Pkt
  head : Word64
  op : Word64
  deriving DecidableEq, Repr

/-- An active gallery by module-wide number, or a spare gallery of a C-die (R12, R41). -/
inductive GalRef where
  | active (g : Fin 256)
  | spare (die : Fin 4) (s : Fin 4)
  deriving DecidableEq, Repr

/-- The outcome of the residue checks of one element or pass (R142, R445): agreement, or a mismatch with the row and the
first brick-column of the checker that saw it; `row` is none when no row is named. -/
inductive Residue where
  | agree
  | mismatch (row : Option (Fin 4096)) (column : Fin 1024)
  deriving DecidableEq, Repr

/-- A shadow recompute (R212, R214): the tile, and the outcome of the residue checks of its passes. -/
structure ShadowRun where
  tile : Nat
  check : Residue
  deriving DecidableEq, Repr

/-- One round of work on a begun command (R316): its index; the outcome of the residue checks of its array passes, where it is an
ATTENTION (R142); and the element of its results whose arithmetic check outside the array fails, if one does (R443). -/
structure CmdRun where
  index : Word32
  check : Residue
  fails : Option Nat
  deriving DecidableEq, Repr

/-- One element of a mover (R239): the mover, and whether the check of its address generation fails (R443). -/
structure MovRun where
  mover : Fin 2
  fails : Bool
  deriving DecidableEq, Repr

/-- The step boundary of a partition (R286): the partition, and the arithmetic of R207 or of the Appraiser that fails its check, if one does
(R443): census entry i as i, the layer at catalogue place i as CEN_TBL.COUNT + i; and whether the comparators of the counter advance
disagree (R447). -/
structure BoundaryRun where
  part : Fin 64
  fails : Option Nat
  counter : Bool
  deriving DecidableEq, Repr

/-- A reduction fired (R378): its number, and the leaf block (owner, block number) whose BS8 encoding fails its check, if one does (R443). -/
structure FireRun where
  rid : Half
  fails : Option (Half × Nat)
  deriving DecidableEq, Repr

/-- A block of a point (R380): its number, and whether the check of its additions or of its encoding fails (R443). -/
structure PointRun where
  block : Nat
  fails : Bool
  deriving DecidableEq, Repr

/-- The entry of a module into the combine (R392): the partition, and the census entry whose arithmetic fails its check, if one does
(R443). -/
structure CombineRun where
  part : Fin 64
  fails : Option Nat
  deriving DecidableEq, Repr

/-- A link of a C-die (R264, R265): a mesh link, a bridge link to a neighbour, or the bridge link to site 4c + j. -/
inductive LinkId where
  | mesh (n : Fin 16)
  | horizontal
  | vertical
  | site (j : Fin 4)
  deriving DecidableEq, Repr

/-- A vector-lane fault met while a commit element is computed (R289, R290): gallery, element within its group, the half
whose result is wrong, and whether the second pair disagrees as well. -/
structure LaneFault where
  gallery : Fin 256
  group : Nat
  element : Fin 256
  half : Fin 2
  again : Bool
  deriving DecidableEq, Repr

/-- What the commit's hardware meets as it begins or goes on: the lane faults, and whether the comparators of the gate disagree (R289,
R447). -/
structure CommitWork where
  lanes : List LaneFault
  gate : Bool
  deriving DecidableEq, Repr

/-- The type header of a collective segment but for KIND (R388); `reserved` says that a reserved bit is set. -/
structure SegHdr where
  rid : Half
  point : BitVec 24
  owner : Half
  dest : Half
  step : Word32
  reserved : Bool
  deriving DecidableEq, Repr

/-- An SC_INIT (R345): the address it comes from, and its payload; `reserved` says that a reserved byte is set. -/
structure ScInit where
  address : List Byte
  iSession : Half
  role : Byte
  partition : Byte
  nonce : List Byte
  x448 : List Byte
  ed448 : List Byte
  reserved : Bool
  deriving DecidableEq, Repr

/-- An SC_ACCEPT (R345): the port it comes in on, and its payload. -/
structure ScAccept where
  port : PortId
  rSession : Half
  nonce : List Byte
  x448 : List Byte
  ed448 : List Byte
  signature : List Byte
  reserved : Bool
  deriving DecidableEq, Repr

/-- What a received or transmitted frame carries above its tags (R338, R457). -/
inductive FrameKind where
  | pause
  | priorityFlow
  | ipv4 (src dst : BitVec 32) (plain : Bool)
  | ipv6 (src dst : BitVec 128) (plain : Bool)
  | arp (sender target : BitVec 32)
  | neighbour (src target : BitVec 128)
  | lldp
  | ptp
  | other (ethertype : Half)
  deriving DecidableEq, Repr

/-- A UDP datagram's port and checksum (R338). -/
inductive Udp where
  | none
  | datagram (port : Half) (zeroSum : Bool) (sumOk : Bool)
  deriving DecidableEq, Repr

/-- A received frame (R338). -/
structure RxFrame where
  length : Nat
  srcMac : BitVec 48
  fcsOk : Bool
  tags : List (BitVec 12)
  kind : FrameKind
  udp : Udp
  deriving DecidableEq, Repr

/-- A frame offered to the egress limiter (R457). -/
structure TxFrame where
  length : Nat
  tags : Nat
  srcMac : BitVec 48
  dstMac : BitVec 48
  kind : FrameKind
  deriving DecidableEq, Repr

/-- The two rings (R25). -/
inductive Ring where
  | a
  | b
  deriving DecidableEq, Repr

/-- The rails of R470, in its order. -/
inductive Rail where
  | vin
  | vaux
  | vbus
  | vcoreC (c : Fin 4)
  | vcoreX (x : Fin 6)
  | vhbm
  | vser
  | vopt
  deriving DecidableEq, Repr

/-- A tagged micro-operation (R537, R538): where it ran, and its stage times; a stage not reached is 0xFFFF_FFFF. -/
structure MicroOp where
  gallery : Fin 256
  bay : Fin 4
  tag : BitVec 40
  tOut : Word32
  step : Word32
  pass : Nat
  element : Nat
  steep : Bool
  reference : Bool
  shadow : Bool
  abandoned : Bool
  t0 : Word64
  stages : List Word32
  deriving DecidableEq, Repr

/-- A fault that a block detects (R62), as ERR_INFO and ERR_ADDR hold it (R52), and the channel of an HBM controller that has failed
uncorrectably, if that is the fault (R250). -/
structure PageFault where
  code : Byte
  detail : Word32
  addr : Word64
  channel : Option (Fin 32)
  deriving DecidableEq, Repr

/-- What DRAIN_COMPLETE finds at a page (R62, R63): the page, and a fault that its block has detected by then. -/
structure DrainRun where
  page : BitVec 12
  fault : Option PageFault
  deriving DecidableEq, Repr

/-- The commands (spec/opcode_table.json). -/
inductive Instr where
  /-- READ (R58). -/
  | read (src : Source) (addr : Word64) (pos : MsgPos)
  /-- WRITE (R58). -/
  | write (src : Source) (addr : Word64) (data : Word64) (pos : MsgPos)
  /-- WRITE_MASKED (R58). -/
  | writeMasked (src : Source) (addr : Word64) (data : Word64) (mask : Word64) (pos : MsgPos)
  /-- REQUEST_RUNNING (R62). -/
  | requestRunning (src : Source) (page : BitVec 12)
  /-- REQUEST_STOPPED (R62). -/
  | requestStopped (src : Source) (page : BitVec 12)
  /-- CLEAR_FAULT (R62). -/
  | clearFault (src : Source) (page : BitVec 12)
  /-- NAP_ENTRY (R488). -/
  | napEntry (src : Source) (g : GalRef)
  /-- SLEEP_ENTRY (R488). -/
  | sleepEntry (src : Source) (g : GalRef)
  /-- LOW_POWER_EXIT (R488). -/
  | lowPowerExit (src : Source) (g : GalRef)
  /-- DRAIN_COMPLETE (R63). -/
  | drainComplete (run : DrainRun)
  /-- EVT_EN_WRITE (R70). -/
  | evtEnWrite (src : Source) (page : BitVec 12) (data : Word64)
  /-- VEC_DEST_WRITE (R74). -/
  | vecDestWrite (src : Source) (vec : Fin 4096) (data : Word64)
  /-- COAL_US_EXPIRY (R74). -/
  | coalUsExpiry (vec : Fin 4096)
  /-- RELOAD_START (R133). -/
  | reloadStart (g : Fin 256) (b : Fin 4)
  /-- ROW_LOAD_COMPLETE (R133). -/
  | rowLoadComplete (g : Fin 256) (b : Fin 4) (row : Fin 4096)
  /-- ROW_ENTERS_PASS (R131). -/
  | rowEntersPass (g : Fin 256) (b : Fin 4) (row : Fin 4096)
  /-- ELEMENT_EMIT (R128). -/
  | elementEmit (g : Fin 256) (b : Fin 4) (check : Residue)
  /-- PASS_DRAINED (R132). -/
  | passDrained (g : Fin 256) (b : Fin 4) (check : Residue)
  /-- BAY_DRAINED (R143). -/
  | bayDrained (g : Fin 256) (b : Fin 4)
  /-- BAY_CLEAR_FAULT (R145). -/
  | bayClearFault (src : Source) (g : Fin 256) (mask : BitVec 4)
  /-- SPARE_MAPPING (R154). -/
  | spareMapping (die : Fin 4) (data : Word64)
  /-- SHADOW_RECOMPUTE (R212). -/
  | shadowRecompute (g : Fin 256) (q : Fin 4) (run : ShadowRun)
  /-- STEP_CLOSE (R205). -/
  | stepClose (p : Fin 64)
  /-- CABINET_FILL_COMPLETE (R230). -/
  | cabinetFillComplete (g : GalRef)
  /-- NAP_READ_PASS_COMPLETE (R455). -/
  | napReadPassComplete (g : GalRef)
  /-- MOVER_ELEMENT (R239). -/
  | moverElement (g : Fin 256) (run : MovRun)
  /-- MOVER_RESUME (R258). -/
  | moverResume (src : Source) (g : Fin 256) (m : Fin 2)
  /-- MOVER_ABORT (R259). -/
  | moverAbort (src : Source) (g : Fin 256) (m : Fin 2)
  /-- HOP (R241). -/
  | hop (g : Fin 256)
  /-- ROW_REPAIR (R248). -/
  | rowRepair (stack : Nat) (channel : Fin 32) (row : Nat) (lastSpare : Bool)
  /-- CHANNEL_RETIRE (R249). -/
  | channelRetire (src : Source) (stack : Nat) (channel : Fin 32)
  /-- RETIREMENT_COPY_COMPLETE (R249). -/
  | retirementCopyComplete (stack : Nat)
  /-- ESCAPE (R264). -/
  | escape (die : Fin 4) (network : Fin 4)
  /-- LINK_ERROR_LIMIT (R440). -/
  | linkErrorLimit (die : Fin 4) (link : LinkId)
  /-- NOP (R310). -/
  | nop (g : Fin 256) (q : Fin 4)
  /-- ARRAY (R311). -/
  | array (g : Fin 256) (q : Fin 4)
  /-- TRANSFER (R310). -/
  | transfer (g : Fin 256) (q : Fin 4)
  /-- FADD (R572). -/
  | fadd (g : Fin 256) (q : Fin 4)
  /-- FSUB (R572). -/
  | fsub (g : Fin 256) (q : Fin 4)
  /-- FMUL (R572). -/
  | fmul (g : Fin 256) (q : Fin 4)
  /-- FFMA (R572). -/
  | ffma (g : Fin 256) (q : Fin 4)
  /-- FMAX (R572). -/
  | fmax (g : Fin 256) (q : Fin 4)
  /-- FMIN (R572). -/
  | fmin (g : Fin 256) (q : Fin 4)
  /-- EQ (R572). -/
  | cmpEq (g : Fin 256) (q : Fin 4)
  /-- LT (R572). -/
  | cmpLt (g : Fin 256) (q : Fin 4)
  /-- LE (R572). -/
  | cmpLe (g : Fin 256) (q : Fin 4)
  /-- FSQRT (R572). -/
  | fsqrt (g : Fin 256) (q : Fin 4)
  /-- VRECIP (R572). -/
  | vrecip (g : Fin 256) (q : Fin 4)
  /-- VRSQRT (R572). -/
  | vrsqrt (g : Fin 256) (q : Fin 4)
  /-- VEXP (R572). -/
  | vexp (g : Fin 256) (q : Fin 4)
  /-- VLOG (R572). -/
  | vlog (g : Fin 256) (q : Fin 4)
  /-- SCALE (R572). -/
  | scale (g : Fin 256) (q : Fin 4)
  /-- COPY (R572). -/
  | copy (g : Fin 256) (q : Fin 4)
  /-- SUM_REDUCTION (R271). -/
  | sumReduction (g : Fin 256) (q : Fin 4)
  /-- MAX_REDUCTION (R271). -/
  | maxReduction (g : Fin 256) (q : Fin 4)
  /-- RMS_NORM (R272). -/
  | rmsNorm (g : Fin 256) (q : Fin 4)
  /-- LAYER_NORM (R272). -/
  | layerNorm (g : Fin 256) (q : Fin 4)
  /-- DROPOUT (R273). -/
  | dropout (g : Fin 256) (q : Fin 4)
  /-- ACTIVATION_FUNCTION (R572). -/
  | activationFunction (g : Fin 256) (q : Fin 4)
  /-- ATTENTION (R275). -/
  | attention (g : Fin 256) (q : Fin 4)
  /-- COMMIT (R278). -/
  | commit (g : Fin 256) (q : Fin 4)
  /-- SKETCH (R172). -/
  | sketch (g : Fin 256) (q : Fin 4)
  /-- ROTATE (R310). -/
  | rotate (g : Fin 256) (q : Fin 4)
  /-- FENCE (R318). -/
  | fence (g : Fin 256) (q : Fin 4)
  /-- STEP_END (R321). -/
  | stepEnd (g : Fin 256) (q : Fin 4)
  /-- FRAME (R328). -/
  | frame (g : Fin 256) (q : Fin 4)
  /-- COMMAND_COMPLETION (R316). -/
  | commandCompletion (g : Fin 256) (q : Fin 4) (run : CmdRun)
  /-- TAIL_WRITE (R307). -/
  | tailWrite (src : Source) (g : Fin 256) (q : Fin 4) (tail : Word32)
  /-- QUEUE_RESUME (R317). -/
  | queueResume (src : Source) (g : Fin 256) (q : Fin 4)
  /-- QUEUE_FLUSH (R317). -/
  | queueFlush (src : Source) (g : Fin 256) (q : Fin 4)
  /-- CREATE (R299). -/
  | create
  /-- GROW (R299). -/
  | grow
  /-- SHRINK (R299). -/
  | shrink
  /-- START (R299). -/
  | start
  /-- STOP (R299). -/
  | stop
  /-- RESET (R299). -/
  | reset
  /-- DESTROY (R299). -/
  | destroy
  /-- ADMIT (R305). -/
  | admitPart
  /-- SET_L1 (R299). -/
  | setL1
  /-- COMMIT_BEGIN (R286). -/
  | commitBegin (p : Fin 64) (work : CommitWork)
  /-- STEP_BOUNDARY (R286). -/
  | stepBoundary (run : BoundaryRun)
  /-- DOORBELL (R356). -/
  | doorbell (pkt : Pkt) (queueId : Half) (tail : Word32)
  /-- BULK_WRITE (R357). -/
  | bulkWrite (pkt : Pkt) (addr : Word64) (msgLen : Word32) (offset : Word32) (payload : List Byte)
  /-- BULK_READ (R357). -/
  | bulkRead (pkt : Pkt) (addr : Word64) (len : Word32) (rtag : Word32)
  /-- BULK_RDATA (R357). -/
  | bulkRdata (pkt : Pkt) (rtag : Word32) (offset : Word32) (payload : List Byte)
  /-- STATUS (R358). -/
  | status (pkt : Pkt) (msg : Word32) (code : Byte) (detail : Word64)
  /-- BLOCKS (R390). -/
  | blocks (pkt : Pkt) (hdr : SegHdr) (first : Word32) (nblk : Half) (payload : List Byte)
  /-- COMBINE_UP (R393). -/
  | combineUp (pkt : Pkt) (hdr : SegHdr) (offset : Word32) (payload : List Byte)
  /-- COMBINE_DOWN (R394). -/
  | combineDown (pkt : Pkt) (hdr : SegHdr) (offset : Word32) (payload : List Byte)
  /-- CREDIT (R397). -/
  | credit (pkt : Pkt) (hdr : SegHdr) (slot : Word32)
  /-- MCAST_SEG (R364). -/
  | mcastSeg (pkt : Pkt) (group : Half) (offset : Word64) (payload : List Byte)
  /-- PUBLISH (R364). -/
  | publish (pkt : Pkt) (offset : Word64)
  /-- DETACH (R365). -/
  | detach (pkt : Pkt) (offset : Word64)
  /-- JOIN (R366). -/
  | join (pkt : Pkt) (offset : Word64)
  /-- ACCEPT (R366). -/
  | accept (pkt : Pkt) (offset : Word64)
  /-- REFUSE (R366). -/
  | refuse (pkt : Pkt) (offset : Word64)
  /-- SC_INIT (R344). -/
  | scInit (port : PortId) (init : ScInit)
  /-- SC_ACCEPT (R344). -/
  | scAccept (session : Half) (acc : ScAccept)
  /-- SC_CONFIRM (R344). -/
  | scConfirm (pkt : Pkt) (signature : List Byte)
  /-- SC_CLOSE (R349). -/
  | scClose (pkt : Pkt) (cause : Byte)
  /-- SC_CONFIRM_TIMEOUT (R344). -/
  | scConfirmTimeout (session : Half)
  /-- ACK (R351). -/
  | ack (pkt : Pkt)
  /-- ACK_TIMER (R351). -/
  | ackTimer (session : Half)
  /-- RETRANSMISSION_TIMEOUT (R352). -/
  | retransmissionTimeout (session : Half)
  /-- IDLE_TIMEOUT (R349). -/
  | idleTimeout (session : Half)
  /-- KEEPALIVE (R349). -/
  | keepalive (session : Half)
  /-- NON_ZAZEL_FRAME (R338). -/
  | nonZazelFrame (port : PortId) (frame : RxFrame)
  /-- LINK_UP (R371). -/
  | linkUp (port : PortId) (speed : Fin 3)
  /-- LINK_DOWN (R337). -/
  | linkDown (port : PortId)
  /-- LANE_SPARING (R335). -/
  | laneSparing (port : PortId) (lane : Fin 4)
  /-- LLDP_TRANSMIT (R336). -/
  | lldpTransmit (port : PortId)
  /-- LLDPDU_RECEIVE (R336). -/
  | lldpduReceive (port : PortId) (lldpdu : List Byte)
  /-- PTP_EVENT_MESSAGE (R336). -/
  | ptpEventMessage (port : PortId) (sent : Bool) (correction : Int)
  /-- TRANSPORT_CONTEXT_STOPPED (R362). -/
  | transportContextStopped (p : Fin 64)
  /-- CHILD_DETACH (R365). -/
  | childDetach (xdie : Fin 6) (group : Half) (child : Fin 8)
  /-- JOIN_TIMER (R366). -/
  | joinTimer (xdie : Fin 6) (group : Half)
  /-- EGRESS_FRAME (R457): the frame that the port's egress serves next (R339), or one that firmware offers. -/
  | egressFrame (port : PortId) (frame : Option TxFrame)
  /-- EGL_LOCK (R458). -/
  | eglLock (src : Source) (xdie : Fin 6)
  /-- RING_OPEN (R369). -/
  | ringOpen (src : Source) (ring : Ring)
  /-- RING_LOOPBACK_VERIFIED (R369). -/
  | ringLoopbackVerified (ring : Ring)
  /-- RING_SWITCH_SETTLED (R369). -/
  | ringSwitchSettled (ring : Ring)
  /-- RING_NEIGHBOURS_TRAINED (R369). -/
  | ringNeighboursTrained (ring : Ring)
  /-- RING_TRAIN_TIMEOUT (R369). -/
  | ringTrainTimeout (ring : Ring)
  /-- RING_CLOSE (R368). -/
  | ringClose (src : Source) (ring : Ring)
  /-- REDUCTION_FIRE (R378). -/
  | reductionFire (xdie : Fin 6) (p : Fin 64) (run : FireRun)
  /-- POINT_COMPUTE (R380). -/
  | pointCompute (xdie : Fin 6) (p : Fin 64) (rid : Half) (point : BitVec 24) (owner : Half) (run : PointRun)
  /-- COMBINE_ENTRY (R392). -/
  | combineEntry (run : CombineRun)
  /-- CHANNEL_ARRIVAL (R397). -/
  | channelArrival (xdie : Fin 6) (p : Fin 64) (ch : Half)
  /-- CHANNEL_RELEASE (R397). -/
  | channelRelease (xdie : Fin 6) (p : Fin 64) (ch : Half)
  /-- VAULT_IMAGE_STREAM (R411). -/
  | vaultImageStream (p : Fin 64)
  /-- HALF_SEALED (R411). -/
  | halfSealed (p : Fin 64)
  /-- FLASH_IMAGE (R412). -/
  | flashImage (p : Fin 64)
  /-- FLASH_IMAGE_DONE (R412). -/
  | flashImageDone (p : Fin 64)
  /-- STORE_COPY (R413). -/
  | storeCopy (p : Fin 64)
  /-- HOLD (R415). -/
  | hold (src : Source) (p : Fin 64) (value : Bool)
  /-- RESTART (R417). -/
  | restart (p : Fin 64)
  /-- FINISH (R418). -/
  | finish (p : Fin 64)
  /-- RESTORE (R421). -/
  | restore (p : Fin 64)
  /-- REPLAY (R422). -/
  | replay (p : Fin 64)
  /-- REPOINT (R431). -/
  | repoint (p : Fin 64)
  /-- FLASH_NOW (R431). -/
  | flashNow (p : Fin 64)
  /-- STORE_NOW (R431). -/
  | storeNow (p : Fin 64)
  /-- CV_START (R451). -/
  | cvStart (src : Source) (xdie : Fin 6) (u : Fin 8)
  /-- CV_ABORT (R466). -/
  | cvAbort (src : Source) (xdie : Fin 6) (u : Fin 8)
  /-- CV_RUN_COMPLETE (R451). -/
  | cvRunComplete (xdie : Fin 6) (u : Fin 8)
  /-- SCAN_START (R453). -/
  | scanStart (src : Source) (xdie : Fin 6)
  /-- SCAN_ABORT (R468). -/
  | scanAbort (src : Source) (xdie : Fin 6)
  /-- SCAN_COMPLETE (R453). -/
  | scanComplete (xdie : Fin 6)
  /-- PATROL_SCRUB (R454). -/
  | patrolScrub (stack : Nat)
  /-- CABINET_SCRUB (R455). -/
  | cabinetScrub (g : GalRef) (bank : Fin 64)
  /-- WATCHDOG_EXPIRY (R459). -/
  | watchdogExpiry (core : Fin 2)
  /-- WATCHDOG_KICK (R507). -/
  | watchdogKick (core : Fin 2)
  /-- TAKEOVER (R507). -/
  | takeover
  /-- PWR_EN_RISE (R471). -/
  | pwrEnRise
  /-- RAIL_POWER_GOOD (R471). -/
  | railPowerGood (rail : Rail)
  /-- PWR_EN_FALL (R472). -/
  | pwrEnFall
  /-- VIN_OUT_OF_RANGE (R472). -/
  | vinOutOfRange
  /-- RAIL_FAULT (R473). -/
  | railFault (rail : Rail)
  /-- POWER_STAGE_FAULT (R474). -/
  | powerStageFault (rail : Rail)
  /-- RAIL_WARNING_ENTRY (R476). -/
  | railWarningEntry (die : Fin 10) (mv : BitVec 10)
  /-- RAIL_WARNING_EXIT (R476). -/
  | railWarningExit (die : Fin 10) (mv : BitVec 10)
  /-- VCORE_RESET_LEVEL (R477). -/
  | vcoreResetLevel (die : Fin 10)
  /-- THERMAL_DUTY_UPDATE (R482). -/
  | thermalDutyUpdate (die : Fin 10) (temp : Byte)
  /-- THERMAL_TRIP (R483). -/
  | thermalTrip (die : Fin 10)
  /-- HBM_THERMAL_THROTTLE (R484). -/
  | hbmThermalThrottle (stack : Nat) (temp : Byte)
  /-- RESET_N_ASSERT (R485). -/
  | resetNAssert (lowNs : Nat)
  /-- M_RESET_RELEASE (R487). -/
  | mResetRelease
  /-- M_REQUEST (R486). -/
  | mRequest
  /-- G_REQUEST (R486). -/
  | gRequest
  /-- L_REQUEST (R486). -/
  | lRequest
  /-- IDLE_REQUEST (R490). -/
  | idleRequest (src : Source) (value : Bool)
  /-- SELF_REFRESH_ENTRY (R490). -/
  | selfRefreshEntry (stack : Nat)
  /-- RMON_PEAK_CLEAR (R494). -/
  | rmonPeakClear (src : Source) (die : Fin 10)
  /-- ROM_SELF_TEST_COMPLETE (R502). -/
  | romSelfTestComplete (core : Fin 2) (pass : Bool)
  /-- IMAGE_LOADED (R500). -/
  | imageLoaded (core : Fin 2)
  /-- FLASH_GRANT_TIMEOUT (R502). -/
  | flashGrantTimeout
  /-- RCV_DATA (R504). -/
  | rcvData (offset : Word32) (bytes : List Byte)
  /-- RECOVERY_RETRY_TIMER (R504). -/
  | recoveryRetryTimer
  /-- RECOVERY_ROLE_TIMEOUT (R504). -/
  | recoveryRoleTimeout
  /-- STANDBY_SYNCED (R506). -/
  | standbySynced
  /-- QUIET_POINT (R508). -/
  | quietPoint
  /-- UPDATE_QUIET_TIMEOUT (R508). -/
  | updateQuietTimeout
  /-- AUTH_SET (R512). -/
  | authSet (session : Half) (k : Fin 16)
  /-- AUTH_DEL (R512). -/
  | authDel (session : Half) (k : Fin 16)
  /-- SESS_OPEN (R512). -/
  | sessOpen (session : Half) (k : Fin 16)
  /-- SESS_CLOSE (R512). -/
  | sessClose (session : Half) (k : Fin 16)
  /-- VEC_SET (R512). -/
  | vecSet (session : Half) (k : Fin 16)
  /-- MCAST_SET (R512). -/
  | mcastSet (session : Half) (k : Fin 16)
  /-- MCAST_DEL (R512). -/
  | mcastDel (session : Half) (k : Fin 16)
  /-- CURWRITE (R512). -/
  | curwrite (session : Half) (k : Fin 16)
  /-- MAILBOX_RESET (R512). -/
  | mailboxReset (session : Half) (k : Fin 16)
  /-- UPDATE (R508). -/
  | update (session : Half) (k : Fin 16)
  /-- ATTEST (R515). -/
  | attest (session : Half) (k : Fin 16)
  /-- SVN_ADVANCE (R516). -/
  | svnAdvance (session : Half) (k : Fin 16)
  /-- KEY_REVOKE (R501). -/
  | keyRevoke (session : Half) (k : Fin 16)
  /-- COUNTER_OVERFLOW (R522). -/
  | counterOverflow (page : BitVec 12) (i : Fin 248) (weight : BitVec 48)
  /-- LDG_GRANT_WRITE (R526). -/
  | ldgGrantWrite (src : Source) (data : Word64)
  /-- STREAM_ENABLE (R531). -/
  | streamEnable (src : Source) (j : Fin 16)
  /-- DUMP_SAMPLE (R534). -/
  | dumpSample (j : Fin 16)
  /-- PROVENANCE_RECORD (R539). -/
  | provenanceRecord (op : MicroOp)
  /-- WATCH_ARM (R542). -/
  | watchArm (src : Source) (g : Fin 256) (w : Fin 4)
  /-- OBS_UNLOCK_NEW (R546). -/
  | obsUnlockNew (src : Source)
  /-- OBS_UNLOCK_CHECK (R546). -/
  | obsUnlockCheck (src : Source)
  /-- OBS_UNLOCK_LOCK (R546). -/
  | obsUnlockLock (src : Source)
  /-- TRIG_IN (R547). -/
  | trigIn
  /-- TRIG_POST_STOP (R547). -/
  | trigPostStop
  /-- OUT_NOW (R547). -/
  | outNow (src : Source)
  /-- TRIG_OUT_PULSE_END (R547). -/
  | trigOutPulseEnd
  /-- TRIG_RESTART (R547). -/
  | trigRestart (src : Source)
  /-- EXTEST (R549). -/
  | extest
  /-- SAMPLE_PRELOAD (R549). -/
  | samplePreload (cells : BitVec 26)
  /-- IDCODE (R549). -/
  | idcode
  /-- BYPASS (R549). -/
  | bypass
  /-- RESET_N_DEASSERT (R556). -/
  | resetNDeassert
  /-- VIN_IN_RANGE (R550). -/
  | vinInRange
  /-- OBSERVATION_FRAME (R544). -/
  | observationFrame (pin : Fin 16)
  /-- TRST_N_ASSERT (R560). -/
  | trstNAssert
  deriving DecidableEq, Repr

end Sys2Proof
end

