-- ==== Sys2Proof/Decode.lean ====
section
/-! DEFINITION. The command a word spells by the opcode table's bits. The table of this block gives no row any bits (every
row's fields are empty), so no word spells a command. -/

namespace Sys2Proof

/-- The command of an `nbits`-bit word w: none, because the table gives its rows no bits. -/
def decodeTableWord (nbits w : Nat) : Option Instr :=
  match nbits, w with
  | _, _ => none

end Sys2Proof
end

