-- ==== Sys2Proof/Config.lean ====
section
/-! DEFINITION. What the manual leaves open: uninterpreted constants without a body. Nothing can evaluate them or
prove a value of them, so a statement holds whatever they are (notes/assumptions/3, 4, 5). -/

namespace Sys2Proof.Config

/-- A fresh free value, numbered by the counter `State.free`: readings and values the manual does not give. -/
opaque freeWord : Nat → Word64

/-- vrecip on an FP32 encoding (R268: a fixed function of the input bits; the ENR holds its bits). -/
opaque recipBits : Word32 → Word32

/-- vrsqrt on an FP32 encoding (R268). -/
opaque rsqrtBits : Word32 → Word32

/-- vexp on an FP32 encoding (R268). -/
opaque expBits : Word32 → Word32

/-- vlog on an FP32 encoding (R268). -/
opaque logBits : Word32 → Word32

/-- The activation functions of codes 0x0100-0x01FF: code, the parameter words and the inputs of one element
(R272, R572: the composition is listed in the ENR, which the manual does not contain). -/
opaque activation : Nat → List Word32 → List Word32 → Word32

/-- The raw score of a steep ATTENTION command (R275 names no purpose codes for its streams): the precision word, the range exponents, the
encodings of the query row and of the key row. -/
opaque steepScore : Nat → Int → Int → List Nat → List Nat → Word32

/-- The range exponent of a side of a layer that no census entry gives: layer number, side (R172, R274). -/
opaque layerExp : Nat → Nat → BitVec 8

/-- The result of a K chunk one of whose sides alone is steep: R159 lets such a word run in exact mode, and no rule gives its arithmetic.
The range exponents and the operands, each as sign, significand and unit. -/
opaque mixedChunk : Int → Int → List (Bool × Nat × Int) → List (Bool × Nat × Int) → Word32

/-- The range exponent of a census entry that cannot be read at a step start, by entry (R208, R571). -/
opaque lostExp : Nat → BitVec 8

/-- SHAKE256 of a byte string, taken to a length (R345, R346, R500, R515, R546). -/
opaque shake256 : List Byte → Nat → List Byte

/-- Ed448 verification: public key, context, message, signature (R345, R500, R514, R546; RFC 8032). -/
opaque ed448Verify : List Byte → List Byte → List Byte → List Byte → Bool

/-- Ed448 signature by the module's identity key: context, message (R513). -/
opaque ed448Sign : List Byte → List Byte → List Byte

/-- A fresh X448 key pair's public half, numbered (R344; RFC 7748). -/
opaque x448Public : Nat → List Byte

/-- The X448 shared secret of key pair n with a remote public key (R346). -/
opaque x448Shared : Nat → List Byte → List Byte

/-- A fresh nonce, numbered (R345). -/
opaque nonce : Nat → List Byte

/-- AES-256-GCM: key, nonce, associated data, plaintext; the ciphertext and the tag (R346, R348). -/
opaque aesGcm : List Byte → List Byte → List Byte → List Byte → List Byte × List Byte

/-- The fixed UDP source port of a session, numbered (R337 gives no value). -/
opaque udpPort : Nat → Half

/-- Fields of the IP header that the manual does not mention: 0 the flow label of IPv6, 1 the hop limit or time to live, 2 the
identification of IPv4, 3 its flags and fragment offset (R338 allows no fragmentation), for a packet number. -/
opaque ipField : Nat → Nat → Nat

/-- What the quantum of the deficit round robin of R339 has, for one unit of weight, beyond the largest frame. -/
opaque drrExtra : Nat

/-- The row of its channel that an HBM address lies in, the channels of R244 being laid out in rows as JEDEC says (R248). -/
opaque hbmRow : Nat → Nat

/-- The content of a Curator record copy, numbered by its SEQ (R497 gives its framing and not its content). -/
opaque recordImage : Nat → List Byte

/-- The bytes of the fuse banks other than the identity secret, for a fused SVN and revoked key slots (R515 gives no order). -/
opaque fuseImage : Nat → Nat → List Byte

/-- Where in BUF the collective engine keeps a block: point code, owner, block number (R391 gives no layout). -/
opaque bufPlace : Nat → Nat → Nat → Nat

/-- A reading that the module shows continuously and that nothing in the manual fixes: register address and field, time (R494, R495). -/
opaque reading : Nat → Nat → Nat

/-- A word of the journal window: register address and the number of journal entries (R506, R517 give no layout). -/
opaque journalWord : Nat → Nat → Nat

end Sys2Proof.Config
end

