-- ==== Sys2Proof/Machine/Bits.lean ====
section
/-! DEFINITION. Bit fields, sign extension and byte order (R10, R11). -/

namespace Sys2Proof.Machine

/-- Bits [lo + w - 1 : lo] of a number. -/
def bits (v lo w : Nat) : Nat := (v >>> lo) % 2 ^ w

/-- Bit n of a number. -/
def bit (v n : Nat) : Bool := v.testBit n

/-- A number with bits [lo + w - 1 : lo] replaced by the low w bits of x. -/
def setBits (v lo w x : Nat) : Nat := v - (bits v lo w) * 2 ^ lo + (x % 2 ^ w) * 2 ^ lo

/-- 1 for true. -/
def b2n (b : Bool) : Nat := if b then 1 else 0

/-- The signed reading of the low w bits. -/
def sext (w v : Nat) : Int := if v % 2 ^ w < 2 ^ (w - 1) then (v % 2 ^ w : Nat) else (v % 2 ^ w : Nat) - (2 ^ w : Nat)

/-- An integer as a w-bit two's complement field. -/
def toField (w : Nat) (x : Int) : Nat := (x % (2 ^ w : Nat)).toNat

/-- n as k bytes, little-endian (R11). -/
def leBytes (k n : Nat) : List Byte :=
  match k with
  | 0 => []
  | k + 1 => BitVec.ofNat 8 n :: leBytes k (n / 256)

/-- Little-endian bytes as a number. -/
def leNat (bs : List Byte) : Nat :=
  match bs with
  | [] => 0
  | b :: r => b.toNat + 256 * leNat r

/-- n as k bytes, most significant first (network order, R11). -/
def beBytes (k n : Nat) : List Byte := (leBytes k n).reverse

/-- Network-order bytes as a number. -/
def beNat (bs : List Byte) : Nat := leNat bs.reverse

/-- Bytes [off, off + k) of a list, as a number; bytes past the end read 0. -/
def leAt (bs : List Byte) (off k : Nat) : Nat := leNat ((bs.drop off).take k)

/-- Round n up to a multiple of m. -/
def roundUp (n m : Nat) : Nat := (n + m - 1) / m * m

/-- A list padded with zero bytes to a length. -/
def padTo (k : Nat) (bs : List Byte) : List Byte := bs ++ List.replicate (k - bs.length) 0

/-- The set bits of a number below w, ascending. -/
def setOf (w v : Nat) : List Nat := (List.range w).filter (fun i => v.testBit i)

/-- The number with the listed bits set. -/
def maskOf (l : List Nat) : Nat := l.foldl (fun a i => a ||| (1 <<< i)) 0

/-- How many bits below w are set. -/
def popCount (w v : Nat) : Nat := (setOf w v).length

/-- Saturating addition in w bits. -/
def satAdd (w a b : Nat) : Nat := min (a + b) (2 ^ w - 1)

/-- A list with the entry at i replaced. -/
def setAt {α : Type} (l : List α) (i : Nat) (x : α) : List α := l.set i x

end Sys2Proof.Machine
end

