-- ==== Sys2Proof/Machine/Float.lean ====
section
/-! DEFINITION. Number formats and conversions (R77-R103): exact values, the two roundings, and the conversions of R96 with
their census counts. -/

namespace Sys2Proof.Machine

/-- A floating-point format: exponent bits and fraction bits (R80). -/
structure Fmt where
  eb : Nat
  fb : Nat
  deriving DecidableEq, Repr

/-- FP32. -/
def fp32 : Fmt := ⟨8, 23⟩
/-- BF16. -/
def bf16 : Fmt := ⟨8, 7⟩
/-- FP16. -/
def fp16 : Fmt := ⟨5, 10⟩

/-- The bias. -/
def Fmt.bias (f : Fmt) : Nat := 2 ^ (f.eb - 1) - 1
/-- The encoding of +infinity. -/
def Fmt.infBits (f : Fmt) : Nat := (2 ^ f.eb - 1) * 2 ^ f.fb
/-- The canonical NaN (R82). -/
def Fmt.nanBits (f : Fmt) : Nat := f.infBits + 2 ^ (f.fb - 1)
/-- The sign bit's weight. -/
def Fmt.signBit (f : Fmt) : Nat := 2 ^ (f.eb + f.fb)

/-- A value: a NaN, an infinity, or (-1)^neg m 2^e. -/
inductive Val where
  | nan
  | inf (neg : Bool)
  | fin (neg : Bool) (m : Nat) (e : Int)
  deriving DecidableEq, Repr

/-- The value of an encoding (R80). -/
def unpack (f : Fmt) (w : Nat) : Val :=
  let neg := bit w (f.eb + f.fb)
  let x := bits w f.fb f.eb
  let m := bits w 0 f.fb
  if x = 2 ^ f.eb - 1 then (if m = 0 then .inf neg else .nan)
  else if x = 0 then .fin neg m (1 - (f.bias : Int) - f.fb)
  else .fin neg (2 ^ f.fb + m) ((x : Int) - f.bias - f.fb)

/-- Whether an encoding is a subnormal. -/
def isSub (f : Fmt) (w : Nat) : Bool := bits w f.fb f.eb == 0 && bits w 0 f.fb != 0

/-- A zero of an encoding's sign. -/
def flushBits (f : Fmt) (w : Nat) : Nat := if isSub f w then b2n (bit w (f.eb + f.fb)) * f.signBit else w

/-- Bits of a number. -/
def blen (n : Nat) : Nat := if n = 0 then 0 else Nat.log2 n + 1

/-- m 2^s rounded to an integer, ties to even (R88). -/
def rneShift (m : Nat) (s : Int) : Nat :=
  if 0 ≤ s then m * 2 ^ s.toNat
  else
    let k := (-s).toNat
    let q := m >>> k
    let r := m - q * 2 ^ k
    if 2 * r < 2 ^ k then q else if 2 ^ k < 2 * r then q + 1 else q + q % 2

/-- m 2^s truncated, and the discarded bits left-aligned in 32 (R89). -/
def srShift (m : Nat) (s : Int) (u : Nat) : Nat :=
  if 0 ≤ s then m * 2 ^ s.toNat
  else
    let k := (-s).toNat
    let q := m >>> k
    let r := m - q * 2 ^ k
    let d := r * 2 ^ 32 / 2 ^ k
    if u < d then q + 1 else q

/-- The encoding of k 2^q, which the format holds exactly or which lies beyond it (R80, R88). -/
def packExact (f : Fmt) (neg : Bool) (k : Nat) (q : Int) : Nat :=
  let sg := b2n neg * f.signBit
  if k < 2 ^ f.fb then sg + k
  else
    let k1 := if 2 ^ (f.fb + 1) ≤ k then k / 2 else k
    let q1 := if 2 ^ (f.fb + 1) ≤ k then q + 1 else q
    let x := (q1 + f.fb + f.bias).toNat
    if 2 ^ f.eb - 1 ≤ x then sg + f.infBits else sg + x * 2 ^ f.fb + (k1 - 2 ^ f.fb)

/-- The exponent of the last place of m 2^e in a format, subnormals included. -/
def ulpOf (f : Fmt) (m : Nat) (e : Int) : Int := max ((blen m : Int) - 1 + e) (1 - (f.bias : Int)) - f.fb

/-- RNE of a value into a format, subnormals kept (R82, R88). -/
def packRne (f : Fmt) (v : Val) : Nat :=
  match v with
  | .nan => f.nanBits
  | .inf neg => b2n neg * f.signBit + f.infBits
  | .fin neg m e => packExact f neg (rneShift m (e - ulpOf f m e)) (ulpOf f m e)

/-- RNE of a value into FP32 on the array's accumulator path: rounded as if the exponent range were unbounded, then a zero of its
sign below 2^-126 (R81). -/
def packFtz (v : Val) : Nat :=
  match v with
  | .fin neg m e =>
    if m = 0 then b2n neg * fp32.signBit
    else
      let q := (blen m : Int) - 1 + e - 23
      let k := rneShift m (e - q)
      if (blen k : Int) - 1 + q < -126 then b2n neg * fp32.signBit else packExact fp32 neg k q
  | v => packRne fp32 v

/-- SR of a value into a format with a Kettle word (R89, R90). -/
def packSr (f : Fmt) (v : Val) (u : Nat) : Nat :=
  match v with
  | .nan => f.nanBits
  | .inf neg => b2n neg * f.signBit + f.infBits
  | .fin neg m e => packExact f neg (srShift m (e - ulpOf f m e) u) (ulpOf f m e)

/-- RNE of a value to an integer; 0 for a NaN or an infinity, which the callers take apart first. -/
def toIntRne (v : Val) : Int :=
  match v with
  | .fin neg m e => if neg then -(rneShift m e : Int) else rneShift m e
  | _ => 0

/-- A value times 2^k. -/
def scaleVal (v : Val) (k : Int) : Val :=
  match v with
  | .fin neg m e => .fin neg m (e + k)
  | v => v

/-- An integer as a value. -/
def intVal (x : Int) (e : Int) : Val := .fin (decide (x < 0)) x.natAbs e

/-- Whether a value is finite. -/
def Val.finite (v : Val) : Bool := match v with | .fin _ _ _ => true | _ => false
/-- Whether a value is a zero. -/
def Val.isZero (v : Val) : Bool := match v with | .fin _ m _ => m == 0 | _ => false
/-- The value with its sign changed. -/
def Val.negate (v : Val) : Val := match v with | .nan => .nan | .inf s => .inf (!s) | .fin s m e => .fin (!s) m e
/-- The magnitude. -/
def Val.mag (v : Val) : Val := match v with | .nan => .nan | .inf _ => .inf false | .fin _ m e => .fin false m e

/-- The exact sum, under RNE's sign of zero (R83, R88). -/
def vadd (a b : Val) : Val :=
  match a, b with
  | .nan, _ => .nan
  | _, .nan => .nan
  | .inf s, .inf t => if s = t then .inf s else .nan
  | .inf s, .fin _ _ _ => .inf s
  | .fin _ _ _, .inf t => .inf t
  | .fin s m e, .fin t n g =>
    if m = 0 ∧ n = 0 then .fin (s && t) 0 0
    else
      let q := min e g
      let x : Int := (m * 2 ^ (e - q).toNat : Nat)
      let y : Int := (n * 2 ^ (g - q).toNat : Nat)
      let z := (if s then -x else x) + (if t then -y else y)
      if z = 0 then .fin false 0 0 else intVal z q

/-- The exact product (R88). -/
def vmul (a b : Val) : Val :=
  match a, b with
  | .nan, _ => .nan
  | _, .nan => .nan
  | .inf s, .inf t => .inf (s != t)
  | .inf s, .fin t n _ => if n = 0 then .nan else .inf (s != t)
  | .fin s m _, .inf t => if m = 0 then .nan else .inf (s != t)
  | .fin s m e, .fin t n g => .fin (s != t) (m * n) (e + g)

/-- Less than: false with a NaN; zeros are equal. -/
def vlt (a b : Val) : Bool :=
  match a, b with
  | .nan, _ => false
  | _, .nan => false
  | .inf s, .inf t => s && !t
  | .inf s, .fin _ _ _ => s
  | .fin _ _ _, .inf t => !t
  | .fin s m e, .fin t n g =>
    let q := min e g
    let x : Int := (m * 2 ^ (e - q).toNat : Nat)
    let y : Int := (n * 2 ^ (g - q).toNat : Nat)
    decide ((if s then -x else x) < (if t then -y else y))

/-- Equal as numbers. -/
def veq (a b : Val) : Bool :=
  match a, b with
  | .nan, _ => false
  | _, .nan => false
  | a, b => !vlt a b && !vlt b a

/-- The integer square root, digit by digit: `bitsLeft` digits remain. -/
def isqrtFrom (n r bitsLeft : Nat) : Nat :=
  match bitsLeft with
  | 0 => r
  | k + 1 => let t := r + 2 ^ k; if t * t ≤ n then isqrtFrom n t k else isqrtFrom n r k

/-- The integer square root. -/
def isqrt (n : Nat) : Nat := isqrtFrom n 0 (blen n / 2 + 1)

/-- The square root with enough bits, the last of them sticky, to round it correctly (R88, R267). -/
def vsqrt (a : Val) : Val :=
  match a with
  | .nan => .nan
  | .inf s => if s then .nan else .inf false
  | .fin s m e =>
    if m = 0 then .fin s 0 e
    else if s then .nan
    else
      let k : Nat := 64 + (if (e - 64) % 2 = 0 then 0 else 1)
      let n := m * 2 ^ k
      let r := isqrt n
      .fin false (2 * r + b2n (r * r != n)) ((e - k) / 2 - 1)

/-- The quotient of two integers with enough bits, the last of them sticky, to round it correctly; the divisor is not 0. -/
def vratio (a b : Nat) : Val :=
  let n := a * 2 ^ (64 + blen b)
  .fin false (2 * (n / b) + b2n (n % b != 0)) (-(64 + (blen b : Int)) - 1)

/-- The value of an FP32 encoding. -/
def val32 (w : Nat) : Val := unpack fp32 w

/-- fadd (R103). -/
def fadd (a b : Nat) : Nat := packRne fp32 (vadd (val32 a) (val32 b))
/-- fsub (R103). -/
def fsub (a b : Nat) : Nat := packRne fp32 (vadd (val32 a) (val32 b).negate)
/-- fmul (R103). -/
def fmul (a b : Nat) : Nat := packRne fp32 (vmul (val32 a) (val32 b))
/-- ffma: a b + c, rounded once (R103). -/
def ffma (a b c : Nat) : Nat := packRne fp32 (vadd (vmul (val32 a) (val32 b)) (val32 c))
/-- fsqrt (R267). -/
def fsqrt (a : Nat) : Nat := packRne fp32 (vsqrt (val32 a))
/-- An FP32 addition of the array's accumulator path (R81). -/
def faddAcc (a b : Nat) : Nat := packFtz (vadd (val32 a) (val32 b))

/-- A storage format by its code: 0 for BF16, 1 for FP16 (R311). -/
def storeFmt (k : Nat) : Fmt := if k = 0 then bf16 else fp16

/-- The value an element in storage has when arithmetic consumes it: BF16 subnormals flushed (R81). -/
def stored (k w : Nat) : Val := if k = 0 then unpack bf16 (flushBits bf16 w) else unpack fp16 w

/-- The counts one conversion reports (R97): zero, saturation, non-finite, and the magnitude as FP32. -/
structure ConvCount where
  zero : Bool
  sat : Bool
  nonfinite : Bool
  mag : Nat
  deriving DecidableEq, Repr

/-- The magnitude for the running maximum: 0 for a non-finite input (R97). -/
def magBits (v : Val) : Nat := if v.finite then packRne fp32 v.mag else 0

/-- An integer clamped to a range, with whether it was. -/
def clampInt (lo hi x : Int) : Int × Bool := if x < lo then (lo, true) else if hi < x then (hi, true) else (x, false)

/-- INTb conversion (R93): q and the counts. -/
def toIntb (b : Nat) (e : Int) (v : Val) : Int × ConvCount :=
  if v.finite then
    let top : Nat := 2 ^ (b - 1)
    let r := clampInt (-(top : Int)) ((top : Int) - 1) (toIntRne (scaleVal v ((b : Int) - 1 - e)))
    (r.1, ⟨r.1 == 0, r.2, false, magBits v⟩)
  else (0, ⟨false, false, true, 0⟩)

/-- Ternary conversion (R94). -/
def toTernary (e : Int) (v : Val) : Int × ConvCount :=
  if v.finite then
    let r := clampInt (-1) 1 (toIntRne (scaleVal v (1 - e)))
    (r.1, ⟨r.1 == 0, r.2, false, magBits v⟩)
  else (0, ⟨false, false, true, 0⟩)

/-- UINT8 conversion with zero point z (R95): the difference u - z that enters the array, and the counts. -/
def toUint8 (z : Nat) (e : Int) (v : Val) : Int × ConvCount :=
  if v.finite then
    let r := clampInt 0 255 (toIntRne (scaleVal v (8 - e)) + z)
    (r.1 - z, ⟨r.1 - z == 0, r.2, false, magBits v⟩)
  else (0, ⟨false, false, true, 0⟩)

/-- A floating-point operand (R96): storage format k into operand format `dst` (0 BF16, 1 FP16), and the counts. -/
def toFloatOp (k dst : Nat) (w : Nat) : Nat × ConvCount :=
  let v := stored k w
  let r := if k = dst then (if k = 0 then flushBits bf16 w else w) else packRne (storeFmt dst) v
  let o := unpack (storeFmt dst) r
  (r, ⟨v.finite && o.isZero, v.finite && !o.finite, !v.finite, magBits v⟩)

/-- FP32 into a storage format for vector results: RNE, and whether it saturated or was non-finite (R96). -/
def toStore (k w : Nat) : Nat × ConvCount :=
  let v := val32 w
  let r := packRne (storeFmt k) v
  (r, ⟨false, v.finite && !(unpack (storeFmt k) r).finite, !v.finite, 0⟩)

/-- FP32 into a storage format by SR (R90, R96). -/
def toStoreSr (k w u : Nat) : Nat := packSr (storeFmt k) (val32 w) u

/-- An element in storage as FP32, exactly (R96). -/
def fromStore (k w : Nat) : Nat := packRne fp32 (stored k w)

/-- The SR of t to an integer (R89, R102). -/
def srInt (v : Val) (u : Nat) : Int :=
  match v with
  | .fin neg m e => if neg then -(srShift m e u : Int) else srShift m e u
  | _ => 0

/-- A BS8 block encoded from 32 FP32 sums at exponent X with their Kettle words; `force`: escalated whatever fits (R102, R386).
The block, and whether a q fell outside its range. -/
def bs8Encode (x : Int) (force : Bool) (sums words : List Nat) : List Byte × Bool :=
  let qs := (List.range 32).map (fun i => srInt (scaleVal (val32 (sums.getD i 0)) (-x)) (words.getD i 0))
  let wide := qs.any (fun q => decide (q < -128) || decide (127 < q))
  let bad := (List.range 32).any (fun i => !(val32 (sums.getD i 0)).finite)
  if force || bad || wide then
    (leBytes 1 0x80 ++ (List.range 32).flatMap (fun i => leBytes 2 (packSr bf16 (val32 (sums.getD i 0)) (words.getD i 0))), wide)
  else (leBytes 1 (toField 8 x) ++ qs.flatMap (fun q => leBytes 1 (toField 8 q)), false)

/-- Whether a SCALE byte is reserved (R101). -/
def scaleReserved (b : Nat) : Bool := b == 0x81 || (decide (0x79 ≤ b) && decide (b ≤ 0x7F))

/-- Whether a block is escalated. -/
def bs8Escalated (b : List Byte) : Bool := leAt b 0 1 == 0x80

/-- The 32 FP32 values of a block (R96, R100). -/
def bs8Decode (b : List Byte) : List Nat :=
  (List.range 32).map (fun i =>
    if bs8Escalated b then fromStore 0 (leAt b (1 + 2 * i) 2)
    else packRne fp32 (intVal (sext 8 (leAt b (1 + i) 1)) (sext 8 (leAt b 0 1))))

end Sys2Proof.Machine
end

