-- ==== Sys2Proof/Machine/Kettle.lean ====
section
/-! DEFINITION. The Kettle generator (R177-R183): a key and a counter to 128 bits, and the words, bits and bytes drawn. -/

namespace Sys2Proof.Machine

/-- Four 32-bit words (R177). -/
structure Quad where
  a : BitVec 32
  b : BitVec 32
  c : BitVec 32
  d : BitVec 32
  deriving DecidableEq, Repr

/-- Word j of a quad, j modulo 4. -/
def Quad.get (q : Quad) (j : Nat) : BitVec 32 :=
  match j % 4 with
  | 0 => q.a
  | 1 => q.b
  | 2 => q.c
  | _ => q.d

/-- m0 (R178). -/
def kettleM0 : BitVec 64 := 0xC3A57E4B
/-- m1 (R178). -/
def kettleM1 : BitVec 64 := 0x9D2F6A15
/-- The round-key increments (R178). -/
def kettleW : Quad := ⟨0x71A35D29, 0x2B8EC467, 0xD4C10F9B, 0x6F52A8E3⟩

/-- The round key of lane j in round r (R179). -/
def roundKey (k : Quad) (r j : Nat) : BitVec 32 := k.get (j + r) + BitVec.ofNat 32 r * kettleW.get j

/-- One round (R179). -/
def kettleRound (k x : Quad) (r : Nat) : Quad :=
  let p := x.b.setWidth 64 * kettleM0
  let q := x.d.setWidth 64 * kettleM1
  let lo := fun (v : BitVec 64) => v.setWidth 32
  let hi := fun (v : BitVec 64) => (v >>> 32).setWidth 32
  let a := lo p + x.a.rotateLeft 9
  let b := lo q + x.c.rotateLeft 21
  ⟨b ^^^ hi p ^^^ roundKey k r 0, a ^^^ roundKey k r 1, a ^^^ hi q ^^^ roundKey k r 2, b ^^^ roundKey k r 3⟩

/-- Kettle (R179). -/
def kettle (k c : Quad) : Quad := (List.range 10).foldl (kettleRound k) c

/-- The key of a job seed (R177, R224). -/
def keyOf (lo hi : Nat) : Quad :=
  ⟨BitVec.ofNat 32 lo, BitVec.ofNat 32 (lo / 2 ^ 32), BitVec.ofNat 32 hi, BitVec.ofNat 32 (hi / 2 ^ 32)⟩

/-- The counter of R182. -/
def counterOf (purpose tensor step element : Nat) : Quad :=
  ⟨BitVec.ofNat 32 element, BitVec.ofNat 32 (element / 2 ^ 32), BitVec.ofNat 32 step,
    BitVec.ofNat 32 (purpose % 256 * 2 ^ 24 + tensor % 2 ^ 24)⟩

/-- The word of an element index: word e & 3 of the output at element e >> 2 (R91). -/
def drawWord (key : Quad) (purpose tensor step e : Nat) : Nat :=
  ((kettle key (counterOf purpose tensor step (e / 4))).get e).toNat

/-- A bit of the output at element e >> 7: bit e & 127 (R173, R183). -/
def drawBit (key : Quad) (purpose tensor step e : Nat) : Bool :=
  ((kettle key (counterOf purpose tensor step (e / 128))).get (e % 128 / 32)).toNat.testBit (e % 32)

/-- Output byte b of a quad (R177). -/
def quadByte (q : Quad) (b : Nat) : Nat := bits (q.get (b / 4)).toNat (8 * (b % 4)) 8

/-- The stream byte of K index k at stream position t (R188). -/
def streamByte (key : Quad) (purpose tensor step k t : Nat) : Nat :=
  quadByte (kettle key (counterOf purpose tensor step (16 * k + t / 16))) (t % 16)

end Sys2Proof.Machine
end

