-- ==== Sys2Proof/Machine/Dot.lean ====
section
/-! DEFINITION. The precision word (R156-R159) and the arithmetic of the array: operands (R92-R96, R187), alignment (R122-R124),
group sums and the tree (R116-R118), steep products (R187-R190), non-finite outputs (R85, R86, R120), and ULP distances (R213). -/

namespace Sys2Proof.Machine

/-- An operand format of the array (R157, R158): steep, INTb, ternary, UINT8 with its zero point, or floating point (0 BF16,
1 FP16) with its guard bits. -/
inductive OpFmt where
  | steep
  | int (b : Nat)
  | ternary
  | uint8 (z : Nat)
  | flt (k g : Nat)
  deriving DecidableEq, Repr

/-- WFMT of a precision word (R156). -/
def pwWfmt (w : Nat) : Nat := bits w 0 4
/-- AFMT. -/
def pwAfmt (w : Nat) : Nat := bits w 4 4
/-- PMODE. -/
def pwMode (w : Nat) : Nat := bits w 16 2
/-- LR_RANK as a rank (R156). -/
def pwRank (w : Nat) : Nat := match bits w 20 3 with | 1 => 8 | 2 => 16 | 3 => 32 | 4 => 64 | _ => 0
/-- The stream length L (R156). -/
def pwLen (w : Nat) : Nat := 16 * (bits w 40 4 + 1)

/-- The stationary operand's format (R157). -/
def weightFmt (w : Nat) : OpFmt :=
  match pwWfmt w with
  | 0 => .steep
  | 7 => .ternary
  | 8 => .flt 0 (bits w 8 3)
  | 9 => .flt 1 (bits w 8 3)
  | n => .int (2 * n)

/-- The streamed operand's format (R158). -/
def activationFmt (w : Nat) : OpFmt :=
  match pwAfmt w with
  | 0 => .steep
  | 13 => .uint8 (bits w 48 8)
  | 14 => .flt 0 (bits w 12 3)
  | 15 => .flt 1 (bits w 12 3)
  | n => .int n

/-- Whether a precision word is consistent (R159), rules 1 to 8 in order. -/
def pwConsistent (w : Nat) : Bool :=
  let wf := pwWfmt w
  let af := pwAfmt w
  let steep := pwMode w == 1
  decide (wf ≤ 9) && af != 1 && decide (bits w 8 3 ≤ 4) && !bit w 11 && decide (bits w 12 3 ≤ 4) && !bit w 15 && pwMode w != 3 &&
    bits w 18 2 == 0 && decide (bits w 20 3 ≤ 4) && bits w 45 3 == 0 && bits w 56 8 == 0 &&
  (steep == (wf == 0 && af == 0)) &&
  (steep || bits w 40 4 == 0) &&
  (wf == 8 || wf == 9 || bits w 8 3 == 0) && (af == 14 || af == 15 || bits w 12 3 == 0) &&
  (af == 13 || bits w 48 8 == 0) &&
  (bits w 20 3 == 0 || ((wf == 1 || wf == 2 || wf == 7) && (pwMode w == 0 || pwMode w == 2))) &&
  (if 1 ≤ wf ∧ wf ≤ 6 then decide (1 ≤ bits w 24 4 ∧ bits w 24 4 ≤ wf ∧ wf ≤ bits w 28 4 ∧ bits w 28 4 ≤ 6)
   else bits w 24 4 == wf && bits w 28 4 == wf) &&
  (if 2 ≤ af ∧ af ≤ 12 then decide (2 ≤ bits w 32 4 ∧ bits w 32 4 ≤ af ∧ af ≤ bits w 36 4 ∧ bits w 36 4 ≤ 12)
   else bits w 32 4 == af && bits w 36 4 == af)

/-- Bricks of a multiplier (R109, R111, R189). -/
def bricksOf (f : OpFmt) : Nat :=
  match f with
  | .steep => 1
  | .ternary => 1
  | .int b => b / 2
  | .uint8 _ => 5
  | .flt k g => ((if k = 0 then 8 else 11) + g + 1) / 2

/-- An operand after the edge converter (R92-R96): its value as integer times unit, or significand times unit, and the counts of
R97. -/
def operandOf (f : OpFmt) (k : Nat) (e : Int) (w : Nat) : Val × ConvCount :=
  let v := stored k w
  let as_ := fun (q : Int × ConvCount) (u : Int) => (if v.finite then intVal q.1 u else v, q.2)
  match f with
  | .steep => as_ (toIntb 9 e v) (e - 8)
  | .int b => as_ (toIntb b e v) (e - b + 1)
  | .ternary => as_ (toTernary e v) (e - 1)
  | .uint8 z => as_ (toUint8 z e v) (e - 8)
  | .flt dst _ => let r := toFloatOp k dst w; (unpack (storeFmt dst) r.1, r.2)

/-- The steep conversion: |q| of 256 becomes 255 and counts a saturation (R187). -/
def steepOperand (k : Nat) (e : Int) (w : Nat) : Val × ConvCount :=
  match operandOf .steep k e w with
  | (.fin n m u, c) => if 256 ≤ m then (.fin n 255 u, { c with sat := true }) else (.fin n m u, c)
  | x => x

/-- An operand in its format, steep or not. -/
def convert (f : OpFmt) (k : Nat) (e : Int) (w : Nat) : Val × ConvCount :=
  match f with
  | .steep => steepOperand k e w
  | _ => operandOf f k e w

/-- The unit exponent of an integer format (R117). -/
def unitOf (f : OpFmt) (e : Int) : Int :=
  match f with
  | .int b => e - b + 1
  | .ternary => e - 1
  | _ => e - 8

/-- The largest exponent among the finite non-zero operands of a group (R122). -/
def maxExp (vs : List Val) : Option Int :=
  vs.foldl (fun m v =>
    match v with
    | .fin _ s q => if s = 0 then m else (match m with | none => some q | some x => some (max x q))
    | _ => m) none

/-- One side of an alignment group as integers and their unit; none where nothing aligns (R117, R122, R123). -/
def alignSide (f : OpFmt) (e : Int) (vs : List Val) : Option (List Int × Int) :=
  match f with
  | .flt _ g =>
    match maxExp vs with
    | none => none
    | some q => some (vs.map (fun v =>
        match v with
        | .fin n s x => let a := rneShift s ((g : Int) - (q - x)); if n then -(a : Int) else a
        | _ => 0), q - g)
  | _ => some (vs.map (fun v => match v with | .fin n s _ => if n then -(s : Int) else s | _ => 0), unitOf f e)

/-- The converted group sum of one alignment group (R116, R122). -/
def groupSum (fa fw : OpFmt) (ea ew : Int) (a w : List Val) : Nat :=
  match alignSide fa ea a, alignSide fw ew w with
  | some x, some y => packFtz (intVal ((x.1.zip y.1).foldl (fun (z : Int) p => z + p.1 * p.2) 0) (x.2 + y.2))
  | _, _ => 0

/-- Adjacent pairs added (R118). -/
def pairUp (add : Nat → Nat → Nat) (l : List Nat) : List Nat :=
  match l with
  | a :: b :: r => add a b :: pairUp add r
  | l => l

/-- A tree over a list whose length is a power of two (R118). -/
def treeOf (add : Nat → Nat → Nat) (fuel : Nat) (l : List Nat) : Nat :=
  match fuel with
  | 0 => l.headD 0
  | n + 1 => match l with | [x] => x | l => treeOf add n (pairUp add l)

/-- A list cut into groups of n. -/
def groupsOf {α : Type} (fuel n : Nat) (l : List α) : List (List α) :=
  match fuel with
  | 0 => []
  | k + 1 => if l.isEmpty then [] else l.take n :: groupsOf k n (l.drop n)

/-- An operand as an open arithmetic sees it: sign, significand, unit; a non-finite one as significand 0. -/
def operandCode (v : Val) : Bool × Nat × Int := match v with | .fin n m q => (n, m, q) | _ => (false, 0, 0)

/-- The tree result of a K chunk of at most 1024 rows (R115-R118, R125): groups of 16 rows, or of one in reference mode. A chunk with one
steep side, in a word that is not steep, has a free result (notes/assumptions/154). -/
def chunkResult (fa fw : OpFmt) (ea ew : Int) (reference : Bool) (a w : List Val) : Nat :=
  if decide (fa = .steep) != decide (fw = .steep) then (Config.mixedChunk ea ew (a.map operandCode) (w.map operandCode)).toNat
  else
  let n := if reference then 1 else 16
  let total := if reference then 1024 else 64
  let sums := ((groupsOf 1024 n a).zip (groupsOf 1024 n w)).map (fun p => groupSum fa fw ea ew p.1 p.2)
  treeOf faddAcc 11 (sums ++ List.replicate (total - sums.length) 0)

/-- The coincidence count of one product of a steep chunk over L positions (R188, R190). -/
def coincidences (key : Quad) (pa ta pb tb step len k p q : Nat) : Nat :=
  ((List.range len).filter (fun t => decide (streamByte key pa ta step k t < p) && decide (streamByte key pb tb step k t < q))).length

/-- The result of a steep K chunk that begins at K index k0 (R190). -/
def steepChunk (key : Quad) (pa ta pb tb step len k0 : Nat) (unit : Int) (a w : List Val) : Nat :=
  let s := ((a.zip w).zipIdx).foldl (fun (z : Int) p =>
    match p.1 with
    | (.fin n x _, .fin m y _) =>
      let c : Int := coincidences key pa ta pb tb step len (k0 + p.2) x y
      if n = m then z + c else z - c
    | _ => z) 0
  match vratio s.natAbs len with
  | .fin _ m q => packFtz (.fin (decide (s < 0)) m (q + unit))
  | v => packFtz v

/-- Whether a format is an integer format for R86. -/
def isIntFmt (f : OpFmt) : Bool := match f with | .flt _ _ => false | _ => true

/-- The result that R85 and R86 demand for an output with a non-finite operand; none where the finite computation stands. -/
def nonfiniteResult (fa fw : OpFmt) (a w : List Val) : Option Nat :=
  if a.all Val.finite && w.all Val.finite then none
  else if (isIntFmt fa && !a.all Val.finite) || (isIntFmt fw && !w.all Val.finite) then some fp32.nanBits
  else
    let ps := (a.zip w).map (fun p => vmul p.1 p.2)
    if ps.any (· == .nan) || (ps.any (· == .inf false) && ps.any (· == .inf true)) then some fp32.nanBits
    else if ps.any (· == .inf false) then some fp32.infBits
    else if ps.any (· == .inf true) then some (fp32.signBit + fp32.infBits)
    else none

/-- The place of an FP32 value on the ordered line (R213). -/
def ordOf (w : Nat) : Int := if bit w 31 then -(bits w 0 31 : Int) else w

/-- The bin a pair of results falls into; 16 for NF_MISMATCH (R213). A NaN beside an infinity has the distance of their encodings. -/
def ulpBin (x y : Nat) : Nat :=
  let v := val32 x
  let u := val32 y
  if v.finite = false ∧ v = u then 0
  else if v.finite ≠ u.finite ∨ (v.finite = false ∧ v ≠ .nan ∧ u ≠ .nan) then 16
  else
    let d := (ordOf x - ordOf y).natAbs
    if d = 0 then 0 else min (blen d) 15

end Sys2Proof.Machine
end

