-- ==== Sys2Proof/Machine/RegMap.lean ====
section
/-! DEFINITION. The register map as data: block types (R46), the page directory (R39-R42), and for every register its
fields with access code, legal values, Reset value and reset kinds (R16-R18, the register tables of every chapter). -/

namespace Sys2Proof.Machine

/-- The ordering codes of R6. -/
inductive OrderCode where
  | m12x4 | m14x2 | m10x6
  deriving DecidableEq, Repr

/-- The silicon steppings of R4. -/
inductive Stepping where
  | a0 | a1 | b0
  deriving DecidableEq, Repr

/-- Block types of R46. -/
inductive BlockType where
  | galleryControl | arrayBays | movers | censusKettle
  | cdieControl | nocMesh | bridge | hbm | railMonitor
  | xdieControl | port | transport | collective | checkValue | memoryScan | partitionRoot
  | mailbox | boot | flash | power | dump | testMux | vectorTable
  deriving DecidableEq, Repr

/-- The TYPE code of R46. -/
def typeCode (t : BlockType) : Nat :=
  match t with
  | .galleryControl => 0x0001 | .arrayBays => 0x0002 | .movers => 0x0003 | .censusKettle => 0x0004
  | .cdieControl => 0x0010 | .nocMesh => 0x0011 | .bridge => 0x0012 | .hbm => 0x0013 | .railMonitor => 0x0014
  | .xdieControl => 0x0020 | .port => 0x0021 | .transport => 0x0022 | .collective => 0x0023 | .checkValue => 0x0024
  | .memoryScan => 0x0025 | .partitionRoot => 0x0026 | .mailbox => 0x0027 | .boot => 0x0028 | .flash => 0x0029
  | .power => 0x002A | .dump => 0x002B | .testMux => 0x002C | .vectorTable => 0x002D

/-- A set of the reset kinds of R17. -/
structure Kinds where
  p : Bool
  m : Bool
  t : Bool
  g : Bool
  l : Bool
  deriving DecidableEq, Repr

/-- No reset restores the field (the Reset column's "Fixed", and values lost only with VAUX). -/
def kNone : Kinds := ⟨false, false, false, false, false⟩
/-- P. -/
def kP : Kinds := ⟨true, false, false, false, false⟩
/-- P M. -/
def kPM : Kinds := ⟨true, true, false, false, false⟩
/-- P M T. -/
def kPMT : Kinds := ⟨true, true, true, false, false⟩
/-- P M T G. -/
def kPMTG : Kinds := ⟨true, true, true, true, false⟩
/-- P M G. -/
def kPMG : Kinds := ⟨true, true, false, true, false⟩
/-- P M L. -/
def kPML : Kinds := ⟨true, true, false, false, true⟩

/-- One kind of reset (R17). -/
inductive ResetKind where
  | p | m | t | g | l
  deriving DecidableEq, Repr

/-- Whether a set holds a kind. -/
def Kinds.has (k : Kinds) (r : ResetKind) : Bool :=
  match r with
  | .p => k.p | .m => k.m | .t => k.t | .g => k.g | .l => k.l

/-- Access codes of R16. `w1sHeld` is a W1S bit that keeps reading 1 (its row says so). -/
inductive Access where
  | rw | ro | w1c | w1s | w1sHeld | wo | so
  deriving DecidableEq, Repr

/-- The values a field's Meaning admits (R18: every other value is a reserved encoding). -/
inductive Legal where
  | any
  | range (lo hi : Nat)
  | oneOf (l : List Nat)
  | lowZero (k : Nat)
  deriving DecidableEq, Repr

/-- Whether a value is not a reserved encoding. -/
def Legal.ok (l : Legal) (v : Nat) : Bool :=
  match l with
  | .any => true
  | .range lo hi => decide (lo ≤ v) && decide (v ≤ hi)
  | .oneOf l => l.contains v
  | .lowZero k => v % 2 ^ k == 0

/-- One field of a register. `curator`: the manual reserves writing it to the Curator. -/
structure Field where
  lo : Nat
  width : Nat
  acc : Access
  reset : Nat
  kinds : Kinds
  legal : Legal := .any
  curator : Bool := false
  deriving DecidableEq, Repr

/-- What the directory says of one page: the block, its number within its kind, the die it sits on (X-dies by X-die
number), and the page's reset kinds (R39, R40). -/
structure PageInfo where
  type : BlockType
  num : Nat
  xdie : Nat
  kinds : Kinds
  spare : Bool
  deriving DecidableEq, Repr

/-- A read-only field. -/
def fRO (lo w reset : Nat) (k : Kinds) : Field := ⟨lo, w, .ro, reset, k, .any, false⟩
/-- A read-write field. -/
def fRW (lo w reset : Nat) (k : Kinds) (l : Legal := .any) : Field := ⟨lo, w, .rw, reset, k, l, false⟩
/-- A stop-only field. -/
def fSO (lo w reset : Nat) (k : Kinds) (l : Legal := .any) : Field := ⟨lo, w, .so, reset, k, l, false⟩
/-- A write-1-to-set request that reads 0. -/
def fW1S (lo : Nat) (k : Kinds) : Field := ⟨lo, 1, .w1s, 0, k, .any, false⟩
/-- A write-1-to-clear bit. -/
def fW1C (lo : Nat) (k : Kinds) : Field := ⟨lo, 1, .w1c, 0, k, .any, false⟩
/-- A write-only field. -/
def fWO (lo w : Nat) (k : Kinds) : Field := ⟨lo, w, .wo, 0, k, .any, false⟩
/-- The same field, reserved to the Curator. -/
def Field.forCurator (f : Field) : Field := { f with curator := true }

/-- The block-event bits of EVT_RAW and EVT_EN that a block's chapter defines (R50, R152, R226, R262, R263, R264, R265,
R294, R331, R297, R370, R371, R372, R403, R432, R467, R469, R494, R495, R517, R543, R76). -/
def eventBits (i : PageInfo) : List Nat :=
  match i.type with
  | .galleryControl => [8, 9, 10, 11, 12, 13, 16, 17, 18, 19, 20]
  | .arrayBays => [8, 9, 10, 11, 12, 13, 14, 15]
  | .movers => [8, 9, 10, 11, 12, 13]
  | .censusKettle => [8, 9, 10, 11]
  | .cdieControl => []
  | .nocMesh => [8]
  | .bridge => [8, 9]
  | .hbm => [8, 9, 10, 11]
  | .railMonitor => [8, 9, 10, 11]
  | .xdieControl => [8, 9]
  | .port => [8, 9, 10, 11]
  | .transport => [8, 9, 10, 11, 12]
  | .collective => [8, 9, 10, 11]
  | .checkValue => (List.range 16).map (· + 8)
  | .memoryScan => if i.xdie = 0 then [8, 9, 10, 11] else [8, 9, 11]
  | .partitionRoot => [8]
  | .mailbox => [8, 9, 10, 11]
  | .boot => []
  | .flash => [8, 9, 10, 11, 12, 13]
  | .power => [8, 9, 10]
  | .dump => [8, 9, 10]
  | .testMux => []
  | .vectorTable => if i.num = 0 ∧ i.xdie = 0 then [8] else []

/-- Header fields of a page, with the page's kinds (R44-R55). -/
def headerFields (i : PageInfo) (off : Nat) : Option (List Field) :=
  let k := i.kinds
  match off with
  | 0x000 => some [fRO 0 16 0 kNone, fRO 16 16 0 kNone, fRO 32 3 0 kNone, fRO 35 9 0 kNone]
  | 0x008 => some [fRO 0 8 0 kNone, fRO 8 8 0 kNone, fRO 16 8 0 kNone]
  | 0x010 => some ([fRW 0 1 0 k, fW1S 1 k] ++ (if i.type = .galleryControl then [fRW 4 2 0 k (.range 0 2)] else []))
  | 0x018 => some [fRO 0 3 0 k, fRO 3 1 0 k, fRO 8 4 0 k, fRO 12 2 0 k, fRO 32 32 0 kPM]
  | 0x020 => some (([0, 1, 2, 3] ++ eventBits i).map (fun b => fW1C b k))
  | 0x028 => some (([0, 1, 2, 3] ++ eventBits i).map (fun b => fRW b 1 0 k))
  | 0x030 => some [fRW 0 12 0 kPM]
  | 0x038 => some [fRO 0 8 0 k, fRO 8 6 0 k, fRO 14 1 0 k, fRO 15 1 0 k, fW1C 16 k, fRO 32 32 0 k]
  | 0x040 => some [fRO 0 63 0 k, fRO 63 1 0 k]
  | 0x048 => some [(fSO 0 32 0 kPM).forCurator]
  | 0x050 => some [(fSO 0 6 0 kPM).forCurator, (fSO 7 1 0 kPM).forCurator]
  | _ => none

/-- Gallery control page (R330, R542). -/
def galleryControlFields (off : Nat) : Option (List Field) :=
  if off = 0x100 then some [fSO 0 2 0 kPMTG (.range 0 1), fSO 2 2 1 kPMTG]
  else if off = 0x108 then some [fRO 0 32 0 kPMT, fRO 32 1 1 kPMTG]
  else if off = 0x110 then some [fRW 0 48 0 kPMT (.lowZero 4), fRW 48 16 0 kPMT]
  else if off = 0x118 then some [fSO 0 48 0 kPMT (.lowZero 4), fRO 48 16 0 kPMT]
  else if off = 0x120 then some [fRW 0 32 0 kPMT]
  else if off = 0x128 then some [fRO 0 32 0 kPMTG, fRO 32 31 0 kPMT, fRO 63 1 0 kPMTG]
  else if 0x200 ≤ off ∧ off < 0x300 then
    match off % 0x40 with
    | 0x00 => some [fSO 0 48 0 kPMT (.lowZero 7), fSO 48 5 4 kPMT (.range 4 16), fSO 53 1 0 kPMT, fSO 54 5 4 kPMT (.range 4 16)]
    | 0x08 => some [fSO 0 48 0 kPMT (.lowZero 5)]
    | 0x10 => some [fRW 0 32 0 kPMT]
    | 0x18 => some [fRO 0 32 0 kPMT, fRO 32 32 0 kPMT]
    | 0x20 => some [fRO 0 2 0 kPMT, fRO 8 8 0 kPMT, fRO 32 32 0 kPMT]
    | 0x28 => some [fW1S 0 kPMTG, fW1S 1 kPMTG]
    | 0x30 => some [fRW 0 12 0 kPMT]
    | _ => none
  else if 0x600 ≤ off ∧ off < 0x700 then
    match off % 0x40 with
    | 0x00 => some [fRW 0 40 0 kPMTG, fRW 40 1 0 kPMTG, fRW 41 2 0 kPMTG (.range 0 2), fRW 43 1 0 kPMTG]
    | 0x08 => some [fRW 0 32 0 kPMTG]
    | 0x10 => some [fRW 0 48 0 kPMTG (.lowZero 5)]
    | 0x18 => some [fRW 0 48 0 kPMTG]
    | 0x20 => some [fRO 0 48 0 kPMTG, fRO 48 2 0 kPMTG, fRO 50 1 0 kPMTG]
    | _ => none
  else none

/-- Array page (R148-R151). -/
def arrayFields (off : Nat) : Option (List Field) :=
  if off = 0x100 then some [fSO 0 2 0 kPMTG (.range 0 2), fSO 2 1 0 kPMTG, fSO 3 1 1 kPMTG]
  else if off = 0x108 then
    some ((List.range 4).map (fun b => fRO (2 * b) 2 0 kPMTG) ++ (List.range 4).map (fun b => fRO (8 + b) 1 0 kPMTG)
      ++ (List.range 4).map (fun b => fRO (12 + b) 1 0 kPMTG))
  else if off = 0x110 then some [fW1S 0 kPMTG, fW1S 1 kPMTG, fW1S 2 kPMTG, fW1S 3 kPMTG]
  else if off = 0x118 ∨ off = 0x120 ∨ off = 0x128 ∨ off = 0x130 then
    some [fRO 0 4 0 kPMTG, fRO 4 1 0 kPMTG, fRO 5 12 0 kPMTG, fRO 17 10 0 kPMTG, fRO 27 1 0 kPMTG]
  else if off = 0x138 ∨ off = 0x140 ∨ off = 0x148 ∨ off = 0x150 then some [fRO 0 40 0 kPMTG]
  else none

/-- Movers page (R261). -/
def moversFields (off : Nat) : Option (List Field) :=
  if off = 0x100 then some [fSO 0 1 1 kPMTG, fSO 1 1 1 kPMTG, fSO 8 8 0 kPMTG]
  else if off = 0x108 ∨ off = 0x110 then some [fRO 0 2 0 kPMTG, fRO 2 1 0 kPMTG, fRO 3 6 0 kPMTG, fRO 16 48 0 kPMTG]
  else if off = 0x118 ∨ off = 0x120 then some [fW1S 0 kPMTG, fW1S 1 kPMTG]
  else if off = 0x128 ∨ off = 0x130 then
    some [fRO 0 4 0 kPMTG, fRO 4 1 0 kPMTG, fRO 5 1 0 kPMTG, fRO 6 1 0 kPMTG, fRO 16 48 0 kPMTG]
  else if 0x200 ≤ off ∧ off < 0x400 then
    some [fSO 0 16 0 kPMTG (.range 0 49151), fSO 16 16 0 kPMTG (.range 0 49152), fSO 32 4 0 kPMTG (.range 0 12),
      fSO 36 3 0 kPMTG, fSO 39 1 0 kPMTG, fSO 40 4 0 kPMTG]
  else if 0x400 ≤ off ∧ off < 0x600 then some [fRO 0 16 0 kPMTG, fRO 16 16 0 kPMTG, fRO 32 16 0 kPMTG, fRO 48 16 0 kPMTG]
  else if off = 0x600 ∨ off = 0x608 ∨ off = 0x610 ∨ off = 0x620 ∨ off = 0x628 ∨ off = 0x630 then
    some [fRO 0 32 0 kPMTG, fRO 32 32 0 kPMTG]
  else if off = 0x618 ∨ off = 0x638 then some [fRO 0 48 0 kPMTG]
  else none

/-- Census and Kettle page (R222-R225). -/
def censusFields (off : Nat) : Option (List Field) :=
  match off with
  | 0x100 => some [fSO 0 1 0 kPMTG, fSO 1 1 0 kPMTG, fSO 2 1 0 kPMTG, (fSO 3 1 0 kPMTG).forCurator, fSO 4 4 0xA kPMTG, fSO 8 4 0 kPMTG,
      fSO 12 8 8 kPMTG, fSO 20 4 4 kPMTG (.range 1 15)]
  | 0x108 => some [fSO 0 48 0 kPMTG (.lowZero 8), fSO 48 16 0 kPMTG]
  | 0x110 => some [fSO 0 48 0 kPMTG (.lowZero 3)]
  | 0x118 => some [fSO 0 48 0 kPMTG (.lowZero 5), fSO 48 5 4 kPMTG (.range 4 16)]
  | 0x120 => some [fRO 0 32 0 kPMTG]
  | 0x128 => some [fRW 0 16 0x0042 kPMTG, fRW 16 16 0x8000 kPMTG, fRW 32 16 0x0290 kPMTG]
  | 0x130 => some [fRW 0 16 0x0000 kPMTG, fRW 16 16 0x1000 kPMTG, fRW 32 16 0x0042 kPMTG]
  | 0x138 => some [fRW 0 64 0 kPMTG]
  | 0x140 => some [fRW 0 64 0 kPMTG]
  | 0x148 => some [fRO 0 32 0 kPMTG, fRO 32 1 0 kPMTG, fRO 33 1 0 kPMTG]
  | _ => none

/-- C-die control page (R153): only the Curator writes it. -/
def cdieFields (off : Nat) : Option (List Field) :=
  match off with
  | 0x100 => some ((List.range 4).flatMap (fun s => [(fSO (8 * s) 6 0 kPM).forCurator, (fSO (8 * s + 7) 1 0 kPM).forCurator]))
  | 0x108 => some [fRO 0 64 0 kPM]
  | 0x110 => some [fRO 0 4 0 kPM]
  | 0x118 => some [fRO 0 64 0 kNone]
  | 0x120 => some [fRO 0 4 0 kNone]
  | _ => none

/-- HBM controller page (R263). -/
def hbmFields (off : Nat) : Option (List Field) :=
  match off with
  | 0x100 => some [fSO 0 5 12 kPM, fSO 8 5 5 kPM, fSO 16 5 3 kPM]
  | 0x108 => some [fSO 0 8 8 kPM (.range 1 255), fSO 8 1 1 kPM, (fSO 9 1 1 kPM).forCurator]
  | 0x110 => some [fRO 0 32 0 kP, fRO 32 32 0 kPM]
  | 0x118 => some [(fRW 0 5 0 kPM).forCurator, (fW1S 8 kPM).forCurator]
  | 0x120 => some [fRO 0 16 0 kP, fRO 32 32 0 kP]
  | _ => none

/-- NoC mesh page (R264). -/
def nocFields (off : Nat) : Option (List Field) :=
  match off with
  | 0x100 => some [fSO 0 4 4 kPM (.range 1 15)]
  | 0x108 => some [fRO 0 16 0 kPM]
  | _ => none

/-- Bridge page (R265). -/
def bridgeFields (off : Nat) : Option (List Field) :=
  match off with
  | 0x100 => some ((List.range 6).map (fun j => fRO (2 * j) 2 0 kPM))
  | 0x108 => some ((List.range 6).map (fun j => fRO (4 * j) 4 4 kPM))
  | _ => none

/-- Rail monitor page (R494); on X-dies WARN_DUTY and the ISL registers are reserved. -/
def railFields (onX : Bool) (off : Nat) : Option (List Field) :=
  match off with
  | 0x100 => some [fRO 0 10 0 kPM, fRO 10 1 0 kPM, fRO 11 1 0 kPM, fRO 12 8 0 kPM, fRO 20 5 16 kPM]
  | 0x108 => some [fRO 0 10 1023 kPM, fRO 16 8 0 kPM, fW1S 63 kPM]
  | 0x110 => some [fRO 0 32 0 kPM, fRO 32 32 0 kPM]
  | 0x118 => some ((if onX then [] else [fRW 0 5 8 kPM (.range 1 16)]) ++
      [fRW 8 8 0 kPM (.oneOf (0 :: (List.range 15).map (· + 10))), fRW 16 8 90 kPM (.range 60 110)])
  | 0x120 => if onX then none else some [fRW 0 7 0 kPM (.range 0 67)]
  | 0x128 => if onX then none else some [fRO 0 16 0 kPM, fRO 16 1 0 kPM]
  | _ => none

/-- X-die control page (R370): the ring registers exist on X-die 0 only; the Curator writes IP4, IP6 and the rings. -/
def xdieFields (x off : Nat) : Option (List Field) :=
  match off with
  | 0x100 => some [fSO 0 16 0x5A5A kPM]
  | 0x108 => some [fSO 0 6 48 kPM, fSO 8 6 34 kPM, fSO 16 6 18 kPM, fSO 24 6 8 kPM]
  | 0x110 => some [fSO 0 8 4 kPM (.range 1 255), fSO 8 8 2 kPM (.range 1 255), fSO 16 8 1 kPM (.range 1 255)]
  | 0x118 => some [(fSO 0 32 0 kPM).forCurator, (fSO 32 1 0 kPM).forCurator]
  | 0x120 => some [(fSO 0 64 0 kPM).forCurator]
  | 0x128 => some [(fSO 0 64 0 kPM).forCurator]
  | 0x130 => if x = 0 then
      some [(fRW 0 1 0 kPM).forCurator, (fRW 1 1 0 kPM).forCurator, (fSO 8 8 50 kPM (.range 1 255)).forCurator] else none
  | 0x138 => if x = 0 then some [fRO 0 2 0 kPM, fRO 2 2 0 kPM, fRO 8 4 0 kPM, fRO 12 4 0 kPM] else none
  | _ => none

/-- Port page (R371). -/
def portFields (off : Nat) : Option (List Field) :=
  match off with
  | 0x100 => some [fSO 0 2 0 kPML (.range 0 2), fSO 2 1 1 kPML, fSO 3 1 1 kPML, fSO 4 1 1 kPML, fSO 5 1 0 kPML]
  | 0x108 => some [fRO 0 48 0 kNone]
  | 0x110 => some [(fSO 0 48 0 kPML).forCurator]
  | 0x118 => some [fSO 0 12 0 kPML, fSO 12 1 0 kPML]
  | 0x120 => some [fRO 0 1 0 kPML, fRO 1 2 0 kPML, fRO 3 4 0 kPML, fRO 7 1 0 kPM]
  | _ => none

/-- Transport engine page (R372). -/
def transportFields (off : Nat) : Option (List Field) :=
  if off = 0x100 then some [fSO 0 16 50 kPM (.range 1 65535), fSO 16 16 100 kPM (.range 1 65535), fSO 32 8 12 kPM (.range 1 255)]
  else if off = 0x108 then some [fSO 0 16 10 kPM, fSO 16 16 64 kPM (.range 8 65535), fSO 32 16 16384 kPM,
    fSO 48 12 4095 kPM (.range 1 4095), fSO 60 4 13 kPM]
  else if off = 0x110 then some [fSO 0 16 10000 kPM, fSO 16 16 1000 kPM, fRO 32 13 0 kPM]
  else if 0x400 ≤ off ∧ off < 0x600 then some [fRW 0 48 0 kPM (.lowZero 3), fRW 48 13 0 kPM (.range 0 4096), fSO 61 1 0 kPM]
  else none

/-- Collective engine page (R402). -/
def collectiveFields (off : Nat) : Option (List Field) :=
  if off = 0x100 then some [fSO 0 8 248 kPM (.range 1 248)]
  else if off = 0x108 then some [fRO 0 16 0 kPM, fRO 16 6 0 kPM, fRO 24 3 0 kPM, fRO 32 32 0 kPM]
  else if 0x200 ≤ off ∧ off < 0x800 then
    match (off - 0x200) % 24 with
    | 0 => some [fRW 0 48 0 kPM (.lowZero 7), fRW 48 16 0 kPM]
    | 8 => some [fRW 0 48 0 kPM (.lowZero 4), fRW 48 8 0 kPM, fRW 56 8 0 kPM]
    | 16 => some [fRW 0 48 0 kPM (.lowZero 6), fRW 48 16 0 kPM]
    | _ => none
  else none

/-- Check-value page (R466). -/
def checkValueFields (off : Nat) : Option (List Field) :=
  if 0x100 ≤ off ∧ off < 0x300 then
    match off % 0x40 with
    | 0x00 => some [fRW 0 1 0 kPM, fRW 1 1 0 kPM, fRW 2 1 0 kPM, fRO 3 1 0 kPM, fRW 4 6 0 kPM]
    | 0x08 => some [fRW 0 48 0 kPM]
    | 0x10 => some [fRW 0 48 0 kPM]
    | 0x18 => some [fRW 0 64 0 kPM]
    | 0x20 => some [fRW 0 64 0 kPM]
    | 0x28 => some [fW1S 0 kPM, fW1S 1 kPM]
    | 0x30 => some [fRO 0 2 0 kPM, fRO 2 1 0 kPM, fRO 3 1 0 kPM, fRO 16 48 0 kPM]
    | _ => none
  else none

/-- Scan, scrub and limiter page (R468): the SCRUB registers exist on X-die 0 only; the Curator writes EGL_CFG. -/
def scanFields (x off : Nat) : Option (List Field) :=
  match off with
  | 0x100 => some [fRW 0 48 0 kPM (.lowZero 5)]
  | 0x108 => some [fRW 0 48 0 kPM (.lowZero 5)]
  | 0x110 => some [fRW 0 1 0 kPM, fRW 1 1 0 kPM, fRW 2 3 0 kPM, fRW 5 1 0 kPM, fRW 6 1 1 kPM]
  | 0x118 => some [fW1S 0 kPM, fW1S 1 kPM]
  | 0x120 => some [fRO 0 2 0 kPM, fRO 16 48 0 kPM]
  | 0x128 => some [fRO 0 32 0 kPM, fRO 32 32 0 kPM]
  | 0x130 => some [fRO 0 48 0 kPM, fW1C 63 kPM]
  | 0x138 => if x = 0 then some [fRW 0 8 24 kPM, fRW 8 1 1 kPM] else none
  | 0x140 => if x = 0 then some [fRO 0 32 0 kPM, fRO 32 32 0 kPM] else none
  | 0x148 => if x = 0 then some [fRO 0 48 0 kPM, fW1C 63 kPM] else none
  | 0x150 => some [(fRW 0 9 256 kPM (.range 1 256)).forCurator, (fRW 16 16 1000 kPM (.range 1 65535)).forCurator,
      ⟨32, 1, .w1sHeld, 0, kPM, .any, true⟩]
  | _ => none

/-- Partition root page (R297). -/
def partitionRootFields (off : Nat) : Option (List Field) :=
  if 0x100 ≤ off ∧ off < 0x700 then
    match (off - 0x100) % 24 with
    | 0 => some [fRO 0 3 0 kPM, fRO 3 1 0 kPM, fRO 8 9 0 kPM, fRO 32 32 0 kPM]
    | 8 => some [fRO 0 20 0 kPM, fRO 32 23 0 kPM]
    | 16 => some [fRO 0 19 0 kPM, fRO 20 4 0 kPM, fRO 32 32 0 kPM]
    | _ => none
  else if off = 0x700 then some [fRW 0 4 0 kPM, fRW 4 6 0 kPM, fW1S 16 kPM, fRO 17 1 0 kPM, fRO 20 4 0 kPM]
  else if off = 0x708 ∨ off = 0x710 ∨ off = 0x718 ∨ off = 0x720 then some [fRW 0 64 0 kPM]
  else if off = 0x728 then some [fRW 0 20 0 kPM, fRW 20 23 0 kPM, fRW 43 1 0 kPM]
  else if off = 0x730 then some [fRW 0 19 0 kPM, fRW 20 4 0 kPM]
  else none

/-- Curator mailbox page (R517). -/
def mailboxFields (off : Nat) : Option (List Field) :=
  match off with
  | 0x100 => some [fRO 0 2 3 kPM, fRO 2 1 0 kPM]
  | 0x108 => some [fW1S 0 kPM, fRO 16 7 100 kPM]
  | 0x110 => some [fRO 0 2 0 kPM, fRO 16 16 0 kPM, fRO 32 32 0 kPM]
  | 0x118 => some [fRO 0 32 0 kPM, fRO 32 32 0 kPM]
  | _ => none

/-- Boot and identity page (R518). -/
def bootFields (off : Nat) : Option (List Field) :=
  if off = 0x100 then some [fRO 0 1 0 kPM, fRO 1 1 0 kPM]
  else if off = 0x108 then some [fRO 0 16 0 kPM, fRO 16 16 0 kPM, fRO 32 32 0 kPM]
  else if off = 0x110 then some [fRO 0 7 0 kNone, fW1S 7 kPM]
  else if off = 0x118 then some [fRO 0 4 0 kNone, fRO 4 4 0 kNone, fW1S 8 kPM, fW1S 9 kPM, fW1S 10 kPM, fW1S 11 kPM]
  else if off = 0x120 then some [fRO 0 8 0 kPM]
  else if 0x140 ≤ off ∧ off < 0x200 then some [fRO 0 64 0 kPM]
  else if 0x200 ≤ off ∧ off < 0x238 then some [fRO 0 64 0 kNone]
  else if off = 0x238 then some [fRO 0 8 0 kNone]
  else none

/-- Module-flash controller page (R431). -/
def flashFields (off : Nat) : Option (List Field) :=
  if off = 0x100 then some [fRO 0 1 0 kPM, fRO 1 1 0 kPM, fRO 32 32 0 kP]
  else if 0x200 ≤ off ∧ off < 0x800 then
    match (off - 0x200) % 24 with
    | 0 => some [fRW 0 48 0 kPM (.lowZero 6), fRW 48 1 0 kPM, fRW 49 1 0 kPM]
    | 8 => some [fRO 0 32 0 kPM, fRO 32 1 0 kPM, fRO 33 1 0 kPM, fRO 34 1 0 kPM, fRO 35 1 0 kPM, fRO 36 1 0 kPM, fRO 37 1 0 kPM,
        fRO 38 1 0 kPM]
    | 16 => some [fRW 0 4 0 kPM (.range 1 7), fW1S 4 kPM, fRO 5 1 0 kPM, fRW 6 1 0 kPM, fRO 8 4 0 kPM, fRW 16 16 0 kPM, fRW 32 32 0 kPM]
    | _ => none
  else none

/-- Power, thermal and sideband page (R495): the Curator writes it. -/
def powerFields (off : Nat) : Option (List Field) :=
  match off with
  | 0x100 => some [fRO 0 1 0 kP, fRO 1 1 0 kP, fRO 2 1 0 kP, fRO 8 8 0 kP, fRO 16 16 0 kP, fRO 32 16 0 kP]
  | 0x108 => some [fRO 0 4 0 kNone, fRO 4 8 0 kNone]
  | 0x110 => some [fRW 0 1 0 kP, fRO 1 1 0 kP, fRW 8 8 100 kP (.range 1 255)]
  | 0x118 => some [fRW 0 3 0 kP (.range 0 3), fRW 8 8 0 kP, fW1S 16 kP, fRO 17 1 0 kP]
  | 0x120 => some [fRO 0 8 0 kP, fRO 8 8 0 kP]
  | 0x128 => some [fRW 0 6 0x3F kP]
  | 0x130 => some ((List.range 6).map (fun b => fW1C b kP))
  | _ => none

/-- Ledger dump engine page (R543). -/
def dumpFields (off : Nat) : Option (List Field) :=
  if off = 0x100 then some [(fRW 0 64 0 kPM).forCurator]
  else if off = 0x108 then some [fRO 0 64 0 kPM]
  else if 0x200 ≤ off ∧ off < 0x400 then
    match off % 0x20 with
    | 0x00 => some [fRW 0 1 0 kPM, fRW 1 1 0 kPM, fRW 2 1 0 kPM, fRW 3 6 0 kPM, fRW 12 20 1000 kPM (.range 10 1000000)]
    | 0x08 => some [fRW 0 48 0 kPM (.lowZero 6), fRW 48 6 16 kPM (.range 16 40)]
    | 0x10 => some [fRW 0 48 0 kPM (.lowZero 3), fRW 48 8 1 kPM (.range 1 255)]
    | 0x18 => some [fRO 0 32 0 kPM, fRO 32 32 0 kPM]
    | _ => none
  else if 0x400 ≤ off ∧ off < 0x800 then
    if off % 0x10 = 0 then some [fRW 0 1 0 kPM, fRW 1 5 16 kPM (.range 1 31), fRO 32 32 0 kPM]
    else some [fRW 0 48 0 kPM (.lowZero 6), fRW 48 5 8 kPM (.range 8 24)]
  else none

/-- Test multiplexer page (R548). -/
def testMuxFields (off : Nat) : Option (List Field) :=
  if 0x100 ≤ off ∧ off < 0x180 then
    some [fRW 0 3 0 kP, fRW 3 9 0 kP, fRW 12 8 0 kP (.range 0 0xF8), fRW 20 1 0 kP, fRW 21 3 0 kP (.range 0 3)]
  else if off = 0x180 then some [fRW 0 4 0 kP, fRW 4 1 0 kP, fRW 5 1 0 kP]
  else if off = 0x188 then some [fRW 0 16 0 kP, fRW 16 16 0 kP, fRW 32 16 0 kP]
  else if off = 0x190 then some [fW1C 0 kP, fW1C 1 kP, fRO 2 1 0 kP]
  else if off = 0x198 then some [fRO 0 64 0 kP]
  else if off = 0x1A0 then some [fW1S 0 kP, fW1S 1 kP]
  else if 0x200 ≤ off ∧ off < 0x220 then some [fRO 0 64 0 kP]
  else if off = 0x220 then some [fW1S 0 kP, fW1S 1 kP, fRO 2 1 0 kP, fW1S 3 kP, fRO 4 1 0 kP]
  else if 0x228 ≤ off ∧ off < 0x228 + 8 * 22 then some [fWO 0 64 kP]
  else none

/-- Event-vector table page (R71-R73): OWNER and MODULE are the Curator's; VALID of vector 0 is read only. -/
def vectorFields (page off : Nat) : Option (List Field) :=
  if 0x100 ≤ off ∧ off < 0x500 then
    if off % 16 = 0 then
      some [fRW 0 16 0 kPM, fRW 16 8 0 kPM, fRW 24 16 0 kPM, (fSO 40 6 0 kPM).forCurator, (fSO 46 1 1 kPM).forCurator,
        fRW 47 1 0 kPM, (if page = 0 ∧ off = 0x100 then fRO 48 1 0 kPM else fRW 48 1 0 kPM)]
    else some [fRO 0 16 0 kPM, fW1C 16 kPM, fRO 32 32 0 kPM]
  else none

/-- LDG_INFO of a block type: COUNT, SETS, SET_FIRST, SET_SIZE, SCOPE (R521, R525, R528, R529). -/
def ledgerShape (t : BlockType) : Nat × Nat × Nat × Nat × Nat :=
  match t with
  | .galleryControl => (48, 1, 32, 8, 1)
  | .arrayBays => (48, 4, 16, 8, 1)
  | .movers => (56, 2, 40, 8, 1)
  | .censusKettle => (10, 0, 0, 0, 1)
  | .cdieControl => (4, 0, 0, 0, 0)
  | .nocMesh => (20, 0, 0, 0, 0)
  | .bridge => (12, 0, 0, 0, 0)
  | .hbm => (16, 0, 0, 0, 0)
  | .railMonitor => (4, 0, 0, 0, 0)
  | .xdieControl => (8, 0, 0, 0, 0)
  | .port => (99, 0, 0, 0, 0)
  | .transport => (70, 0, 0, 0, 0)
  | .collective => (16, 0, 0, 0, 0)
  | .checkValue => (24, 0, 0, 0, 1)
  | .memoryScan => (21, 0, 0, 0, 0)
  | .partitionRoot => (10, 0, 0, 0, 0)
  | .mailbox => (0, 0, 0, 0, 0)
  | .boot => (0, 0, 0, 0, 0)
  | .flash => (12, 0, 0, 0, 0)
  | .power => (4, 0, 0, 0, 0)
  | .dump => (4, 0, 0, 0, 0)
  | .testMux => (0, 0, 0, 0, 0)
  | .vectorTable => (0, 0, 0, 0, 0)

/-- The LDG_INFO word (R521). -/
def ledgerInfo (t : BlockType) : Nat :=
  match ledgerShape t with
  | (c, s, f, z, sc) => c + s * 2 ^ 8 + f * 2 ^ 16 + z * 2 ^ 24 + sc * 2 ^ 32

/-- The Ledger region of a page (R520-R523); the mailbox page holds its journal window there (R517). -/
def ledgerFields (i : PageInfo) (off : Nat) : Option (List Field) :=
  match ledgerShape i.type with
  | (c, s, _, _, _) =>
    if i.type = .mailbox then some [fRO 0 64 0 kPM]
    else if off = 0x800 then some [fRO 0 8 0 kNone, fRO 8 3 0 kNone, fRO 16 8 0 kNone, fRO 24 8 0 kNone, fRO 32 1 0 kNone]
    else if 0x810 ≤ off ∧ off < 0x810 + 8 * s then some [fRO 0 40 0 i.kinds, fRO 40 8 0 i.kinds]
    else if 0x840 ≤ off ∧ off < 0x840 + 8 * c then some [fRO 0 48 0 i.kinds, fW1C 63 i.kinds]
    else none

/-- The block registers of a page (R43: 0x100-0x7FF). -/
def blockFields (i : PageInfo) (off : Nat) : Option (List Field) :=
  match i.type with
  | .galleryControl => galleryControlFields off
  | .arrayBays => arrayFields off
  | .movers => moversFields off
  | .censusKettle => censusFields off
  | .cdieControl => cdieFields off
  | .nocMesh => nocFields off
  | .bridge => bridgeFields off
  | .hbm => hbmFields off
  | .railMonitor => railFields (decide (i.xdie < 6)) off
  | .xdieControl => xdieFields i.xdie off
  | .port => portFields off
  | .transport => transportFields off
  | .collective => collectiveFields off
  | .checkValue => checkValueFields off
  | .memoryScan => scanFields i.xdie off
  | .partitionRoot => partitionRootFields off
  | .mailbox => mailboxFields off
  | .boot => bootFields off
  | .flash => flashFields off
  | .power => powerFields off
  | .dump => dumpFields off
  | .testMux => testMuxFields off
  | .vectorTable => (vectorFields i.num off).map (fun l => if i.xdie = 0 then l else l.map (fun f => { f with acc := .ro }))

/-- Every register of a page by offset; none for a reserved offset (R43, R18). -/
def regFields (i : PageInfo) (off : Nat) : Option (List Field) :=
  if off < 0x100 then headerFields i off else if off < 0x800 then blockFields i off else ledgerFields i off

/-- The word a list of fields holds after reset. -/
def resetWord (fs : List Field) : Nat := fs.foldl (fun a f => setBits a f.lo f.width f.reset) 0

/-- The sites that hold X-dies (R21), X-die 0 first. -/
def xdieSites (c : OrderCode) : List Nat :=
  match c with
  | .m12x4 => [3, 7, 11, 15]
  | .m14x2 => [3, 7]
  | .m10x6 => [3, 7, 11, 15, 2, 10]

/-- How many X-dies the code fits (R6). -/
def xdieCount (c : OrderCode) : Nat := (xdieSites c).length

/-- The sites that hold HBM4 stacks, ascending: stack s is the s-th (R22). -/
def stackSites (c : OrderCode) : List Nat := (List.range 16).filter (fun s => !(xdieSites c).contains s)

/-- HBM4 stacks of the code (R6). -/
def stackCount (c : OrderCode) : Nat := (stackSites c).length

/-- The X-die that carries the module-flash controller (R6). -/
def flashXdie (c : OrderCode) : Nat :=
  match c with
  | .m12x4 => 3 | .m14x2 => 1 | .m10x6 => 3

/-- The number of a page in the whole space, die * 512 + page, on X-die x (R23). -/
def xPage (x p : Nat) : Nat := if x < 4 then (4 + x) * 512 + p else (2 + x) * 512 + 256 + p

/-- The number of a page of C-die c. -/
def cPage (c p : Nat) : Nat := c * 512 + p

/-- The control page of active gallery g; its array, movers and census pages follow (R39). -/
def galPage (g : Nat) : Nat := g / 64 * 512 + 4 * (g % 64)

/-- The control page of spare s of C-die c (R39). -/
def sparePage (c s : Nat) : Nat := c * 512 + 0x110 + 4 * s

/-- The block type of page k of a gallery. -/
def galType (k : Nat) : BlockType :=
  match k with
  | 0 => .galleryControl | 1 => .arrayBays | 2 => .movers | _ => .censusKettle

/-- A page of a C-die, the sparing map aside (R39, R41). -/
def cdiePage (code : OrderCode) (c p : Nat) : Option PageInfo :=
  if p < 0x100 then some ⟨galType (p % 4), 64 * c + p / 4, 6, kPMTG, false⟩
  else if p = 0x100 then some ⟨.cdieControl, 0, 6, kPM, false⟩
  else if p = 0x101 then some ⟨.nocMesh, 0, 6, kPM, false⟩
  else if p = 0x102 then some ⟨.bridge, 0, 6, kPM, false⟩
  else if p = 0x103 then some ⟨.railMonitor, 0, 6, kPM, false⟩
  else if 0x110 ≤ p ∧ p < 0x120 then some ⟨galType (p % 4), (p - 0x110) / 4, 6, kPMG, true⟩
  else if 0x120 ≤ p ∧ p < 0x124 then
    match (stackSites code).findIdx? (· == 4 * c + (p - 0x120)) with
    | some st => some ⟨.hbm, st, 6, kPM, false⟩
    | none => none
  else none

/-- A page of X-die x (R40, R42). -/
def xdiePage (code : OrderCode) (x p : Nat) : Option PageInfo :=
  if x < xdieCount code then
    if p = 0x00 then some ⟨.xdieControl, 0, x, kPM, false⟩
    else if p ≤ 0x08 then some ⟨.port, p - 1, x, kPML, false⟩
    else if p = 0x09 then some ⟨.transport, 0, x, kPM, false⟩
    else if p = 0x0A then some ⟨.collective, 0, x, kPM, false⟩
    else if p = 0x0B then some ⟨.checkValue, 0, x, kPM, false⟩
    else if p = 0x0C then some ⟨.memoryScan, 0, x, kPM, false⟩
    else if p = 0x0D then (if x = 0 then some ⟨.partitionRoot, 0, x, kPM, false⟩ else none)
    else if p = 0x0E then some ⟨.railMonitor, 0, x, kPM, false⟩
    else if p = 0x20 then (if x ≤ 1 then some ⟨.mailbox, 0, x, kPM, false⟩ else none)
    else if p = 0x21 then (if x ≤ 1 then some ⟨.boot, 0, x, kPM, false⟩ else none)
    else if p = 0x22 then (if x = flashXdie code then some ⟨.flash, 0, x, kPM, false⟩ else none)
    else if p = 0x23 then (if x = 0 then some ⟨.power, 0, x, kP, false⟩ else none)
    else if p = 0x24 then (if x = 0 then some ⟨.dump, 0, x, kPM, false⟩ else none)
    else if p = 0x25 then (if x = 0 then some ⟨.testMux, 0, x, kP, false⟩ else none)
    else if 0x40 ≤ p ∧ p < 0x80 then (if x ≤ 1 then some ⟨.vectorTable, p - 0x40, x, kPM, false⟩ else none)
    else none
  else none

/-- What a page number (die * 512 + page) carries, the sparing map aside (R23, R39-R42). -/
def pageInfo (code : OrderCode) (pg : Nat) : Option PageInfo :=
  let die := pg / 512
  let p := pg % 512
  if die < 4 then cdiePage code die p
  else if p < 256 then xdiePage code (die - 4) p
  else if die = 6 then (if code = .m10x6 then xdiePage code 4 (p - 256) else none)
  else if die = 7 then (if code = .m10x6 then xdiePage code 5 (p - 256) else none)
  else none

end Sys2Proof.Machine
end

