-- ==== Sys2Proof/Machine/State.lean ====
section
/-! DEFINITION. The state of the module as plain data: every register, memory, buffer, queue, mode and pin the spec gives
it, the queue of waiting commands, the reasons a step can stop, and the state right after reset. -/

namespace Sys2Proof.Machine

/-- Reasons a step stops with a fault. No meaning of this model uses one: the spec reports every error as a status, a
record or an event, and the machine goes on (R53, R60, R316). -/
inductive Fault where
  /-- Raised by nothing (safe). -/
  | none
  deriving DecidableEq, Repr

/-- Reasons a command is refused. -/
inductive Refusal where
  /-- An arm of `exec` that has no meaning yet (safe). -/
  | notModelled (mnemonic : String)
  /-- The command names an X-die or a stack that the ordering code does not fit (R7, R40); raised by commands whose
  operand can name one (safe: the unit does not exist, so nothing can act). -/
  | noSuchUnit
  deriving DecidableEq, Repr

/-- The header fields of a packet sent that neither its body nor its session index gives (R340): TYPE, FLAGS, TCLASS, the session
index at the receiver, LENGTH, PN, SEQ, ACK, SACK, EPOCH, MSG, TS and TS_ECHO. -/
structure ZHdr where
  type : Nat
  flags : Nat
  tclass : Nat
  session : Nat
  length : Nat
  pn : Nat
  seq : Nat
  ack : Nat
  sack : Nat
  epoch : Nat
  msg : Nat
  ts : Nat
  tsEcho : Nat
  deriving DecidableEq, Repr

/-- What leaves the module or one of its units: packets on sessions, answers to the Curator, frames and pin outputs. The
constructors from `regResp` to `scClose` are what a packet carries behind its header (R340, R342); `packet` is such a packet given to
its port. -/
inductive Out where
  /-- REG_RESP on a session: status and data of every operation (R355). -/
  | regResp (session : Half) (results : List (Nat × Word64))
  /-- The answer to the Curator's own operations (R56). -/
  | curatorResp (results : List (Nat × Word64))
  /-- An event message (R74, R75). -/
  | event (dest : Source) (vector count seq time source : Nat) (raw : Word64)
  /-- STATUS (R358). -/
  | status (session : Half) (msg : Word32) (code : Nat) (detail : Nat)
  /-- ACK fields sent (R351). -/
  | ack (session : Half) (ack : Word32) (sack : Word64) (ece : Bool)
  /-- Bulk packets (R357); `cls` is the traffic class (R339). -/
  | bulkWrite (session : Half) (epoch addr msgLen offset : Nat) (payload : List Byte) (cls : Nat)
  | bulkRead (session : Half) (epoch addr len rtag cls : Nat)
  | bulkRdata (session : Half) (epoch rtag offset : Nat) (payload : List Byte) (cls : Nat)
  /-- A collective segment: KIND, header, the eight payload bytes before the blocks, the rest (R388, R389). -/
  | seg (session : Half) (epoch kind : Nat) (hdr : SegHdr) (a b : Nat) (payload : List Byte)
  /-- Multicast stream bytes and control (R364, R366). -/
  | mcastSeg (session : Half) (epoch group offset : Nat) (payload : List Byte)
  | mcastCtrl (session : Half) (opcode offset : Nat)
  /-- Session control (R345). -/
  | scInit (session : Half) (payload : List Byte)
  | scAccept (session : Half) (iSession : Half) (payload : List Byte)
  | scConfirm (session : Half) (signature : List Byte)
  | scClose (session : Half) (cause : Nat)
  /-- A packet of a session given to its port: the header fields of R340 that its body does not give, and its body. -/
  | packet (port : PortId) (hdr : ZHdr) (body : Out)
  /-- A frame handed to the Curator (R338). -/
  | toCurator (port : PortId) (frame : RxFrame)
  /-- A frame that passed the egress limiter, with its bytes where it is a Zazel packet; `badFcs`: ended by rule 6 (R457). -/
  | frame (port : PortId) (frame : TxFrame) (bytes : List Byte) (badFcs : Bool)
  /-- An LLDPDU (R336). -/
  | lldp (port : PortId) (chassis : Nat) (portId description : List Byte)
  /-- An IEEE 1588 timestamp taken on transmit or on receive (R336). -/
  | ptpStamp (port : PortId) (time : Nat)
  /-- A recovery request of a core's ROM on its X-die's port (R504). -/
  | recovery (port : PortId) (offset len : Nat)
  /-- One frame of an observation pin (R544). -/
  | obsFrame (pin word : Nat)
  /-- Bits shifted out of the JTAG port: instruction and register contents (R549). -/
  | jtag (code value : Nat)
  deriving DecidableEq, Repr

/-- An operation of a register message that waits for its turn (R59, R355): the 8 bytes from its OP on, address, data and mask. -/
structure RegOpd where
  op : Word64
  addr : Word64
  data : Word64
  mask : Word64
  deriving DecidableEq, Repr

/-- Progress of a register message of one sender (R58-R60): whether an operation of it has failed, the answers so far, newest
first; the sequence number of its packet, and where messages before it have not executed the operations it has brought, newest first. -/
structure MsgProgress where
  failed : Bool
  results : List (Nat × Word64)
  seq : Word32
  early : Option (List RegOpd)
  deriving DecidableEq, Repr

/-- What event message of a vector would say of the last event (R75): time, page header address, EVT_RAW; and the time of the
oldest event pending (R72). -/
structure VecLast where
  time : Nat
  source : Nat
  raw : Word64
  oldest : Nat
  deriving DecidableEq, Repr

/-- The start of a command run on a command set (R523, R524): its cycle, its page, and what the set's registers held before, by
address. -/
structure RunStart where
  time : Nat
  page : Nat
  old : Tab Word64
  deriving DecidableEq, Repr

/-- What EVT_RAW of a page owes to the latest time at which bits of it went to 1 (R69, R70): that time, those bits, and the bits that
only events directed to vector 0 have set. -/
structure Rise where
  time : Nat
  bits : Nat
  zero : Nat
  deriving DecidableEq, Repr

/-- A cabinet fill that has not completed (R230): after a reset, or on the way out of Sleep. `.napRead` is the read pass of
a Nap exit (R455). -/
inductive Fill where
  | none
  | reset
  | wake
  | napRead
  deriving DecidableEq, Repr

/-- A slot of a credited caddy that is not FREE (R232): its state, the bytes it carries, the bays still to finish with it,
and the slab number of a resident slot (R240), and the command whose transfer filled it. -/
inductive SlotPhase where
  | filling
  | full
  | consuming
  deriving DecidableEq, Repr

/-- One occupied slot. -/
structure Slot where
  phase : SlotPhase
  bytes : Nat
  bays : Nat
  slab : Nat
  owner : Nat × Nat
  deriving DecidableEq, Repr

/-- A caddy's slots (R232, R233): how many it has, HEAD and TAIL, the slots that are not FREE, and whether its entry was
written since the last restart of the movers page. -/
structure Caddy where
  count : Nat
  head : Nat
  tail : Nat
  slots : Tab Slot
  written : Bool
  deriving DecidableEq, Repr

/-- A dimension of a transfer descriptor (R235). -/
structure Dim where
  count : Nat
  mult : Int
  axis : Nat
  deriving DecidableEq, Repr

/-- An axis of a transfer descriptor (R235). -/
structure Axis where
  stride : Int
  extent : Nat
  pad : Int
  deriving DecidableEq, Repr

/-- A parsed transfer descriptor (R235). -/
structure Transfer where
  vbase : Nat
  ndim : Nat
  kdims : Nat
  esize : Nat
  dir : Nat
  caddy : Nat
  dims : List Dim
  axes : List Axis
  deriving DecidableEq, Repr

/-- What waits for the answer of another module (R254): nothing, a read or write under way, its data, or its failure. -/
inductive PeerWait where
  | none
  | waiting (session : Half) (rtag : Nat) (msg : Word32)
  | data (bytes : List Byte)
  | failed
  deriving DecidableEq, Repr

/-- A transfer a mover runs or will run: its descriptor, the command it belongs to (queue and index), the elements done,
the slot it holds and the bytes of it already filled or consumed, when it became the current transfer, a wait on a peer, and whether
it is the first of its command on the mover (R523). -/
structure MovJob where
  desc : Transfer
  descVa : Nat
  queue : Nat
  index : Nat
  done : Nat
  slot : Option Nat
  pos : Nat
  started : Option Nat
  peer : PeerWait
  first : Bool
  deriving DecidableEq, Repr

/-- A mover: the transfers it has been given, the first being current (R235), and the time its fault began. -/
structure Mover where
  jobs : List MovJob
  deriving DecidableEq, Repr

/-- How far an accepted command has come: waiting for its unit, running, or ended with a status and a detail that its
completion will report (R315, R316). -/
inductive RunPhase where
  | waiting
  | running
  | ended (status : Nat) (detail : Nat)
  deriving DecidableEq, Repr

/-- A command accepted and not completed (R315): its slot's bytes, with a rotation descriptor behind them where it names one; its runs. The
fields after `phase` are the run's: the precision word of its snapshot (R160), the range exponents in force, the operands taken from their
caddies in traversal order, M-major (R238; a vector command uses all three lists), the passes loaded (1 once another unit has begun it) and
drained (R133), hops sent (R242), a cursor (hops received), the accumulator slots taken (R232), the values it continues from and the narrow
results kept for its shadow tiles by output (R119, R212), the shadow tiles still to be recomputed with the counts so far (R213), WRITTEN of
each tensor watch at the run's first captured element (R541); for a low-rank correction, the accumulators of t by output row and rank index,
t in BF16 once tile 0 is done, and the codes of U and V that were loaded (R165-R167); what stands behind the counts of a steep chunk between
its phases (R190); whether the accumulator slots were FULL before the command took them (R119); and the slots read but not yet given back,
as (caddy, slot) (R572). -/
structure Begun where
  queue : Nat
  index : Nat
  bytes : List Byte
  attempts : Nat
  phase : RunPhase
  word : Word64
  expA : Int
  expW : Int
  bufA : List Nat
  bufW : List Nat
  bufC : List Nat
  loaded : Nat
  drained : Nat
  hops : Nat
  cursor : Nat
  accSlots : List Nat
  init : Tab Word32
  narrow : Tab Word32
  shadow : List Nat
  bins : List Nat
  watchAt : Tab Nat
  side : Tab Word32
  tvec : List Nat
  lowU : Tab Nat
  lowV : Tab Nat
  carry : Tab Word32
  reopened : Bool
  kept : List (Nat × Nat)
  deriving DecidableEq, Repr

/-- A pass in a bay (R115, R133): its command, its number within the command, its rows, its parity, and the elements
emitted. -/
structure Pass where
  queue : Nat
  index : Nat
  number : Nat
  rows : Nat
  parity : Nat
  emitted : Nat
  deriving DecidableEq, Repr

/-- One row of a bay's brick weight registers of one parity (R108-R110, R130): the segments, two bits for each brick-column of the bay
from its first; the multiplier sign bits; and the unit exponents of the multipliers (the group maxima of R122). A sign bit and a
unit stand at the brick-column where their multiplier begins. -/
structure WRow where
  segs : Nat
  signs : Nat
  units : Tab Int
  deriving DecidableEq, Repr

/-- A bay's stream (R130-R134, R143): the pass draining, the pass streaming, the pass being loaded with the rows loaded and
the rows that have entered it, whether the drain after a fault is complete, the cause it recorded, until the outcome of the
abandoned commands is decided (R323), when it entered FAULTED, whether ERR_INFO holds its record (R146), its weight registers by
1024 × parity + row, and the pass that its fault abandoned (R146). -/
structure Bay where
  old : Option Pass
  cur : Option Pass
  load : Option Pass
  rowsLoaded : List Nat
  rowsEntered : List Nat
  faultDrained : Bool
  cause : Nat
  faultAt : Nat
  errHeld : Bool
  weights : Tab WRow
  lost : Option Pass
  deriving DecidableEq, Repr

/-- A frame in flight on a queue (R328): when its FRAME was accepted, the index of the first later command with FRAME_END once
that command has been taken, and whether a condition of R328 has failed. -/
structure FrameRun where
  start : Nat
  ender : Option Nat
  void : Bool
  deriving DecidableEq, Repr

/-- A queue beyond its registers: the commands completed ahead of DONE (R317), whether STEP_END of the step has been
accepted (R321), the TAIL writes not yet overtaken with their times (R530), the bays whose fault holds it (R323), and the
frames in flight (R328). -/
structure QAux where
  ahead : List Nat
  stepEnded : Bool
  tails : List (Nat × Nat)
  heldBy : List Nat
  frames : List FrameRun
  deriving DecidableEq, Repr

/-- What a gallery takes at a step start and uses through the step: the seed and the thresholds (R224), and the range exponents
of the census entries (R209). -/
structure Snap where
  seedLo : Word64
  seedHi : Word64
  thrUp : Word64
  thrDn : Word64
  exps : List Int
  deriving DecidableEq, Repr

/-- A gallery beyond its registers: the pending cabinet fill, the two movers, the slots of its caddies, the commands begun,
the queues, the bays, and what it took at the step start. -/
structure Gallery where
  fill : Fill
  movers : List Mover
  caddies : Tab Caddy
  begun : List Begun
  queues : List QAux
  bays : List Bay
  snap : Option Snap
  deriving DecidableEq, Repr

/-- One entry of an allocation list in the Curator's memory (R251): its u32 word (FRAME in the low bits, VALID in bit 31), or an entry
that reads uncorrectable, with its physical address (R256). -/
inductive ListEntry where
  | word (w : Word32)
  | damaged (phys : Nat)
  deriving DecidableEq, Repr

/-- The valid entry of frame f (R251). -/
def ListEntry.frame (f : Nat) : ListEntry := .word (BitVec.ofNat 32 (f % 2 ^ 22 + 2 ^ 31))

/-- An encoded block of a point that this module holds (R380, R386, R391): point code, owner, block number, bytes. -/
structure PointVal where
  point : Nat
  owner : Nat
  block : Nat
  bytes : List Byte
  deriving DecidableEq, Repr

/-- A reduction of the current step on one X-die (R376-R379): its descriptor, group descriptor and member table as read at
the step start, the range exponent in force, whether it has fired, the cause it failed with, the blocks held, the blocks of
its own shard whose root is written, and the segments sent and not yet acknowledged (session, message). -/
structure RedRun where
  rid : Nat
  xdie : Nat
  desc : List Byte
  group : List Byte
  members : List Byte
  exp : Int
  fired : Bool
  failed : Option Nat
  points : List PointVal
  roots : List Nat
  unacked : List (Nat × Word32)
  sent : List (Nat × Word32)
  deriving DecidableEq, Repr

/-- A combine entry or result (R392-R394): FINITE, COMPLETE, CONTRIB, step, and the records in table order. -/
structure Combined where
  finite : Bool
  complete : Bool
  contrib : Nat
  step : Nat
  records : List Byte
  deriving DecidableEq, Repr

/-- The collective engine's hold on a partition (R376-R398): the table registers of each X-die that govern the current step
(reduction, group and channel words), the job group and its members as read at the step start, its reductions, whether the
combine of the step has been entered and whether alone, the inbound COMBINE_UP messages (2^32 times session plus message; ranges
and bytes; the length once known), the own entry with what has been merged, whether it has been sent upward, an inbound
COMBINE_DOWN, the latest combined result, one kept back by HOLD (R415), and the channels that have stopped (X-die, channel). -/
structure Coll where
  tabs : List (Nat × Nat × Nat)
  job : List Byte
  jobMembers : List Byte
  reds : List RedRun
  entered : Bool
  alone : Bool
  ups : List (Nat × List (Nat × Nat) × List (Nat × Byte) × Option Nat)
  merged : Option Combined
  upSent : Bool
  downIn : List (Nat × Nat) × List (Nat × Byte) × Option Nat
  result : Option Combined
  heldDown : Option Combined
  chStopped : List (Nat × Nat)
  deriving DecidableEq, Repr

/-- A step of RESTORE (R421): the Vault header, the half, the common regions of the donor. -/
inductive RestorePhase where
  | header
  | half
  | common
  deriving DecidableEq, Repr

/-- A RESTORE under way (R421): the step asked for, the half's number, step and length, what it reads now, how many bytes that is, the
ranges and bytes that have arrived of it, and the half's bytes once it is read. -/
structure Restore where
  step : Nat
  half : Nat
  from_ : Nat
  len : Nat
  phase : RestorePhase
  need : Nat
  ranges : List (Nat × Nat)
  bytes : List (Nat × Byte)
  image : List Byte
  deriving DecidableEq, Repr

/-- The checkpoint engine's hold on a partition (R404-R422): the resilience descriptor in force, the owned-state ranges
written since each half was sealed (none: the whole half is due), whether an image is due, the half being streamed with its step and
whether its content has been sent, its unacknowledged messages, the steps at which the halves are sealed, the register image of
the latest boundary, the mirror's unacknowledged messages and the step whose slot it has marked, the step whose flash image is due,
the flash slot being written with its step, the steps of the sealed flash slots, the flash slot being copied to the store with the
copy's unacknowledged messages and the time of the last copy, the last committed step, a RESTORE under way, whether a read of it
failed, the step of a REPLAY under way, and whether protection stopped. -/
structure Resil where
  desc : List Byte
  dirty : List (Option (List (Nat × Nat)))
  due : Bool
  stream : Option (Nat × Nat × Bool)
  streamMsgs : List Word32
  sealedAt : List (Option Nat)
  regImg : List Byte
  mirrorMsgs : List Word32
  mirrorStep : Option Nat
  flashDue : Option Nat
  flash : Option (Nat × Nat)
  flashAt : List (Option Nat)
  store : Option Nat
  storeMsgs : List Word32
  storeAt : Nat
  lastStep : Option Nat
  restore : Option Restore
  readFailed : Bool
  replay : Option Nat
  broken : Bool
  asked : Nat
  deriving DecidableEq, Repr

/-- A 16-bit value of a commit that is computed and not yet written (R289): where, what, and whether it is the last of its element. -/
structure CommitWord where
  va : Nat
  val : Nat
  last : Bool
  deriving DecidableEq, Repr

/-- How far a COMMIT has come (R289, R292): the optimizer descriptor and the group it is at, what of the group it has read from peer
modules by address, the values of the group still to write once it is computed, and the access to a peer it waits for (R254): its
address, FAULT_TO of its page, and the wait. -/
structure CommitCur where
  desc : Nat
  group : Nat
  got : List (Nat × List Byte)
  writes : Option (List CommitWord)
  askVa : Nat
  askCur : Bool
  peer : PeerWait
  deriving DecidableEq, Repr

/-- A commit that has begun on the module (R281-R292): the step scalar block as read when it began, the gradient scale, the
elements written, held and corrected, the galleries that have raised EV_VEC_STATE_HELD, how far each COMMIT has come, and whether every
group is written. -/
structure CommitRun where
  scal : List Byte
  gs : Word32
  elements : Nat
  held : Nat
  corrected : Nat
  heldOn : List Nat
  curs : List CommitCur
  done : Bool
  deriving DecidableEq, Repr

/-- The step of a partition on the module (R160, R205, R284-R293, R313-R322): whether a step start has been made since the
creation, whether a commit has been decided, whether a commit failed here (R291), whether the snapshot is valid, the steps with
a command that ended other than DONE, whether the step is closed, the module's own flags, the job flags and N once the gate has
opened, when it opened, the commit under way, SKIPS, and SEQ of the next step record. -/
structure StepCtl where
  started : Bool
  decided : Bool
  dead : Bool
  snapOk : Bool
  failed : List Nat
  closed : Bool
  lFinite : Bool
  lComplete : Bool
  job : Option (Bool × Bool × Nat)
  gateAt : Nat
  run : Option CommitRun
  skips : Nat
  seq : Nat
  deriving DecidableEq, Repr

/-- A partition beyond its root registers (R251, R295-R305): its allocation lists, whether its transport contexts are stopped (R362),
whether a stop of its pages is under way (R66, R299), its step, the epoch record that outlives it (R299), the configurations kept for stale
galleries (R305) by gallery, the galleries that became stale while they were its lead, and its collective and checkpoint state. -/
structure Part where
  alloc : List ListEntry
  flash : List ListEntry
  ctxStopped : Bool
  stopping : Bool
  stp : StepCtl
  lastEpoch : Nat
  saved : Tab (List (Nat × Word64))
  leads : List Nat
  coll : Coll
  res : Resil
  deriving DecidableEq, Repr

/-- The role a session is bound to (R347). -/
inductive Role where
  | administrator
  | tenant
  | peer
  deriving DecidableEq, Repr

/-- A session slot in use: opening, until its SC_CONFIRM is accepted, or OPEN (R343, R344). -/
inductive SessPhase where
  | opening
  | initiating
  | opened
  deriving DecidableEq, Repr

/-- The body of a control packet held until the packets before it arrive (R351, R353): `refuse` is a packet that is answered with a STATUS
code and detail alone (R18, R342, R347); `reg` a register message with its STOP_ON_ERROR and its operations (R59). -/
inductive Ctl where
  | reg (stop : Bool) (ops : List RegOpd)
  | doorbell (queueId : Half) (tail : Word32) (epoch : Word32)
  | mcast (opcode : Nat) (offset : Word64)
  | status (msg : Word32) (code : Byte) (detail : Word64)
  | scConfirm (signature : List Byte)
  | scClose (cause : Byte)
  | refuse (code detail : Nat)
  deriving DecidableEq, Repr

/-- A sequenced packet not yet acknowledged; `ends`: whether it is the first and the last packet of its message (R340); `gone`: the window
and cwnd have let it leave (R350, R352, R354). -/
structure TxPkt where
  seq : Word32
  msg : Word32
  body : Out
  ends : Bool × Bool
  sacked : Bool
  retx : Nat
  sentAt : Nat
  bytes : Nat
  gone : Bool
  deriving DecidableEq, Repr

/-- Who asked for a remote read (R254, R366, R417). -/
inductive RdOwner where
  | mover (g : Nat) (m : Nat)
  | commit (p k : Nat)
  | mcast (xdie group : Nat) (offset : Nat)
  | restore (p : Nat) (offset : Nat)
  deriving DecidableEq, Repr

/-- A session (R343-R354): binding, port, the remote address and the UDP source port of its packets (R337), keys, packet numbers and
sequence state of both directions, held control packets, unacknowledged packets, failed inbound messages, messages relayed onward (the
message, the session and message it became), outstanding bulk reads of the peer by position with the message that answers each, remote reads
with the bytes still to come, the mailbox slot that asked for the session, and the congestion state of R354. -/
structure Sess where
  phase : SessPhase
  role : Role
  partition : Nat
  port : Nat
  address : List Byte
  udpPort : Half
  remote : Half
  initiator : Bool
  key : List Byte
  transcript : List Byte
  secret : List Byte
  openedAt : Nat
  pnTx : Nat
  pnRx : Nat
  rxNext : Word32
  rxSack : Word64
  sinceAck : Nat
  owedAt : Nat
  ceSeen : Bool
  tsLast : Word32
  held : List (Nat × Ctl)
  failed : List Word32
  relays : List (Word32 × Nat × Word32)
  reads : List (Word32 × Word32)
  txNext : Word32
  tx : List TxPkt
  rtags : List (Nat × RdOwner × Nat)
  srtt : Nat
  rttvar : Nat
  rto : Nat
  lastRx : Nat
  lastTx : Nat
  authAt : Option Nat
  asker : Option (Nat × Nat)
  cwnd : Nat
  baseRtt : Nat
  alpha : Nat
  ackedRt : Nat
  markedRt : Nat
  rtEnd : Nat
  deriving DecidableEq, Repr

/-- A child of a multicast group node (R363, R365): its session, the offset below which it has acknowledged, the offset
sent to it, whether it is attached, and since when it has held the group. -/
structure McastChild where
  session : Half
  acked : Nat
  sent : Nat
  attached : Bool
  heldSince : Option Nat
  deriving DecidableEq, Repr

/-- A multicast group entry on an X-die (R363) and its progress: the offset known to be published (at the source, the published
offset), the bytes held as intervals, whether the parent has detached this node, and when it was detached or last sent a JOIN. -/
structure Mcast where
  group : Nat
  partition : Nat
  source : Bool
  parent : Half
  srcSession : Half
  children : List McastChild
  base : Nat
  srcBase : Nat
  wKib : Nat
  detachUs : Nat
  len : Nat
  published : Nat
  received : List (Nat × Nat)
  detached : Bool
  joinAt : Nat
  deriving DecidableEq, Repr

/-- A frame that waits at a port's egress (R339): its class, what the limiter looks at, and its bytes where it is a Zazel packet. -/
structure QFrame where
  cls : Nat
  frame : TxFrame
  bytes : List Byte
  deriving DecidableEq, Repr

/-- A port's state beyond its registers: the last LLDPDU received and when one was last sent (R336), the frames that wait, oldest first,
with the deficits of TC1 to TC3 in bytes and the class that the round robin has come to (R339), and its egress limiter (R457): the second in
which it counts frames to other destinations and how many it has passed, the credit of its token bucket in 1/2048 byte with the time it
stood at, and the time of the last EV_EGL_DROP it raised. -/
structure Port where
  lldp : List Byte
  lldpSent : Option Nat
  waiting : List QFrame
  deficits : List Nat
  turn : Nat
  otherSecond : Nat
  otherCount : Nat
  tokens : Nat
  tokenAt : Nat
  dropAt : Option Nat
  deriving DecidableEq, Repr

/-- Phases of the power manager (R471, R472, R474, R483): rails off; ramping under a held P reset; off until PWR_EN has been
low for 100 ms after a power-stage fault or a thermal trip; every rail good and the P reset released. -/
inductive PwrPhase where
  | off
  | ramping
  | held
  | on
  deriving DecidableEq, Repr

/-- The power manager and the sideband pins (R470-R474, R483, R487, R555-R557): the levels of PWR_EN and RESET_N, whether VIN
is in range (VAUX good), the rails up, whether the module is held in M reset and since when, whether PWR_CAUSE stands over
the next power-on, THERMTRIP_N, ALERT_N forced low by R474 or R459, when PWR_EN fell, the dies in warning with the time
it began, the dies in thermal throttling, the stacks in self-refresh, the readings of the stacks,
whether a G request waits for its fill, the stacks throttled by temperature, and when module Idle began (R490). -/
structure Power where
  phase : PwrPhase
  pwrEn : Bool
  resetN : Bool
  vinOk : Bool
  good : List Rail
  mReset : Bool
  resetAt : Nat
  keepCause : Bool
  thermtripN : Bool
  faultAlert : Bool
  wdogAlert : Bool
  pwrEnLowAt : Option Nat
  warnSince : Tab Nat
  hotSince : Tab Nat
  thermDuty : Tab Nat
  selfRefresh : List Nat
  hbmTemp : Tab Nat
  gBusy : Bool
  rstReq : Nat
  idleSince : Nat
  srAt : Tab Nat
  deriving DecidableEq, Repr

/-- Fuses and identity values fixed at manufacture (R153, R371, R501, R513, R516, R546): failed galleries and spare map by
C-die, port MAC addresses by 8 x + p, serial number, identity public key, fused SVN, key slots present and revoked, the
hashes of the key slots, the hash of the debug key, and Brodloth's signature of the identity certificate, which the one-time
programmable region of the boot flash holds (R496, R514). -/
structure Fuses where
  bad : Tab Nat
  spareMap : Tab Nat
  mac : Tab Nat
  serial : List Byte
  idKey : List Byte
  svn : Nat
  keysPresent : Nat
  keysRevoked : Nat
  keyHash : Tab (List Byte)
  debugHash : List Byte
  certSig : List Byte
  deriving DecidableEq, Repr

/-- An entry of the authorisation table (R347). -/
structure AuthEntry where
  role : Nat
  partition : Nat
  key : List Byte
  deriving DecidableEq, Repr

/-- The Curator record (R497): authorisation table, epoch watermarks by partition, spare mapping word by C-die, retired HBM
channels by stack, failed frames, stacks whose frames have all failed, retired flash frames, multicast entries (X-die, group, 64
bytes), the network settings written through CURWRITE, oldest first (address, data, mask), the count of debug challenges
(R546), and the address of the recovery server, empty where it holds none (R504). -/
structure CurRec where
  auth : List AuthEntry
  marks : Tab Nat
  spare : Tab Nat
  retired : Tab Nat
  failedFrames : List Nat
  degraded : List Nat
  failedFlash : List Nat
  groups : List (Nat × Nat × List Byte)
  net : List (Nat × Nat × Nat)
  challenges : Nat
  server : List Byte
  deriving DecidableEq, Repr

/-- A Curator core (R502-R507): its ROM self-test, the image it runs, the image bytes received by recovery with the ranges
held, whether its ROM performs recovery, the time of its last watchdog service once that runs, when
its ROM took recovery up, and when it last requested ranges (R504). -/
structure CurCore where
  tested : Option Bool
  image : List Byte
  sram : Tab Byte
  have_ : List (Nat × Nat)
  recovering : Bool
  failed : Bool
  kickAt : Option Nat
  since : Nat
  askedAt : Nat
  deriving DecidableEq, Repr

/-- A live update under way (R508): the session and slot that asked, the image that the standby runs, the image it ran before, and when
the request was accepted. -/
structure Update where
  session : Nat
  slot : Nat
  image : List Byte
  previous : List Byte
  since : Nat
  deriving DecidableEq, Repr

/-- A mailbox slot of a session (R511): the request, the response's TAG, RESULT, STATE and result data, the order in which the
session's requests came, whether the request has begun, and the bytes of a request not yet complete. -/
structure Mbx where
  request : List Byte
  tag : Nat
  result : Nat
  state : Nat
  data : List Byte
  order : Nat
  started : Bool
  part : List (Nat × Byte)
  got : Nat
  deriving DecidableEq, Repr

/-- An entry of the journal (R506): which request it names, and whether it has completed. -/
structure Journal where
  what : Nat
  done : Bool
  deriving DecidableEq, Repr

/-- The Curator (R496-R512): the active core, the core the arbiter chose to load first, the rings that the journal records as
open, the two cores, the core that holds the boot flash and since when, the image slot,
the record in force and its two copies in the boot flash with their SEQ (R497), mailbox slots by 16 × session + slot, staging areas by
session, the update under way, and the words of the partition request under way as its GO found them (R298). -/
structure Boot where
  active : Option Nat
  lead : Option Nat
  ringsOpen : List Ring
  cores : List CurCore
  flashHolder : Option Nat
  grantAt : Nat
  slot : List Byte
  rcd : CurRec
  copies : List (Nat × CurRec)
  mail : Tab Mbx
  staging : Tab (List (Nat × Byte))
  journal : List Journal
  update : Option Update
  partReq : List Nat
  deriving DecidableEq, Repr

/-- A dump stream that is enabled (R531-R534): its page list, the time of its next sample, its next record, the periods skipped since
the previous record, and when it last raised EV_LDG_MISSED. -/
structure Stream where
  list : List Byte
  next : Nat
  seq : Nat
  skipped : Nat
  raisedAt : Option Nat
  deriving DecidableEq, Repr

/-- The observation logic (R531-R549): enabled dump streams, the frame numbers of the pins, the frames each pin still sends before a
trigger stops it, since when TRIG_OUT is high, whether a challenge stands, the JTAG instruction selected, and the boundary register's
update cells. -/
structure Obs where
  streams : Tab Stream
  frameNo : Tab Nat
  post : Option (List Nat)
  pulse : Option Nat
  challenged : Bool
  ir : Nat
  cells : Nat
  deriving DecidableEq, Repr

/-- The whole module: the commands waiting; ordering code, stepping and fuses; IEEE 1588 time in ns (R69) and the counter
of free values; register words other than their reset values, by address, and words that read uncorrectable; memory as bytes
other than 0 by physical address, and the error patterns of its granules (R434); outputs, newest first; register messages
under way by sender; the last event of each vector (R75); what EVT_RAW of a page owes to its last events (R69, R70);
the starts of command runs at the present time (R524); whether events are delivered from the mirror on X-die 1 (R71); galleries by control
page; by C-die, the physical galleries powered down for good (R154); partitions; the owners of HBM and flash frames that are not free
(R448, R251); the correctable errors of HBM rows (R248) and the last uncorrectable word of an HBM channel with its time (R439); sessions by
index, multicast groups by 256 × X-die + entry, and ports by 8 × X-die + port; the rings whose switch has settled open, and when the
training of a ring began (R369); the granules
that scrubbing has read, by stack, and by 64 × control page + bank above 2^16 (R454, R455); power, the Curator, and the observation logic. -/
structure State where
  pending : List Instr
  code : OrderCode
  stepping : Stepping
  fuses : Fuses
  now : Nat
  free : Nat
  regs : Tab Word64
  regBad : List Nat
  mem : List Host.Cell
  guard : Tab (List (Nat × Byte))
  out : List Out
  msgs : Tab MsgProgress
  vecLast : Tab VecLast
  rose : Tab Rise
  runs : List RunStart
  mirrored : Bool
  gals : Tab Gallery
  gone : Tab Nat
  parts : Tab Part
  frameOwner : Tab Nat
  flashOwner : Tab Nat
  rowErrs : Tab Nat
  badWords : Tab (Nat × Nat)
  sess : Tab Sess
  mcast : Tab Mcast
  ports : Tab Port
  ringSettled : List Ring
  ringAt : Tab Nat
  scrub : Tab Nat
  power : Power
  boot : Boot
  obs : Obs
  deriving DecidableEq, Repr

/-- A Curator record that holds nothing (R497). -/
def recordEmpty : CurRec := ⟨[], [], [], [], [], [], [], [], [], 0, []⟩

/-- A Curator core in its ROM (R502). -/
def coreInRom : CurCore := ⟨none, [], [], [], false, false, none, 0, 0⟩

/-- The observation logic after a P reset: the pins locked, the IDCODE register selected (R546, R549). -/
def obsReset : Obs := ⟨[], [], none, none, false, 2, 0⟩

/-- The module at the end of a P reset (R471, R485): every register at the value of its Reset column, memory zero or not
yet written, no session, no partition, no command begun, every rail good, and both Curator cores in ROM. The ordering code,
the stepping and the fuses are the model's choice (notes/assumptions/1, 7). -/
def State.reset : State where
  pending := []
  code := .m12x4
  stepping := .a1
  fuses := ⟨[], [], [], List.replicate 16 0, List.replicate 57 0, 0, 1, 0, [], List.replicate 32 0, List.replicate 114 0⟩
  now := 0
  free := 0
  regs := []
  regBad := []
  mem := []
  guard := []
  out := []
  msgs := []
  vecLast := []
  rose := []
  runs := []
  mirrored := false
  gals := []
  gone := []
  parts := []
  frameOwner := []
  flashOwner := []
  rowErrs := []
  badWords := []
  sess := []
  mcast := []
  ports := []
  ringSettled := []
  ringAt := []
  scrub := []
  power :=
    { phase := .on, pwrEn := true, resetN := true, vinOk := true
      good := [.vin, .vaux, .vbus, .vcoreX 0, .vcoreX 1, .vcoreX 2, .vcoreX 3, .vcoreC 0, .vcoreC 1, .vcoreC 2, .vcoreC 3,
        .vhbm, .vser, .vopt]
      mReset := false, resetAt := 0, keepCause := false, thermtripN := true, faultAlert := false, wdogAlert := false
      pwrEnLowAt := none, warnSince := [], hotSince := [], thermDuty := [], selfRefresh := [], hbmTemp := [], gBusy := false, rstReq := 0, idleSince := 0, srAt := [] }
  boot :=
    { active := none, lead := none, ringsOpen := [], cores := [coreInRom, coreInRom], flashHolder := none, grantAt := 0, slot := []
      rcd := recordEmpty, copies := [(1, recordEmpty), (0, recordEmpty)], mail := [], staging := [], journal := [], update := none, partReq := [] }
  obs := obsReset

end Sys2Proof.Machine
end

