-- ==== Sys2Proof/Machine/Tab.lean ====
section
/-! DEFINITION. Operations on sparse tables: first-match lookup, sorted insertion, and the canonical form (keys
strictly rising, no entry equal to the value its key reads as when unlisted). -/

namespace Sys2Proof.Machine

/-- The entry of a key, if listed. -/
def tfind {α : Type} (t : List (Nat × α)) (k : Nat) : Option α :=
  match t with
  | [] => none
  | (j, v) :: r => if j = k then some v else tfind r k

/-- The value of a key: what is listed, else the default. -/
def tget {α : Type} (d : α) (t : List (Nat × α)) (k : Nat) : α := (tfind t k).getD d

/-- The table without a key. -/
def tdel {α : Type} (t : List (Nat × α)) (k : Nat) : List (Nat × α) := t.filter (fun e => e.1 != k)

/-- The table with a key listed, in its place. -/
def tins {α : Type} (t : List (Nat × α)) (k : Nat) (v : α) : List (Nat × α) :=
  match t with
  | [] => [(k, v)]
  | (j, w) :: r => if k < j then (k, v) :: (j, w) :: r else if k = j then (k, v) :: r else (j, w) :: tins r k v

/-- The table after a write: writing the default removes the entry, so that equal contents are equal data. -/
def tput {α : Type} [DecidableEq α] (d : α) (t : List (Nat × α)) (k : Nat) (v : α) : List (Nat × α) :=
  if v = d then tdel t k else tins t k v

/-- Keys strictly rising, all above a bound. -/
def sortedFrom {α : Type} (lo : Nat) (t : List (Nat × α)) : Bool :=
  match t with
  | [] => true
  | (j, _) :: r => decide (lo ≤ j) && sortedFrom (j + 1) r

/-- The canonical form for a default that may depend on the key. -/
def twf {α : Type} [DecidableEq α] (d : Nat → α) (t : List (Nat × α)) : Bool :=
  sortedFrom 0 t && t.all (fun e => decide (e.2 ≠ d e.1))

end Sys2Proof.Machine
end

