-- ==== Sys2Proof/Machine/Access.lean ====
section
/-! DEFINITION. The register file: which pages exist, where a register's word is kept, what it holds when nothing has
been written, and the named fields that the blocks read and write (R37-R55). -/

namespace Sys2Proof.Machine

/-- Whether a port is one of the optical ring ports of R25. -/
def isRingPort (code : OrderCode) (x p : Nat) : Bool :=
  match code with
  | .m12x4 => p == 7 && decide (x < 4)
  | .m14x2 => (p == 7 || p == 6) && decide (x < 2)
  | .m10x6 => p == 7 && decide (x < 4)

/-- The two ports of a ring, east then west (R25). -/
def ringPorts (code : OrderCode) (r : Ring) : List (Nat × Nat) :=
  match code, r with
  | _, .a => [(0, 7), (1, 7)]
  | .m14x2, .b => [(0, 6), (1, 6)]
  | _, .b => [(2, 7), (3, 7)]

/-- The value a register's word takes at a reset that restores all its fields: the Reset column, with the fuse values of
the sparing map (R153) and BYPASSED of a ring port (R371). -/
def resetOf (code : OrderCode) (fu : Fuses) (a : Nat) : Nat :=
  (match pageInfo code (a / 4096) with
  | none => 0
  | some i =>
    match regFields i (a % 4096) with
    | none => 0
    | some fs =>
      if i.type = .cdieControl ∧ a % 4096 = 0x100 then tget 0 fu.spareMap (a / 4096 / 512)
      else if i.type = .port ∧ a % 4096 = 0x120 ∧ isRingPort code i.xdie i.num = true then 0x80
      else resetWord fs) % 2 ^ 64

/-- The word kept for a register address. -/
def regGet (s : State) (a : Nat) : Nat :=
  match tfind s.regs a with
  | some w => w.toNat
  | none => resetOf s.code s.fuses a

/-- The state with a register's word replaced. -/
def regPut (s : State) (a v : Nat) : State :=
  { s with regs := tput (BitVec.ofNat 64 (resetOf s.code s.fuses a)) s.regs a (BitVec.ofNat 64 v) }

/-- A register field by its offset within the page, its lowest bit and its width. -/
structure FRef where
  off : Nat
  lo : Nat
  w : Nat
  deriving DecidableEq, Repr

/-- A field of a page. -/
def rd (s : State) (pg : Nat) (f : FRef) : Nat := bits (regGet s (pg * 4096 + f.off)) f.lo f.w

/-- The state with a field of a page replaced. -/
def wr (s : State) (pg : Nat) (f : FRef) (v : Nat) : State :=
  regPut s (pg * 4096 + f.off) (setBits (regGet s (pg * 4096 + f.off)) f.lo f.w v)

/-- A field raised by n, saturating. -/
def bump (s : State) (pg : Nat) (f : FRef) (n : Nat) : State := wr s pg f (satAdd f.w (rd s pg f) n)

/-- BLK_CTRL.RUN (R48). -/
def fRUN : FRef := ⟨0x010, 0, 1⟩
/-- BLK_CTRL.LOWPWR (R48). -/
def fLOWPWR : FRef := ⟨0x010, 4, 2⟩
/-- BLK_STATE.STATE (R49). -/
def fSTATE : FRef := ⟨0x018, 0, 3⟩
/-- BLK_STATE.WAITING (R49). -/
def fWAITING : FRef := ⟨0x018, 3, 1⟩
/-- BLK_STATE.CAUSE (R49). -/
def fCAUSE : FRef := ⟨0x018, 8, 4⟩
/-- BLK_STATE.STOP_SRC (R49). -/
def fSTOPSRC : FRef := ⟨0x018, 12, 2⟩
/-- BLK_STATE.CHANGES (R49). -/
def fCHANGES : FRef := ⟨0x018, 32, 32⟩
/-- EVT_RAW (R50). -/
def fEVTRAW : FRef := ⟨0x020, 0, 64⟩
/-- EVT_EN (R50). -/
def fEVTEN : FRef := ⟨0x028, 0, 64⟩
/-- EVT_VEC.VECTOR (R51). -/
def fVECTOR : FRef := ⟨0x030, 0, 12⟩
/-- ERR_INFO.VALID and OVERFLOW (R52). -/
def fERRVALID : FRef := ⟨0x038, 16, 1⟩
/-- ERR_INFO.OVERFLOW (R52). -/
def fERROVF : FRef := ⟨0x038, 15, 1⟩
/-- BLK_EPOCH.EPOCH (R54). -/
def fEPOCH : FRef := ⟨0x048, 0, 32⟩
/-- BLK_OWNER.PARTITION (R55). -/
def fOWNER : FRef := ⟨0x050, 0, 6⟩
/-- BLK_OWNER.ASSIGNED (R55). -/
def fASSIGNED : FRef := ⟨0x050, 7, 1⟩

/-- The spare that replaces logical gallery g of C-die c, if one does (R153). -/
def spareFor (s : State) (c g : Nat) : Option Nat :=
  (List.range 4).find? (fun k =>
    bits (regGet s (cPage c 0x100 * 4096 + 0x100)) (8 * k + 7) 1 == 1 &&
    bits (regGet s (cPage c 0x100 * 4096 + 0x100)) (8 * k) 6 == g)

/-- Whether spare k of C-die c replaces a gallery (R153). -/
def spareMapped (s : State) (c k : Nat) : Bool := bits (regGet s (cPage c 0x100 * 4096 + 0x100)) (8 * k + 7) 1 == 1

/-- The physical gallery of module-wide gallery g on its C-die (R12, R154). -/
def physGallery (s : State) (g : Nat) : Nat :=
  match spareFor s (g / 64) (g % 64) with
  | some k => 64 + k
  | none => g % 64

/-- Whether a physical gallery of C-die c, 0 to 67, is bad: found so at manufacture, or powered down for good when a spare took its place
(R153, R154). -/
def physBad (s : State) (c p : Nat) : Bool := bit (tget 0 s.fuses.bad c) p || bit (tget 0 s.gone c) p

/-- Whether the physical gallery behind a logical number is one that a spare once replaced: it is never reached again (R154). -/
def galGone (s : State) (g : Nat) : Bool := s.gone != [] && bit (tget 0 s.gone (g / 64)) (physGallery s g)

/-- What a page carries now; none where it does not exist (R39-R42, R154). -/
def pageAt (s : State) (pg : Nat) : Option PageInfo :=
  match pageInfo s.code pg with
  | some i =>
    if i.spare && spareMapped s (pg / 512) i.num then none
    else if !i.spare && decide (pg % 512 < 0x100) && decide (pg / 512 < 4) && galGone s i.num then none
    else some i
  | none => none

/-- The control page of a gallery (R39). -/
def galRefPage (g : GalRef) : Nat :=
  match g with
  | .active g => galPage g.val
  | .spare d k => sparePage d.val k.val

/-- The control page that page pg of a gallery belongs to. -/
def galBase (pg : Nat) : Nat := pg / 4 * 4

/-- Whether a page is one of the four pages of a gallery. -/
def isGalPage (i : PageInfo) : Bool :=
  match i.type with
  | .galleryControl => true | .arrayBays => true | .movers => true | .censusKettle => true
  | _ => false

/-- A queue that has presented nothing. -/
def queueIdle : QAux := ⟨[], false, [], [], []⟩

/-- A bay with nothing loaded or streaming. -/
def bayIdle : Bay :=
  { old := none, cur := none, load := none, rowsLoaded := [], rowsEntered := [], faultDrained := false, cause := 0, faultAt := 0
    errHeld := false, weights := [], lost := none }

/-- A gallery after a reset: its cabinet fill is under way and nothing else (R230). -/
def galIdle : Gallery :=
  ⟨.reset, [⟨[]⟩, ⟨[]⟩], [], [], [queueIdle, queueIdle, queueIdle, queueIdle], [bayIdle, bayIdle, bayIdle, bayIdle], none⟩

/-- The gallery behind a control page. -/
def galGet (s : State) (pg : Nat) : Gallery := tget galIdle s.gals pg

/-- The state with the gallery behind a control page replaced. -/
def galPut (s : State) (pg : Nat) (x : Gallery) : State := { s with gals := tput galIdle s.gals pg x }

/-- The collective engine with no step begun. -/
def collNone : Coll := ⟨[], [], [], [], false, false, [], none, false, ([], [], none), none, none, []⟩

/-- The checkpoint engine with no descriptor. -/
def resNone : Resil :=
  { desc := [], dirty := [none, none], due := false, stream := none, streamMsgs := [], sealedAt := [none, none], regImg := []
    mirrorMsgs := [], mirrorStep := none, flashDue := none, flash := none, flashAt := [none, none], store := none, storeMsgs := []
    storeAt := 0, lastStep := none, restore := none, readFailed := false, replay := none, broken := false, asked := 0 }

/-- A partition before its first step start. -/
def stepNone : StepCtl := ⟨false, false, false, false, [], false, false, false, none, 0, none, 0, 0⟩

/-- A partition that owns nothing; nothing has stopped its transport contexts (R362; notes/assumptions/65). -/
def partNone : Part := ⟨[], [], false, false, stepNone, 0, [], [], collNone, resNone⟩

/-- The Curator's record of a partition. -/
def partGet (s : State) (p : Nat) : Part := tget partNone s.parts p

/-- The state with a partition's record replaced. -/
def partPut (s : State) (p : Nat) (x : Part) : State := { s with parts := tput partNone s.parts p x }

/-- A session in use. -/
def sessGet (s : State) (i : Nat) : Option Sess := tfind s.sess i

/-- The state with a session slot filled. -/
def sessPut (s : State) (i : Nat) (x : Sess) : State := { s with sess := tins s.sess i x }

/-- Whether a session is OPEN (R343). -/
def sessOpen (s : State) (i : Nat) : Bool :=
  match sessGet s i with
  | some x => decide (x.phase = .opened)
  | none => false

/-- The partition that owns a page, if it is assigned (R55). -/
def pageOwner (s : State) (pg : Nat) : Option Nat := if rd s pg fASSIGNED = 1 then some (rd s pg fOWNER) else none

/-- The state with an output message added; the newest is first. -/
def emit (s : State) (o : Out) : State := { s with out := o :: s.out }

/-- A fresh free value and the state that has used it. -/
def nextFree (s : State) : State × Nat := ({ s with free := s.free + 1 }, s.free)

end Sys2Proof.Machine
end

