-- ==== Sys2Proof/Machine/Guard.lean ====
section
/-! DEFINITION. The guard code (R435-R438) and the two check values (R449, R450). A stored word is kept as its data and an
error pattern, the xor of the stored symbols with the codeword of that data; the code is linear, so decoding looks at the
pattern alone. -/

namespace Sys2Proof.Machine

/-- One round of gf_mul of R436 for bit i of b. -/
def gfStep (x r b i : Nat) : Nat := if b.testBit i then r ^^^ x else r

/-- Multiplication by alpha in GF(2^8) with 0x11D (R436). -/
def gfTimes2 (x : Nat) : Nat := if x * 2 ≥ 0x100 then (x * 2) ^^^ 0x11D else x * 2

/-- gf_mul of R436, over the bits of b from i upwards. -/
def gfMulFrom (x r b i n : Nat) : Nat :=
  match n with
  | 0 => r
  | n + 1 => gfMulFrom (gfTimes2 x) (gfStep x r b i) b (i + 1) n

/-- gf_mul of R436. -/
def gfMul (a b : Nat) : Nat := gfMulFrom a 0 b 0 8

/-- alpha to the power k. -/
def gfPow (k : Nat) : Nat :=
  match k with
  | 0 => 1
  | k + 1 => gfTimes2 (gfPow k)

/-- Syndrome i of a word given as (position, symbol) pairs (R436). -/
def syndrome (e : List (Nat × Byte)) (i : Nat) : Nat :=
  e.foldl (fun a pv => a ^^^ gfMul pv.2.toNat (gfPow (i * pv.1))) 0

/-- The outcome of a check (R437). -/
inductive GuardOut where
  | clean
  | corrected (pos : Nat) (value : Nat)
  | bad
  deriving DecidableEq, Repr

/-- The decision of R437 on an error pattern. -/
def guardDecode (e : List (Nat × Byte)) : GuardOut :=
  let s0 := syndrome e 0
  let s1 := syndrome e 1
  let s2 := syndrome e 2
  let s3 := syndrome e 3
  if s0 = 0 ∧ s1 = 0 ∧ s2 = 0 ∧ s3 = 0 then .clean
  else if s0 = 0 then .bad
  else
    match (List.range 36).find? (fun p =>
        s1 == gfMul s0 (gfPow p) && s2 == gfMul s1 (gfPow p) && s3 == gfMul s2 (gfPow p)) with
    | some p => .corrected p s0
    | none => .bad

/-- One byte of guard_encode of R436: the four check bytes after data byte d. -/
def guardEncodeByte (c : List Nat) (d : Nat) : List Nat :=
  match c with
  | [c0, c1, c2, c3] =>
    let f := d ^^^ c3
    [gfMul f 0x40, c0 ^^^ gfMul f 0x78, c1 ^^^ gfMul f 0x36, c2 ^^^ gfMul f 0x0F]
  | _ => c

/-- guard_encode of R436: the check symbols of a granule. -/
def guardEncode (d : List Nat) : List Nat := d.reverse.foldl guardEncodeByte [0, 0, 0, 0]

/-- The symbol at a position of a pattern. -/
def patAt (e : List (Nat × Byte)) (p : Nat) : Byte := tgetByte e p
where
  /-- The listed symbol, else 0. -/
  tgetByte (e : List (Nat × Byte)) (p : Nat) : Byte :=
    match e with
    | [] => 0
    | (q, v) :: r => if q = p then v else tgetByte r p

/-- A pattern as 36 symbols in order, zeros left out. -/
def patNorm (f : Nat → Byte) : List (Nat × Byte) := ((List.range 36).map (fun p => (p, f p))).filter (fun e => e.2 != 0)

/-- The pattern left after the correction of R437: the checker adds the value at its position. -/
def patCorrect (e : List (Nat × Byte)) (p v : Nat) : List (Nat × Byte) :=
  patNorm (fun q => patAt e q ^^^ (if q = p then BitVec.ofNat 8 v else 0))

/-- One bit of the reflected CRC-32C register (R449). -/
def crc32Bit (r : Nat) : Nat := if r % 2 = 1 then (r / 2) ^^^ 0x82F63B78 else r / 2

/-- One byte into the CRC-32C register. -/
def crc32Byte (r : Nat) (b : Byte) : Nat :=
  crc32Bit (crc32Bit (crc32Bit (crc32Bit (crc32Bit (crc32Bit (crc32Bit (crc32Bit (r ^^^ b.toNat))))))))

/-- CRC-32C of bytes fed after a running value, which includes the final xor (R450). -/
def crc32cFrom (value : Nat) (bs : List Byte) : Nat := (bs.foldl crc32Byte (value ^^^ 0xFFFFFFFF)) ^^^ 0xFFFFFFFF

/-- CRC-32C of a byte string (R341, R449). -/
def crc32c (bs : List Byte) : Nat := crc32cFrom 0 bs

/-- One bit of the CRC-64/ECMA-182 register (R449). -/
def crc64Bit (r : Nat) : Nat :=
  if r ≥ 2 ^ 63 then ((r * 2) % 2 ^ 64) ^^^ 0x42F0E1EBA9EA3693 else r * 2

/-- One byte into the CRC-64 register. -/
def crc64Byte (r : Nat) (b : Byte) : Nat :=
  crc64Bit (crc64Bit (crc64Bit (crc64Bit (crc64Bit (crc64Bit (crc64Bit (crc64Bit (r ^^^ (b.toNat * 2 ^ 56)))))))))

/-- CRC-64/ECMA-182 of bytes fed after a running value (R450). -/
def crc64From (value : Nat) (bs : List Byte) : Nat := bs.foldl crc64Byte value

end Sys2Proof.Machine
end

