-- ==== Sys2Proof/Machine/Frame.lean ====
section
/-! DEFINITION. What a port carries (R11, R337-R342): the Zazel header and the type headers in network order, payloads little-endian,
the CRC-32C and the tag, UDP, IP and Ethernet around them, and the port's four traffic classes (R339). -/

namespace Sys2Proof.Machine

/-- The page of a port (R40). -/
def portPage (x p : Nat) : Nat := xPage x (1 + p)
/-- The transport engine page of X-die x (R372). -/
def ztPage (x : Nat) : Nat := xPage x 0x09
/-- The X-die of a session index (R343). -/
def sessXdie (i : Nat) : Nat := i / 8192
/-- A port by its numbers. -/
def portOf (x p : Nat) : PortId := ⟨⟨x % 6, Nat.mod_lt _ (by decide)⟩, ⟨p % 8, Nat.mod_lt _ (by decide)⟩⟩

/-- PORT_STATUS.LINK (R371). -/
def fLINK : FRef := ⟨0x120, 0, 1⟩
/-- PORT_VLAN.VID and TAGGED (R371). -/
def fVLAN : FRef := ⟨0x118, 0, 13⟩
/-- PORT_NH.MAC. -/
def fNHMAC : FRef := ⟨0x110, 0, 48⟩
/-- XD_NET.UDP_PORT (R370). -/
def fUDPPORT : FRef := ⟨0x100, 0, 16⟩
/-- XD_DSCP.TC0-TC3 (R370). -/
def fDSCP (c : Nat) : FRef := ⟨0x108, 8 * c, 6⟩
/-- XD_TCW.TC1-TC3 (R370). -/
def fTCW (c : Nat) : FRef := ⟨0x110, 8 * (c - 1), 8⟩
/-- XD_IP4.ADDR. -/
def fIP4 : FRef := ⟨0x118, 0, 32⟩
/-- XD_IP4.VALID. -/
def fIP4V : FRef := ⟨0x118, 32, 1⟩
/-- ZT_PARTp.ENC (R372). -/
def fENC (p : Nat) : FRef := ⟨0x400 + 8 * p, 61, 1⟩

/-- The MAC address of a port, from its fuses (R371). -/
def portMac (s : State) (x p : Nat) : Nat := tget 0 s.fuses.mac (8 * x + p)
/-- XD_IP6 (R370). -/
def xdIp6 (s : State) (x : Nat) : Nat := regGet s (xPage x 0 * 4096 + 0x120) * 2 ^ 64 + regGet s (xPage x 0 * 4096 + 0x128)

/-- A port with no frame waiting and its limiter's bucket full (R457). -/
def portNew : Port := ⟨[], none, [], [0, 0, 0], 1, 0, 0, 2 ^ 31, 0, none⟩
/-- A port beyond its registers. -/
def portGet (s : State) (x p : Nat) : Port := tget portNew s.ports (8 * x + p)
/-- The state with a port replaced. -/
def portPut (s : State) (x p : Nat) (v : Port) : State := { s with ports := tput portNew s.ports (8 * x + p) v }

/-- Whether a port is up. -/
def portUp (s : State) (x p : Nat) : Bool := rd s (portPage x p) fLINK == 1

/-- TYPE of a packet by what it carries (R342). -/
def typeOf (o : Out) : Nat :=
  match o with
  | .regResp _ _ => 0x02
  | .bulkWrite _ _ _ _ _ _ _ => 0x04
  | .bulkRead _ _ _ _ _ _ => 0x05
  | .bulkRdata _ _ _ _ _ _ => 0x06
  | .status _ _ _ _ => 0x07
  | .event _ _ _ _ _ _ _ => 0x08
  | .seg _ _ _ _ _ _ _ => 0x09
  | .mcastSeg _ _ _ _ _ => 0x0A
  | .mcastCtrl _ _ _ => 0x0B
  | .ack _ _ _ _ => 0x0F
  | _ => 0x0C

/-- The Ledger counter of packets of a TYPE, in the order of R342 (R529). -/
def typeIndex (ty : Nat) : Nat := if ty = 0x0F then 12 else ty - 1

/-- The traffic class of a packet (R339, R342). -/
def classOf (o : Out) : Nat :=
  match o with
  | .bulkWrite _ _ _ _ _ _ c => c
  | .bulkRead _ _ _ _ _ c => c
  | .bulkRdata _ _ _ _ _ c => c
  | .seg _ _ _ _ _ _ _ => 1
  | .mcastSeg _ _ _ _ _ => 2
  | _ => 0

/-- EPOCH of a packet (R360, R361): of bulk, collective and multicast messages; 0 in every other. -/
def epochOf (o : Out) : Nat :=
  match o with
  | .bulkWrite _ e _ _ _ _ _ => e
  | .bulkRead _ e _ _ _ _ => e
  | .bulkRdata _ e _ _ _ _ => e
  | .seg _ e _ _ _ _ _ => e
  | .mcastSeg _ e _ _ _ => e
  | _ => 0

/-- The type header of a packet, in network byte order (R341, R357, R364, R388; notes/assumptions/135). -/
def typeHeader (o : Out) : List Byte :=
  match o with
  | .bulkWrite _ _ a len off _ _ => beBytes 8 a ++ beBytes 4 len ++ beBytes 4 off
  | .bulkRead _ _ a len tag _ => beBytes 8 a ++ beBytes 4 len ++ beBytes 4 tag
  | .bulkRdata _ _ tag off _ _ => beBytes 8 0 ++ beBytes 4 tag ++ beBytes 4 off
  | .seg _ _ k h _ _ _ =>
    beBytes 2 h.rid.toNat ++ beBytes 1 k ++ beBytes 1 0 ++ beBytes 3 h.point.toNat ++ beBytes 1 0 ++ beBytes 2 h.owner.toNat ++
      beBytes 2 h.dest.toNat ++ beBytes 4 h.step.toNat
  | .mcastSeg _ _ g off _ => beBytes 2 g ++ beBytes 6 0 ++ beBytes 8 off
  | _ => []

/-- The 32 bytes of an event message (R75). -/
def eventBytes (vector count seq time source : Nat) (raw : Word64) : List Byte :=
  leBytes 2 vector ++ leBytes 2 count ++ leBytes 4 seq ++ leBytes 8 time ++ leBytes 8 source ++ leBytes 8 raw.toNat

/-- The payload of a packet, its multi-byte fields little-endian (R11, R341, R345, R355, R358, R359, R366, R389). -/
def payloadBytes (o : Out) : List Byte :=
  match o with
  | .regResp _ rs => leBytes 8 rs.length ++ rs.flatMap (fun r => leBytes 8 r.1 ++ leBytes 8 r.2.toNat)
  | .event _ v c q t a r => eventBytes v c q t a r
  | .status _ m c d => leBytes 4 m.toNat ++ leBytes 1 c ++ leBytes 3 0 ++ leBytes 8 d
  | .bulkWrite _ _ _ _ _ b _ => b
  | .bulkRdata _ _ _ _ b _ => b
  | .seg _ _ _ _ a b bs => leBytes 4 a ++ leBytes 4 b ++ bs
  | .mcastSeg _ _ _ _ b => b
  | .mcastCtrl _ op off => leBytes 8 op ++ leBytes 8 off
  | .scInit _ b => b
  | .scAccept _ _ b => b
  | .scConfirm _ g => leBytes 1 3 ++ g ++ leBytes 5 0
  | .scClose _ c => leBytes 1 4 ++ leBytes 1 c ++ leBytes 6 0
  | _ => []

/-- Whether a TYPE carries a CRC-32C (R342). -/
def hasCrc (ty : Nat) : Bool := ty == 0x04 || ty == 0x06 || ty == 0x09 || ty == 0x0A

/-- The 48 bytes of the Zazel header, in network byte order (R340). -/
def headerBytes (h : ZHdr) : List Byte :=
  [0x10] ++ beBytes 1 h.type ++ beBytes 1 h.flags ++ beBytes 1 h.tclass ++ beBytes 2 h.session ++ beBytes 2 h.length ++ beBytes 8 h.pn ++
    beBytes 4 h.seq ++ beBytes 4 h.ack ++ beBytes 8 h.sack ++ beBytes 4 h.epoch ++ beBytes 4 h.msg ++ beBytes 4 h.ts ++ beBytes 4 h.tsEcho

/-- Whether the payload of a packet is encrypted (R345, R348): control and ACK packets, and data-plane packets where ZT_PARTp.ENC asks
for it; SC_INIT and SC_ACCEPT precede the keys, and a BULK_READ, which is neither, has no payload. -/
def encrypted (s : State) (x : Sess) (i : Nat) (o : Out) : Bool :=
  match o with
  | .scInit _ _ => false
  | .scAccept _ _ _ => false
  | .bulkWrite _ _ _ _ _ _ _ => x.role != .administrator && rd s (ztPage (sessXdie i)) (fENC x.partition) == 1
  | .bulkRdata _ _ _ _ _ _ => x.role != .administrator && rd s (ztPage (sessXdie i)) (fENC x.partition) == 1
  | .seg _ _ _ _ _ _ _ => rd s (ztPage (sessXdie i)) (fENC x.partition) == 1
  | .mcastSeg _ _ _ _ _ => rd s (ztPage (sessXdie i)) (fENC x.partition) == 1
  | .bulkRead _ _ _ _ _ _ => false
  | _ => true

/-- The packet behind the UDP header (R341, R346, R348; notes/assumptions/136): header, type header, payload, CRC-32C, tag. The tag of
a packet in clear covers its payload as associated data. -/
def zazelBytes (x : Sess) (h : ZHdr) (o : Out) : List Byte :=
  let head := headerBytes h ++ typeHeader o
  let body := payloadBytes o
  let crc := if hasCrc h.type then beBytes 4 (crc32c body) else []
  match o with
  | .scInit _ _ => head ++ body
  | .scAccept _ _ _ => head ++ body
  | _ =>
    let key := if x.initiator then x.secret.take 32 else x.secret.drop 32
    let nonce := beBytes 4 (if x.initiator then 0 else 1) ++ beBytes 8 h.pn
    if h.flags % 2 = 1 then
      let c := Config.aesGcm key nonce head body
      head ++ (padTo body.length c.1).take body.length ++ crc ++ (padTo 16 c.2).take 16
    else head ++ body ++ crc ++ (padTo 16 (Config.aesGcm key nonce (head ++ body) []).2).take 16

/-- The sum of 16-bit words of RFC 1071, folded. -/
def onesSum (bs : List Byte) : Nat :=
  let t := sum16 bs 0
  (t % 65536 + t / 65536) % 65536 + (t % 65536 + t / 65536) / 65536
where
  /-- The plain sum of 16-bit words in network order. -/
  sum16 (bs : List Byte) (a : Nat) : Nat :=
    match bs with
    | x :: y :: r => sum16 r (a + x.toNat * 256 + y.toNat)
    | [x] => a + x.toNat * 256
    | [] => a

/-- Whether an address of 16 bytes is an IPv4 address in its mapped form (R512). -/
def isV4 (a : List Byte) : Bool := a.take 12 == List.replicate 10 0 ++ [0xFF, 0xFF]

/-- A UDP datagram between two addresses, with its checksum over the pseudo-header (R338). -/
def udpBytes (src dst : List Byte) (sport dport : Nat) (bs : List Byte) : List Byte :=
  let n := 8 + bs.length
  let bare := beBytes 2 sport ++ beBytes 2 dport ++ beBytes 2 n
  let c := 65535 - onesSum (src ++ dst ++ beBytes 4 n ++ beBytes 4 17 ++ bare ++ beBytes 2 0 ++ bs)
  bare ++ beBytes 2 (if c = 0 then 65535 else c) ++ bs

/-- The frame of a packet of session i on its port, without its FCS (R11, R337-R339): Ethernet with the tag of the port, IP with DSCP
and ECN, UDP. -/
def frameBytes (s : State) (i : Nat) (x : Sess) (cls pn : Nat) (bs : List Byte) : List Byte :=
  let d := sessXdie i
  let v := rd s (portPage d x.port) fVLAN
  let ds := rd s (xPage d 0) (fDSCP cls) * 4 + (if cls = 0 then 0 else 2)
  let dport := rd s (xPage d 0) fUDPPORT
  let tag := if v / 4096 = 1 then beBytes 2 0x8100 ++ beBytes 2 (cls * 8192 + v % 4096) else []
  let eth := beBytes 6 (rd s (portPage d x.port) fNHMAC) ++ beBytes 6 (portMac s d x.port) ++ tag
  let dst := padTo 16 x.address
  if isV4 dst then
    let src4 := beBytes 4 (rd s (xPage d 0) fIP4)
    let u := udpBytes src4 (dst.drop 12) x.udpPort.toNat dport bs
    let a := [0x45] ++ beBytes 1 ds ++ beBytes 2 (20 + u.length) ++ beBytes 2 (Config.ipField 2 pn) ++
      beBytes 2 (Config.ipField 3 pn % 4 * 16384) ++ beBytes 1 (Config.ipField 1 pn) ++ [17]
    let b := src4 ++ dst.drop 12
    eth ++ beBytes 2 0x0800 ++ a ++ beBytes 2 (65535 - onesSum (a ++ beBytes 2 0 ++ b)) ++ b ++ u
  else
    let src6 := beBytes 16 (xdIp6 s d)
    let u := udpBytes src6 dst x.udpPort.toNat dport bs
    eth ++ beBytes 2 0x86DD ++ beBytes 4 (6 * 2 ^ 28 + ds * 2 ^ 20 + Config.ipField 0 pn % 2 ^ 20) ++ beBytes 2 u.length ++ [17] ++
      beBytes 1 (Config.ipField 1 pn) ++ src6 ++ dst ++ u

/-- The link-local address that EUI-64 forms from a MAC address (R457, R504). -/
def linkLocal (mac : Nat) : Nat :=
  0xFE80 * 2 ^ 112 + ((mac / 2 ^ 24) ^^^ 0x020000) * 2 ^ 40 + 0xFFFE * 2 ^ 24 + mac % 2 ^ 24

/-- An IPv6 frame of an untagged or tagged port for a UDP datagram, without its FCS (R11, R504). -/
def ip6Frame (s : State) (x p dstMac src dst sport dport ds fresh : Nat) (bs : List Byte) : List Byte :=
  let v := rd s (portPage x p) fVLAN
  let tag := if v / 4096 = 1 then beBytes 2 0x8100 ++ beBytes 2 (v % 4096) else []
  let u := udpBytes (beBytes 16 src) (beBytes 16 dst) sport dport bs
  beBytes 6 dstMac ++ beBytes 6 (portMac s x p) ++ tag ++ beBytes 2 0x86DD ++
    beBytes 4 (6 * 2 ^ 28 + ds * 2 ^ 20 + Config.ipField 0 fresh % 2 ^ 20) ++ beBytes 2 u.length ++ [17] ++
    beBytes 1 (Config.ipField 1 fresh) ++ beBytes 16 src ++ beBytes 16 dst ++ u

/-- What the egress limiter looks at of a session's frame: its bytes with the FCS (R457). -/
def frameInfo (s : State) (i : Nat) (x : Sess) (bytes : List Byte) : TxFrame :=
  let d := sessXdie i
  let dst := padTo 16 x.address
  { length := bytes.length + 4, tags := rd s (portPage d x.port) fVLAN / 4096, srcMac := BitVec.ofNat 48 (portMac s d x.port)
    dstMac := BitVec.ofNat 48 (rd s (portPage d x.port) fNHMAC)
    kind := if isV4 dst then .ipv4 (BitVec.ofNat 32 (rd s (xPage d 0) fIP4)) (BitVec.ofNat 32 (beNat (dst.drop 12))) true
      else .ipv6 (BitVec.ofNat 128 (xdIp6 s d)) (BitVec.ofNat 128 (beNat dst)) true }

/-- The header of a packet that session i sends now (R340, R350-R352, R360): `seq` and `msg` are 0 in an unsequenced packet; `ends` says
whether it is the first and the last packet of its message; `retx` whether it is sent again. -/
def packetHeader (s : State) (i : Nat) (x : Sess) (o : Out) (seq msg : Word32) (ends : Bool × Bool) (retx : Bool) : ZHdr :=
  let enc := encrypted s x i o
  { type := typeOf o
    flags := b2n enc + 4 * b2n ends.1 + 8 * b2n ends.2 + 16 * b2n x.ceSeen + 32 * b2n retx + 64 * b2n (classOf o == 3)
    tclass := classOf o, session := x.remote.toNat, length := (payloadBytes o).length, pn := x.pnTx + 1, seq := seq.toNat
    ack := x.rxNext.toNat, sack := x.rxSack.toNat, epoch := epochOf o, msg := msg.toNat, ts := s.now % 2 ^ 32, tsEcho := x.tsLast.toNat }

/-- A frame added to what a port has to send (R339). -/
def portQueue (s : State) (x p : Nat) (f : QFrame) : State :=
  portPut s x p { portGet s x p with waiting := (portGet s x p).waiting ++ [f] }

/-- A packet of session i given to its port (R337, R339, R340, R350, R351): it takes the next packet number, and its ACK fields stand for
an ACK packet. A port that is not up loses it. -/
def transmit (s : State) (i : Nat) (x : Sess) (o : Out) (seq msg : Word32) (ends : Bool × Bool) (retx : Bool) : State :=
  let h := packetHeader s i x o seq msg ends retx
  let bytes := frameBytes s i x h.tclass h.pn (zazelBytes x h o)
  let s1 := sessPut s i { x with pnTx := x.pnTx + 1, lastTx := s.now, sinceAck := 0, ceSeen := false }
  let s2 := if portUp s (sessXdie i) x.port then portQueue s1 (sessXdie i) x.port ⟨h.tclass, frameInfo s i x bytes, bytes⟩ else s1
  emit s2 (.packet (portOf (sessXdie i) x.port) h o)

end Sys2Proof.Machine
end

