-- ==== Sys2Proof/Machine/Blocks.lean ====
section
/-! DEFINITION. What every block does alike: Ledger counters (R522), events and vectors (R70-R75), error records (R52), and
the block state machine (R62). -/

namespace Sys2Proof.Machine

/-- VEC_DEST of vector v; VEC_STATUS is the next word (R71). -/
def vecAddr (v : Nat) : Nat := xPage 0 (0x40 + v / 64) * 4096 + 0x100 + 16 * (v % 64)

/-- Whether a vector's entry is valid; vector 0 always is (R72). -/
def vecValid (s : State) (v : Nat) : Bool := v == 0 || bit (regGet s (vecAddr v)) 48

/-- The page of the event-vector table, of the copy from which events are delivered, that vectors 0 to 63 belong to (R71, R76). -/
def vecPage (s : State) : Nat := xPage (b2n s.mirrored) 0x40

/-- Whether session i can be given another packet of this side: it is OPEN and has packet numbers left (R346, R349). -/
def sessTakes (s : State) (i : Nat) : Bool :=
  match sessGet s i with
  | some x => decide (x.phase = .opened) && decide (x.pnTx + 2 < 2 ^ 48)
  | none => false

/-- Whether vector v can hand its message to its destination now: vector 0 needs an active Curator core, any other an
OPEN session (R74). -/
def vecReachable (s : State) (v : Nat) : Bool :=
  if v = 0 then s.boot.active.isSome else sessTakes s (bits (regGet s (vecAddr v)) 0 16)

/-- The event message of vector v (R75), with the number it carries. -/
def vecMessage (s : State) (v seq : Nat) : Out :=
  let d := regGet s (vecAddr v)
  let l := (tfind s.vecLast v).getD ⟨0, 0, 0, 0⟩
  .event (if v = 0 then .curator else .session (BitVec.ofNat 16 (bits d 0 16))) v (bits (regGet s (vecAddr v + 8)) 0 16) seq
    l.time l.source l.raw

/-- An event message on its way: to the Curator, or as an unsequenced EVENT packet on the entry's session (R74, R359). -/
def vecSend (count : State → Nat → State) (s : State) (v : Nat) (m : Out) : State :=
  let i := bits (regGet s (vecAddr v)) 0 16
  if v = 0 then emit s m
  else
    match sessGet s i with
    | some x => count (transmit s i x m 0 0 (true, true) false) (sessXdie i)
    | none => s

/-- Delivery of what is pending on vector v, its condition being met (R74). `count` counts an EVENT packet of an X-die in the Ledger. -/
def vecDeliverBy (count : State → Nat → State) (s : State) (v : Nat) : State :=
  let st := regGet s (vecAddr v + 8)
  if bits st 0 16 = 0 ∨ bit (regGet s (vecAddr v)) 47 = true ∨ vecValid s v = false then s
  else if vecReachable s v then
    let seq := (bits st 32 32 + 1) % 2 ^ 32
    vecSend count (regPut s (vecAddr v + 8) (setBits (setBits st 0 16 0) 32 32 seq)) v (vecMessage s v seq)
  else if v = 0 then s
  else regPut s (vecAddr v + 8) (setBits (setBits st 0 16 0) 16 1 1)

/-- Delivery when PENDING has reached COAL_N (R74). -/
def vecTryBy (count : State → Nat → State) (s : State) (v : Nat) : State :=
  if max 1 (bits (regGet s (vecAddr v)) 16 8) ≤ bits (regGet s (vecAddr v + 8)) 0 16 then vecDeliverBy count s v else s

/-- An event of page pg raised on vector v (R73-R75). -/
def vecRaiseBy (count : State → Nat → State) (s : State) (v pg : Nat) : State :=
  let st := regGet s (vecAddr v + 8)
  if vecValid s v then
    let oldest := if bits st 0 16 = 0 then s.now else ((tfind s.vecLast v).getD ⟨0, 0, 0, s.now⟩).oldest
    let s1 := { s with vecLast := tins s.vecLast v ⟨s.now, pg * 4096, BitVec.ofNat 64 (rd s pg fEVTRAW), oldest⟩ }
    let s2 := regPut s1 (vecAddr v + 8)
      (if bits st 0 16 = 0xFFFF then setBits st 16 1 1 else setBits st 0 16 (bits st 0 16 + 1))
    vecTryBy count s2 v
  else regPut s (vecAddr v + 8) (setBits st 16 1 1)

/-- No event bit of a page has gone to 1. -/
def riseNone : Rise := ⟨0, 0, 0⟩

/-- EVT_RAW bit b of page pg set now, by an event directed to vector 0 or by another (R69, R70). -/
def markEvent (s : State) (pg b : Nat) (zero : Bool) : State :=
  let r := tget riseNone s.rose pg
  let raw := rd s pg fEVTRAW
  let z := if zero = false then r.zero - (r.zero &&& (1 <<< b)) else if raw.testBit b then r.zero else r.zero ||| (1 <<< b)
  { wr s pg fEVTRAW (raw ||| (1 <<< b)) with
    rose := tput riseNone s.rose pg ⟨s.now, (if r.time = s.now then r.bits else 0) ||| (1 <<< b), z⟩ }

/-- Event bit b of page pg, raised on vector v when it goes from 0 to 1 while enabled (R70). -/
def raiseOnBy (count : State → Nat → State) (s : State) (pg b v : Nat) : State :=
  if (rd s pg fEVTRAW).testBit b = false ∧ (rd s pg fEVTEN).testBit b = true then vecRaiseBy count (markEvent s pg b false) v pg
  else markEvent s pg b false

/-- A Ledger counter raised by a weight; `over` is what follows when it wraps (R522). -/
def tallyBy (over_ : State → State) (s : State) (pg i w : Nat) : State :=
  let a := pg * 4096 + 0x840 + 8 * i
  let v := regGet s a
  let sum := bits v 0 48 + w
  if sum < 2 ^ 48 then regPut s a (setBits v 0 48 sum)
  else over_ (regPut s a (setBits (setBits v 0 48 sum) 63 1 1))

/-- An EVENT packet counted (R529) where its message itself reports a counter that has wrapped: the count sets OVF and no event of its
own. -/
def countEventOnce (s : State) (x : Nat) : State := tallyBy id s (ztPage x) (typeIndex 0x08) 1

/-- An EVENT packet of X-die x counted (R522, R529). -/
def countEvent (s : State) (x : Nat) : State :=
  tallyBy (fun t => raiseOnBy countEventOnce t (ztPage x) 3 (rd t (ztPage x) fVECTOR)) s (ztPage x) (typeIndex 0x08) 1

/-- Delivery of what is pending on vector v (R74). -/
def vecDeliver (s : State) (v : Nat) : State := vecDeliverBy countEvent s v

/-- Delivery when PENDING has reached COAL_N (R74). -/
def vecTry (s : State) (v : Nat) : State := vecTryBy countEvent s v

/-- An event of page pg raised on vector v (R73-R75). -/
def vecRaise (s : State) (v pg : Nat) : State := vecRaiseBy countEvent s v pg

/-- Event bit b of page pg, raised on vector v when it goes from 0 to 1 while enabled (R70). -/
def raiseOn (s : State) (pg b v : Nat) : State := raiseOnBy countEvent s pg b v

/-- Event bit b of page pg on the page's own vector (R70). -/
def raise (s : State) (pg b : Nat) : State := raiseOn s pg b (rd s pg fVECTOR)

/-- Event bit b of page pg that goes to vector 0 every time (R70). -/
def raiseZero (s : State) (pg b : Nat) : State := vecRaise (markEvent s pg b true) 0 pg

/-- Ledger counter i of page pg raised by a weight; a wrap sets OVF and EV_BLK_COUNTER_OVF (R522). -/
def tally (s : State) (pg i w : Nat) : State := tallyBy (fun t => raise t pg 3) s pg i w

/-- An error record on page pg (R52): the first is kept, a later one sets OVERFLOW. No counter of R528 and R529 is one of errors lost to
OVERFLOW, so the Ledger counts them where it has a counter of the error's own and nowhere else (DESIGN CHOICE, notes/assumptions/137). -/
def recordErr (s : State) (pg code : Nat) (part : Option Nat) (addr : Nat) (phys : Bool) (detail : Nat) : State :=
  if rd s pg fERRVALID = 1 then wr s pg fERROVF 1
  else
    let w := code + (match part with | some p => p * 2 ^ 8 + 2 ^ 14 | none => 0) + 2 ^ 16 + detail % 2 ^ 32 * 2 ^ 32
    regPut (regPut s (pg * 4096 + 0x038) w) (pg * 4096 + 0x040) (addr % 2 ^ 63 + b2n phys * 2 ^ 63)

/-- A refused register operation recorded on its page, with EV_BLK_REFUSED (R60). -/
def recordRefusal (s : State) (pg code : Nat) (part : Option Nat) (addr : Nat) : State :=
  raise (recordErr s pg code part addr false 0) pg 2

/-- STOPPED. -/
def stStopped : Nat := 0
/-- RUNNING. -/
def stRunning : Nat := 1
/-- STOPPING. -/
def stStopping : Nat := 2
/-- FAULTED. -/
def stFaulted : Nat := 3
/-- ASLEEP. -/
def stAsleep : Nat := 4

/-- STATE of a block (R49). -/
def blkState (s : State) (pg : Nat) : Nat := rd s pg fSTATE

/-- Whether a block is RUNNING. -/
def running (s : State) (pg : Nat) : Bool := blkState s pg == stRunning

/-- CHANGES raised by one, modulo 2^32 (R49). -/
def countChange (s : State) (pg : Nat) : State := wr s pg fCHANGES ((rd s pg fCHANGES + 1) % 2 ^ 32)

/-- RUN written 1 with every check passed: STOPPED to RUNNING (R62). -/
def blockStart (s : State) (pg : Nat) : State := wr (wr s pg fRUN 1) pg fSTATE stRunning

/-- RUN written 0 by a principal: RUNNING to STOPPING (R62). -/
def blockStop (s : State) (pg rank : Nat) : State :=
  wr (wr (wr (wr s pg fRUN 0) pg fSTATE stStopping) pg fCAUSE 1) pg fSTOPSRC rank

/-- A fault detected in a block (R62). -/
def blockFault (s : State) (pg : Nat) : State :=
  if blkState s pg = stStopped then
    raise (wr (wr (wr s pg fRUN 0) pg fSTATE stFaulted) pg fCAUSE 2) pg 1
  else if blkState s pg = stRunning ∨ blkState s pg = stStopping then
    wr (wr (wr (wr s pg fRUN 0) pg fSTATE stStopping) pg fCAUSE 2) pg fSTOPSRC 2
  else s

/-- Frames in flight on the galleries whose control pages are chosen broken: a condition of R328 has failed (R329). -/
def voidFrames (s : State) (sel : Nat → Bool) : State :=
  let broken := fun (k : QAux) => { k with frames := k.frames.map (fun f => { f with void := true }) }
  { s with gals := s.gals.map (fun e => if sel e.1 then (e.1, { e.2 with queues := e.2.queues.map broken }) else e) }

/-- Frames in flight of the partition that owns a page broken by what touches that page (R328). -/
def voidPart (s : State) (pg : Nat) : State :=
  match pageOwner s pg with
  | none => s
  | some p => voidFrames s (fun h => pageOwner s h == some p)

/-- A fault that a block detects, recorded, and the row of R62 for the state the block is in; where no row applies, nothing (R52, R62). -/
def pageFault (s : State) (pg : Nat) (f : PageFault) : State :=
  if blkState s pg = stFaulted ∨ blkState s pg = stAsleep then s
  else blockFault (recordErr (voidPart s pg) pg f.code.toNat (pageOwner s pg) (f.addr.toNat % 2 ^ 63) (bit f.addr.toNat 63) f.detail.toNat) pg

/-- The Curator's partition stop reaching a block (R62, R299). -/
def blockPartStop (s : State) (pg : Nat) : State :=
  if blkState s pg = stRunning then
    wr (wr (wr (wr s pg fRUN 0) pg fSTATE stStopping) pg fCAUSE 3) pg fSTOPSRC 2
  else if blkState s pg = stStopped then wr (wr s pg fCAUSE 3) pg fSTOPSRC 2
  else if blkState s pg = stStopping then
    wr (if rd s pg fCAUSE = 2 then s else wr s pg fCAUSE 3) pg fSTOPSRC 2
  else wr s pg fSTOPSRC 2

/-- The drain of a STOPPING block completing (R62, R63). -/
def blockDrained (s : State) (pg : Nat) : State :=
  if blkState s pg = stStopping then
    if rd s pg fCAUSE = 2 then raise (wr s pg fSTATE stFaulted) pg 1
    else raise (countChange (wr s pg fSTATE stStopped) pg) pg 0
  else s

/-- CLEAR_FAULT written 1: FAULTED to STOPPED (R62). -/
def blockClearFault (s : State) (pg : Nat) : State :=
  if blkState s pg = stFaulted then raise (countChange (wr s pg fSTATE stStopped) pg) pg 0 else s

/-- ASLEEP to STOPPED, which enters STOPPED as EV_BLK_STOPPED reports (R50, R62). -/
def blockWake (s : State) (pg : Nat) : State :=
  if blkState s pg = stAsleep then raise (countChange (wr (wr s pg fSTATE stStopped) pg fCAUSE 4) pg) pg 0 else s

/-- The pages of a gallery in the order of the stop of R66: control, movers, census, array. -/
def galPages (base : Nat) : List Nat := [base, base + 2, base + 3, base + 1]

/-- A word after a reset of some kind: every field whose Reset column lists the kind takes its reset value (R17). -/
def resetFields (fs : List Field) (full : Nat) (k : ResetKind) (w : Nat) : Nat :=
  fs.foldl (fun a f => if f.kinds.has k then setBits a f.lo f.width (bits full f.lo f.width) else a) w

/-- The word of a register after a reset of some kind. -/
def resetReg (code : OrderCode) (fu : Fuses) (k : ResetKind) (a w : Nat) : Nat :=
  match pageInfo code (a / 4096) with
  | none => w
  | some i =>
    match regFields i (a % 4096) with
    | none => w
    | some fs => resetFields fs (resetOf code fu a) k w

/-- Every register of the chosen pages after a reset of some kind (R17, R485); no run has begun on them (R524). -/
def resetRegs (s : State) (k : ResetKind) (sel : Nat → Bool) : State :=
  { s with
    regs := s.regs.filterMap (fun e =>
      if sel (e.1 / 4096) then
        let w := BitVec.ofNat 64 (resetReg s.code s.fuses k e.1 e.2.toNat)
        if w = BitVec.ofNat 64 (resetOf s.code s.fuses e.1) then none else some (e.1, w)
      else some e)
    runs := s.runs.filter (fun r => !sel r.page) }

/-- The registers of command set k of a page whose sets of eight counters begin at index `first`: LDG_SETk_TAG, then the counters
(R521, R523). -/
def setRegs (pg first k : Nat) : List Nat :=
  (pg * 4096 + 0x810 + 8 * k) :: (List.range 8).map (fun i => pg * 4096 + 0x840 + 8 * (first + 8 * k + i))

/-- The start of a command run on set k of a page: its counters become 0, and LDG_SETk_TAG takes the run's TAG and the next SEQ; what
the registers held is kept for the reads of this cycle (R523, R524). -/
def beginRun (s : State) (pg first k tag : Nat) : State :=
  let addrs := setRegs pg first k
  let seq := (bits (regGet s (pg * 4096 + 0x810 + 8 * k)) 40 8 + 1) % 256
  let old : Tab Word64 := addrs.foldl (fun t a => tins t a (BitVec.ofNat 64 (regGet s a))) []
  let now := s.runs.filter (fun r => r.time == s.now)
  let keep := if now.any (fun r => r.old.any (fun e => e.1 == addrs.headD 0)) then now else ⟨s.now, pg, old⟩ :: now
  let s1 := addrs.foldl (fun t a => regPut t a 0) { s with runs := keep }
  regPut s1 (pg * 4096 + 0x810 + 8 * k) (tag % 2 ^ 40 + seq * 2 ^ 40)

/-- What a read of a register in this cycle gives where a run has begun on its command set in this cycle: the previous run's final value
(R524). -/
def runWord (s : State) (a : Nat) : Option Nat :=
  s.runs.findSome? (fun r => if r.time = s.now then (tfind r.old a).map BitVec.toNat else none)

/-- A reset of kind T, G or L reaching one page: CHANGES counts it (R49, R62). -/
def resetPage (s : State) (k : ResetKind) (pg : Nat) : State := countChange (resetRegs s k (fun p => p == pg)) pg

end Sys2Proof.Machine
end

