-- ==== Sys2Proof/Machine/Mail.lean ====
section
/-! DEFINITION. The Curator's pages, its journal (R506, R517) and the mailbox window (R510, R511). -/

namespace Sys2Proof.Machine

/-- The Curator mailbox page of a core (R517). -/
def curPage (c : Nat) : Nat := xPage c 0x20
/-- CUR_ROLE.ROLE. -/
def fROLE : FRef := ⟨0x100, 0, 2⟩
/-- CUR_ROLE.SYNCED. -/
def fSYNCED : FRef := ⟨0x100, 2, 1⟩
/-- CUR_UPD.STATE. -/
def fUPDSTATE : FRef := ⟨0x110, 0, 2⟩
/-- CUR_UPD.UPDATES. -/
def fUPDATES : FRef := ⟨0x110, 16, 16⟩
/-- CUR_UPD.LAST_PAUSE_US. -/
def fPAUSE : FRef := ⟨0x110, 32, 32⟩

/-- The number of journal entries completed at the front of the journal (R506, R517). -/
def journalDone (l : List Journal) : Nat := (l.takeWhile (·.done)).length

/-- CUR_JRNL on both mailbox pages (R506, R517). -/
def showJournal (s : State) : State :=
  let w := s.boot.journal.length % 2 ^ 32 + journalDone s.boot.journal % 2 ^ 32 * 2 ^ 32
  regPut (regPut s (curPage 0 * 4096 + 0x118) w) (curPage 1 * 4096 + 0x118) w

/-- A change, a request or a reset entered in the journal and completed (R506). -/
def journalled (s : State) (what : Nat) : State :=
  showJournal { s with boot := { s.boot with journal := s.boot.journal ++ [⟨what, true⟩] } }

/-- A change of the Curator record written to the copy with the lower SEQ, with a SEQ one above the other's (R497): the copy, then the
other. -/
def writeCopy (copies : List (Nat × CurRec)) (r : CurRec) : List (Nat × CurRec) :=
  match copies with
  | [a, b] => if a.1 ≤ b.1 then [(b.1 + 1, r), b] else [a, (a.1 + 1, r)]
  | _ => copies

/-- The copy that governs: the one with the higher SEQ (R497). -/
def governing (copies : List (Nat × CurRec)) : Nat × CurRec :=
  copies.foldl (fun g c => if g.1 < c.1 then c else g) (0, recordEmpty)

/-- The Curator record changed: in force once the copy is written, read back and verified (R497, R506). -/
def putRecord (s : State) (r : CurRec) : State :=
  journalled { s with boot := { s.boot with rcd := r, copies := writeCopy s.boot.copies r } } 0

/-- A request entered in the journal before it acts (R506). -/
def journalOpen (s : State) (what : Nat) : State :=
  showJournal { s with boot := { s.boot with journal := s.boot.journal ++ [⟨what, false⟩] } }

/-- The first entry of a kind that is not complete marked so. -/
def closeFirst (l : List Journal) (what : Nat) : List Journal :=
  match l with
  | [] => []
  | j :: r => if j.what = what ∧ j.done = false then { j with done := true } :: r else j :: closeFirst r what

/-- A request that the journal holds has completed (R506). -/
def journalClose (s : State) (what : Nat) : State := showJournal { s with boot := { s.boot with journal := closeFirst s.boot.journal what } }

/-- RESULT values of a mailbox request (R511). -/
def mDONE : Nat := 0
/-- DENIED. -/
def mDENIED : Nat := 1
/-- ENCODING. -/
def mENCODING : Nat := 2
/-- STATE. -/
def mSTATE : Nat := 3
/-- VERIFY. -/
def mVERIFY : Nat := 4
/-- ROLLBACK. -/
def mROLLBACK : Nat := 5
/-- RESOURCE. -/
def mRESOURCE : Nat := 6
/-- SESSION. -/
def mSESSION : Nat := 7

/-- A slot nothing has written. -/
def mbxNew : Mbx := ⟨[], 0, 0, 0, [], 0, false, [], 0⟩
/-- Slot k of session i. -/
def mbxGet (s : State) (i k : Nat) : Mbx := tget mbxNew s.boot.mail (16 * i + k)
/-- The state with a slot replaced. -/
def mbxPut (s : State) (i k : Nat) (m : Mbx) : State := { s with boot := { s.boot with mail := tput mbxNew s.boot.mail (16 * i + k) m } }

/-- Whether VECTOR of a request is one that its session may name (R511). -/
def mailVectorOk (s : State) (i v : Nat) : Bool :=
  v == 0xFFFF || (decide (v < 4096) && bit (regGet s (vecAddr v)) 46 && bits (regGet s (vecAddr v)) 0 16 == i)

/-- The page of the active core, or of core 0 where there is none. -/
def activePage (s : State) : Nat := curPage (s.boot.active.getD 0)

/-- A mailbox request ends: the response, its entry in the journal, EV_CUR_MBX, and VECTOR (R70, R506, R511, R517). -/
def mailDone (s : State) (i k result : Nat) (data : List Byte) : State :=
  let m := mbxGet s i k
  let s0 := mbxPut s i k { m with result := result, state := 2, data := data, started := false }
  let s1 := if m.started then journalClose s0 4 else journalled s0 4
  let v := leAt m.request 2 2
  let pg := activePage s1
  let s2 := raise s1 pg 11
  if v < 4096 ∧ mailVectorOk s i v = true then vecRaise s2 v pg else s2

/-- Whether a mailbox request is the one its session executes now (R353, R511): busy, not begun, and no earlier one left. -/
def mailReady (s : State) (i k : Nat) : Bool :=
  let m := mbxGet s i k
  s.boot.active.isSome && m.state == 1 && !m.started &&
    (List.range 16).all (fun j => (mbxGet s i j).state != 1 || (mbxGet s i j).started || decide (m.order ≤ (mbxGet s i j).order))

/-- How a write or read of the mailbox window is answered (R510, R511). -/
inductive MboxOut where
  | ok
  | denied
  | encoding
  deriving DecidableEq, Repr

/-- The check of a write of `len` bytes at a window offset (R510, R511). -/
def mboxWriteCheck (off len : Nat) : MboxOut :=
  if off + len ≤ 0x4000 then (if off % 1024 = 0 ∧ 8 ≤ len ∧ len ≤ 1024 then .ok else .encoding)
  else if 0x1000000 ≤ off ∧ off + len ≤ 0x4000000 then .ok
  else .denied

/-- The check of a read of `len` bytes at a window offset (R510). -/
def mboxReadCheck (off len : Nat) : MboxOut := if 0x4000 ≤ off ∧ off + len ≤ 0x8000 then .ok else .denied

/-- Bytes placed in a sparse byte table. -/
def putBytes (t : List (Nat × Byte)) (off : Nat) (bs : List Byte) : List (Nat × Byte) :=
  match bs with
  | [] => t
  | b :: r => putBytes (tput 0 t off b) (off + 1) r

/-- n bytes of a sparse byte table. -/
def takeBytes (t : List (Nat × Byte)) (off n : Nat) : List Byte := (List.range n).map (fun i => tget 0 t (off + i))

/-- A packet of a write to a request slot: the request begins when its message is complete; while the slot is busy it changes
nothing (R511; notes/assumptions/51). -/
def mboxRequest (s : State) (i k len off : Nat) (bs : List Byte) : State :=
  let m := mbxGet s i k
  if m.state = 1 then s
  else
    let part := putBytes (if m.got = 0 then [] else m.part) off bs
    let got := m.got + bs.length
    if got < len then mbxPut s i k { m with part := part, got := got }
    else
      let req := takeBytes part 0 len
      let last := (List.range 16).foldl (fun n j => max n (mbxGet s i j).order) 0
      mbxPut s i k { request := req, tag := leAt req 4 4, result := 0, state := 1, data := [], order := last + 1, started := false
                     part := [], got := 0 }

/-- A packet of a write to the mailbox window that passed its check: `off` is the window offset of the message, `at_` the
packet's offset within it. -/
def mboxWrite (s : State) (i off len at_ : Nat) (bs : List Byte) : State :=
  if off < 0x4000 then mboxRequest s i (off / 1024) len at_ bs
  else
    let t := tget [] s.boot.staging i
    { s with boot := { s.boot with staging := tput [] s.boot.staging i (putBytes t (off + at_ - 0x1000000) bs) } }

/-- The bytes of a response slot (R511). -/
def mboxResponse (s : State) (i k : Nat) : List Byte :=
  let m := mbxGet s i k
  padTo 1024 ((leBytes 4 m.tag ++ leBytes 1 m.result ++ leBytes 1 m.state ++ leBytes 2 0 ++ m.data).take 1024)

/-- A read of the response region (R510). -/
def mboxRead (s : State) (i off n : Nat) : List Byte :=
  (((List.range 16).flatMap (fun k => mboxResponse s i k)).drop (off - 0x4000)).take n

end Sys2Proof.Machine
end

