-- ==== Sys2Proof/Machine/Mem.lean ====
section
/-! DEFINITION. Storage: the module physical address space (R570), HBM layout and retirement (R244, R249), guarded reads and
writes (R229, R440-R442), the owner table (R448), and the translation of virtual addresses (R251-R256). -/

namespace Sys2Proof.Machine

/-- 2 MiB. -/
def frameSize : Nat := 0x200000

/-- The controller page of stack k (R39, R22). -/
def hbmPage (code : OrderCode) (k : Nat) : Nat :=
  let site := ((stackSites code)[k]?).getD 0
  cPage (site / 4) (0x120 + site % 4)

/-- The end of HBM in the physical space (R570). -/
def hbmEnd (code : OrderCode) : Nat := 2 ^ 36 * stackCount code

/-- Start of module flash (R570). -/
def flashBase : Nat := 0x800000000000
/-- The end of the range that the table of R570 gives module flash, 512 GiB beyond its start: a physical address from there on names nothing,
though frames run on to `flashTop` (DESIGN CHOICE: the row says 8 TiB too; notes/assumptions/28). -/
def flashEnd : Nat := 0x808000000000
/-- The end of the 8 TiB of module flash (R1, R251), which frame g reaches at 2 MiB times g (notes/assumptions/28). -/
def flashTop : Nat := 0x880000000000
/-- Start of the cabinets (R570). -/
def cabBase : Nat := 0xF00000000000
/-- Start of the mailbox window (R570, R510). -/
def mboxBase : Nat := 0xFF0000000000
/-- End of the mailbox window. -/
def mboxEnd : Nat := 0xFF0004000000

/-- Bytes of a cabinet (R227). -/
def cabSize : Nat := 0xC00000

/-- Whether an address is a byte of a cabinet (R570). -/
def isCabinet (a : Nat) : Bool :=
  decide (cabBase ≤ a) && decide ((a - cabBase) / 2 ^ 32 < 4) && decide ((a - cabBase) % 2 ^ 32 / 2 ^ 24 < 68) &&
    decide ((a - cabBase) % 2 ^ 24 < cabSize)

/-- Whether a physical address names storage other than the mailbox window (R570). -/
def isStorage (code : OrderCode) (a : Nat) : Bool :=
  decide (a < hbmEnd code) || (decide (flashBase ≤ a) && decide (a < flashEnd)) || isCabinet a

/-- Whether n bytes at a physical address all lie in HBM or all in module flash: what a bulk message, a check-value run or a stream
may name (R227, R570). -/
def inMemory (code : OrderCode) (a n : Nat) : Bool :=
  decide (a < hbmEnd code ∧ a + n ≤ hbmEnd code) || decide (flashBase ≤ a ∧ a < flashEnd ∧ a + n ≤ flashEnd)

/-- The physical address of cabinet offset o of the gallery behind a control page (R570). -/
def cabAddr (s : State) (pg o : Nat) : Nat :=
  let c := pg / 512
  let p := pg % 512
  let phys := if 0x110 ≤ p then 64 + (p - 0x110) / 4 else physGallery s (64 * c + p / 4)
  cabBase + c * 2 ^ 32 + phys * 2 ^ 24 + o

/-- The stack of an HBM address (R244). -/
def hbmStack (code : OrderCode) (a : Nat) : Nat := a / frameSize % stackCount code

/-- The channel, within its stack, of an HBM address (R244). -/
def hbmChannel (a : Nat) : Nat := a % frameSize / 256 % 32

/-- The reserve location of an HBM address whose channel retires (R249). -/
def reserveAddr (code : OrderCode) (a : Nat) : Nat :=
  let n := stackCount code
  let f := a / frameSize
  let o := a % frameSize
  let local_ := f / n
  let share := o / 8192 * 256 + o % 256
  frameSize * ((31744 + local_ / 32) * n + (f % n + 1) % n) + local_ % 32 * 65536 + share

/-- HBM_CHAN.RETIRED of the channel an HBM address lies in (R263). -/
def retired (s : State) (a : Nat) : Bool :=
  bit (regGet s (hbmPage s.code (hbmStack s.code a) * 4096 + 0x110)) (hbmChannel a)

/-- HBM_CHAN.MIRRORING of the channel an HBM address lies in (R263). -/
def mirroring (s : State) (a : Nat) : Bool :=
  bit (regGet s (hbmPage s.code (hbmStack s.code a) * 4096 + 0x110)) (32 + hbmChannel a)

/-- Where a byte is kept: an HBM byte of a retired channel lies in the reserve of the next stack, which may itself have a
retired channel (R249). -/
def storageFrom (s : State) (fuel a : Nat) : Nat :=
  match fuel with
  | 0 => a
  | n + 1 => if a < hbmEnd s.code ∧ retired s a = true then storageFrom s n (reserveAddr s.code a) else a

/-- Where the byte at a physical address is kept (R249). -/
def storageAddr (s : State) (a : Nat) : Nat := storageFrom s 2 a

/-- The byte kept at a physical address; a byte nothing has written reads 0 (R230, R251; notes/assumptions/6). -/
def memByte (s : State) (a : Nat) : Byte := tget 0 s.mem (storageAddr s a)

/-- The state with one byte written; a byte of a channel being retired goes to its reserve location too (R249). -/
def memPut (s : State) (a : Nat) (b : Byte) : State :=
  let m := tput 0 s.mem (storageAddr s a) b
  { s with mem := if a < hbmEnd s.code ∧ mirroring s a = true ∧ retired s a = false
      then tput 0 m (storageAddr s (reserveAddr s.code a)) b else m }

/-- The error pattern of the granule that holds a physical address (R434). -/
def patOf (s : State) (a : Nat) : List (Nat × Byte) := tget [] s.guard (storageAddr s a / 32)

/-- The owner-table entry of a physical frame: failed on a degraded stack (R250); a frame not listed is free (R448). -/
def frameOwnerOf (s : State) (f : Nat) : Nat :=
  if s.boot.rcd.degraded.contains (f % stackCount s.code) then 0x7E else tget 0x7F s.frameOwner f

/-- Whether an address lies in an HBM frame marked failed: what it holds is uncorrectable data (R250). -/
def frameFailed (s : State) (a : Nat) : Bool := decide (a < hbmEnd s.code) && frameOwnerOf s (a / frameSize) == 0x7E

/-- Whether any HBM frame is marked failed. -/
def anyFailed (s : State) : Bool := s.boot.rcd.degraded != [] || s.frameOwner.any (fun e => e.2 == 0x7E)

/-- Whether the granule that holds an address reads uncorrectable (R250, R437). -/
def granuleBad (s : State) (a : Nat) : Bool := frameFailed s a || (patOf s a != [] && guardDecode (patOf s a) == .bad)

/-- A byte as a checker delivers it, its granule being readable (R437). -/
def deliverByte (s : State) (a : Nat) : Byte :=
  let e := patOf s a
  if e = [] then memByte s a
  else
    match guardDecode e with
    | .corrected p v => memByte s a ^^^ patAt (patCorrect e p v) (a % 32 + 4)
    | _ => memByte s a ^^^ patAt e (a % 32 + 4)

/-- The addresses of the granules that hold bytes [a, a + n). -/
def granulesOf (a n : Nat) : List Nat :=
  if n = 0 then [] else (List.range ((a + n - 1) / 32 - a / 32 + 1)).map (fun i => (a / 32 + i) * 32)

/-- The first granule of a range that reads uncorrectable. -/
def firstBad (s : State) (a n : Nat) : Option Nat :=
  if s.guard = [] ∧ anyFailed s = false then none else (granulesOf a n).find? (fun g => granuleBad s g)

/-- The bytes of a physical range as delivered; the address of the first uncorrectable granule otherwise (R229, R441). -/
def load (s : State) (a n : Nat) : Except Nat (List Byte) :=
  match firstBad s a n with
  | some g => .error g
  | none => .ok ((List.range n).map (fun i => deliverByte s (a + i)))

/-- One granule after a read: a correctable error is written back corrected (R229, R440). -/
def healGranule (s : State) (g : Nat) : State :=
  match guardDecode (patOf s g) with
  | .corrected p v => { s with guard := tput [] s.guard (storageAddr s g / 32) (patCorrect (patOf s g) p v) }
  | _ => s

/-- Whether the granule at an address holds a correctable error (R437). -/
def correctable (s : State) (g : Nat) : Bool := match guardDecode (patOf s g) with | .corrected _ _ => true | _ => false

/-- The place of a row among the rows of every stack: stack k, channel c, row r (R248; notes/assumptions/22). -/
def rowKey (k c r : Nat) : Nat := r * 4096 + 32 * k + c

/-- The row that an HBM address lies in (R244, R248). -/
def hbmRowOf (code : OrderCode) (a : Nat) : Nat := rowKey (hbmStack code a) (hbmChannel a) (Config.hbmRow a)

/-- Correctable errors of HBM granules collected by row (R248). -/
def countRows (s : State) (gs : List Nat) : State :=
  let ks := (gs.filter (fun g => decide (g < hbmEnd s.code))).map (fun g => hbmRowOf s.code (storageAddr s g))
  { s with rowErrs := ks.foldl (fun t k => tput 0 t k (tget 0 t k + 1)) s.rowErrs }

/-- The power, thermal and sideband page (R495). -/
def pwrPage : Nat := xPage 0 0x23
/-- PWR_MODE.IDLE_ACTIVE (R495). -/
def fIDLEACT : FRef := ⟨0x110, 1, 1⟩

/-- An access to the stack of an HBM address in Idle: the stack leaves self-refresh, and its time without access begins anew (R490). -/
def touchStack (s : State) (a : Nat) : State :=
  if a < hbmEnd s.code ∧ rd s pwrPage fIDLEACT = 1 then
    let k := hbmStack s.code (storageAddr s a)
    { s with power := { s.power with selfRefresh := s.power.selfRefresh.filter (· != k), srAt := tput 0 s.power.srAt k s.now } }
  else s

/-- The place of a stored word in the Ledger's order (R529): cabinet, HBM, module flash. -/
def wordPlace (code : OrderCode) (a : Nat) : Nat := if a < hbmEnd code then 1 else if a < flashTop then 2 else 0

/-- A correctable word counted: by place on a scan page, and by its HBM controller (R440, R529). -/
def countWord (s : State) (pg a : Nat) : State :=
  let s1 := tally s pg (wordPlace s.code a) 1
  if a < hbmEnd s.code then tally s1 (hbmPage s.code (hbmStack s.code (storageAddr s a))) 3 1 else s1

/-- Correctable words counted, and by row for the repair of R248. -/
def countWords (s : State) (pg : Nat) (gs : List Nat) : State := gs.foldl (fun t g => countWord t pg g) (countRows s gs)

/-- A range after a read: correctable errors written back, and counted in the Ledger, on the scan page of X-die 0 and the HBM controllers'
(R229, R440, R529). -/
def healRange (s0 : State) (a n : Nat) : State :=
  let s := touchStack s0 a
  if s.guard = [] then s
  else
    let gs := (granulesOf a n).filter (correctable s)
    gs.foldl healGranule (countWords s (xPage 0 0x0C) gs)

/-- A whole-granule or partial write of bytes inside one granule; refused, with nothing changed, when it covers only part of
an uncorrectable word (R442), or any of a failed frame (R250). -/
def storeGranule (s : State) (a : Nat) (bs : List Byte) : Option State :=
  let k := storageAddr s a / 32
  if frameFailed s a then none
  else if bs.length = 32 then
    let s1 := { s with guard := tdel s.guard k }
    some ((List.range 32).foldl (fun t i => memPut t (a + i) (bs.getD i 0)) s1)
  else if granuleBad s a then none
  else
    let s1 := if patOf s a = [] then s else healGranule s a
    some ((List.range bs.length).foldl (fun t i => memPut t (a + i) (bs.getD i 0)) s1)

/-- A write of bytes, granule by granule; the address of the granule that refused it otherwise, earlier granules standing
(R442). -/
def storeFrom (s : State) (fuel a : Nat) (bs : List Byte) : State × Option Nat :=
  match fuel with
  | 0 => (s, none)
  | n + 1 =>
    match bs with
    | [] => (s, none)
    | _ =>
      let k := 32 - a % 32
      match storeGranule s a (bs.take k) with
      | none => (s, some (a / 32 * 32))
      | some s1 => storeFrom s1 n (a + k) (bs.drop k)

/-- A write of bytes to a physical range (R442). -/
def store (s : State) (a : Nat) (bs : List Byte) : State × Option Nat := storeFrom (touchStack s a) (bs.length / 32 + 2) a bs

/-- The identity of module accesses (R448). -/
def identModule : Nat := 0x40

/-- Why an access failed: a resumable or RANGE fault of R256, uncorrectable data in a table or list entry (cause 0x7), a
refusal by the owner table (R448), or uncorrectable data. -/
inductive AccErr where
  | fault (cause : Nat) (level1 : Bool) (toCurator : Bool)
  | table (phys : Nat) (level1 : Bool)
  | owner (phys : Nat)
  | data (phys : Nat)
  deriving DecidableEq, Repr

/-- Whether the owner table lets an identity reach an HBM address (R448); other storage has no owner table. -/
def ownerCheck (s : State) (ident a : Nat) : Except AccErr Unit :=
  if a < hbmEnd s.code then
    let o := frameOwnerOf s (a / frameSize)
    if o = 0x7E then .error (.data a)
    else if ident = identModule ∨ o = ident then .ok () else .error (.owner a)
  else .ok ()

/-- Where a virtual page leads (R253): a physical frame base, or a page of a peer partition with the FAULT_TO of its entry. -/
inductive Place where
  | phys (base : Nat)
  | peer (index : Nat) (rpage : Nat) (toCurator : Bool)
  deriving DecidableEq, Repr

/-- The level-1 base of a partition's root: PART_Cp (R252, R297). -/
def partC (s : State) (p : Nat) : Nat := regGet s (xPage 0 0x0D * 4096 + 0x110 + 24 * p)

/-- A frame of a list whose FRAME field has n bits (R251): ALLOC beyond the list or at an entry that is not VALID, ENCODING where a valid
entry has reserved bits, DATA at a damaged one (R256). -/
def listFrame (n : Nat) (l : List ListEntry) (i : Nat) (level1 toCur : Bool) : Except AccErr Nat :=
  match l[i]? with
  | none => .error (.fault 4 level1 toCur)
  | some (.damaged a) => .error (.table a level1)
  | some (.word w) =>
    if w.getLsbD 31 = false then .error (.fault 4 level1 toCur)
    else if bits w.toNat n (31 - n) ≠ 0 then .error (.fault 3 level1 toCur)
    else .ok (bits w.toNat 0 n)

/-- An 8-byte table entry at a physical address, read with the partition's identity: one that reads uncorrectable, in a failed frame too
(R250), is a DATA fault at the entry's address (R256, R259). -/
def tableWord (s : State) (p a : Nat) (level1 : Bool) : Except AccErr Nat :=
  match ownerCheck s p a with
  | .error (.data _) => .error (.table a level1)
  | .error e => .error e
  | .ok _ =>
    match load s a 8 with
    | .error _ => .error (.table a level1)
    | .ok bs => .ok (leNat bs)

/-- The page-table entry of a virtual address (R252). -/
def pteOf (s : State) (p va : Nat) : Except AccErr Nat :=
  match listFrame 19 (partGet s p).alloc (bits (partC s p) 0 19) true true with
  | .error e => .error e
  | .ok f1 =>
    match tableWord s p (frameSize * f1 + bits (partC s p) 20 4 * 0x20000 + va / 2 ^ 34 * 8) true with
    | .error e => .error e
    | .ok l1 =>
      if bit l1 0 = false then .error (.fault 1 true true)
      else if bits l1 1 7 ≠ 0 ∨ bits l1 45 19 ≠ 0 then .error (.fault 3 true true)
      else
        match listFrame 19 (partGet s p).alloc (bits l1 8 32) true true with
        | .error e => .error e
        | .ok f2 => tableWord s p (frameSize * f2 + bits l1 40 5 * 0x10000 + va % 2 ^ 34 / 2 ^ 21 * 8) false

/-- The translation of the page of a virtual address for a read or a write (R253, R254, R256). -/
def translate (s : State) (p va : Nat) (write : Bool) : Except AccErr Place :=
  if va ≥ 2 ^ 48 then .error (.fault 6 false false)
  else
    match pteOf s p va with
    | .error e => .error e
    | .ok e =>
      let cur := bit e 3
      match bits e 0 2 with
      | 0 => .error (.fault 1 false false)
      | 3 =>
        if bits e 4 4 ≠ 0 ∨ bits e 47 17 ≠ 0 then .error (.fault 3 false cur)
        else if write = true ∧ bit e 2 = false then .error (.fault 2 false cur)
        else .ok (.peer (bits e 8 12) (bits e 20 27) cur)
      | k =>
        if bits e 4 4 ≠ 0 ∨ bits e 40 24 ≠ 0 then .error (.fault 3 false cur)
        else if write = true ∧ bit e 2 = false then .error (.fault 2 false cur)
        else
          match listFrame (if k = 1 then 19 else 22) (if k = 1 then (partGet s p).alloc else (partGet s p).flash) (bits e 8 32) false cur with
          | .error x => .error x
          | .ok f => .ok (.phys ((if k = 1 then 0 else flashBase) + frameSize * f))

/-- The physical address of a virtual address that lies on this module. A page of a peer counts as one the peer cannot be
reached through: only movers and the commit's transfers wait for another module (R254, R571; notes/assumptions/12). -/
def physOf (s : State) (p va : Nat) (write : Bool) : Except AccErr Nat :=
  match translate s p va write with
  | .error e => .error e
  | .ok (.phys b) =>
    match ownerCheck s p (b + va % frameSize) with
    | .error e => .error e
    | .ok _ => .ok (b + va % frameSize)
  | .ok (.peer _ _ cur) => .error (.fault 5 false cur)

/-- Whether the controller of the stack that holds an HBM address is STOPPED: accesses to it are held (R246). -/
def stackHeld (s : State) (a : Nat) : Bool :=
  decide (a < hbmEnd s.code) && blkState s (hbmPage s.code (hbmStack s.code (storageAddr s a))) == stStopped

/-- Whether an access at a virtual address is held (R246; notes/assumptions/156). -/
def heldVa (s : State) (p va : Nat) (write : Bool) : Bool := match physOf s p va write with | .ok a => stackHeld s a | .error _ => false

/-- A virtual range cut at page boundaries, as (address, length). -/
def pieces (fuel va n : Nat) : List (Nat × Nat) :=
  match fuel with
  | 0 => []
  | k + 1 =>
    if n = 0 then []
    else
      let m := min n (frameSize - va % frameSize)
      (va, m) :: pieces k (va + m) (n - m)

/-- The bytes of a virtual range, page by page, with nothing waited for (R571). -/
def vloadPieces (s : State) (p : Nat) (ps : List (Nat × Nat)) : Except (Nat × AccErr) (List Byte) :=
  match ps with
  | [] => .ok []
  | (va, n) :: r =>
    match physOf s p va false with
    | .error e => .error (va, e)
    | .ok a =>
      match load s a n with
      | .error g => .error (va, .data g)
      | .ok bs =>
        match vloadPieces s p r with
        | .error e => .error e
        | .ok cs => .ok (bs ++ cs)

/-- The bytes of a virtual range of partition p. -/
def vload (s : State) (p va n : Nat) : Except (Nat × AccErr) (List Byte) := vloadPieces s p (pieces (n / frameSize + 2) va n)

/-- A virtual range after a read: its correctable errors counted and written back (R229, R440). -/
def vheal (s : State) (p va n : Nat) : State :=
  (pieces (n / frameSize + 2) va n).foldl (fun t r =>
    match physOf t p r.1 false with | .ok a => healRange t a r.2 | .error _ => t) s

/-- A virtual range read, its correctable errors counted and written back (R229). -/
def vfetch (s : State) (p va n : Nat) : Except (Nat × AccErr) (State × List Byte) :=
  match vload s p va n with
  | .error e => .error e
  | .ok bs => .ok (vheal s p va n, bs)

/-- A write of bytes at a virtual address, page by page; the address and reason where it stopped. -/
def vstoreFrom (s : State) (p fuel va : Nat) (bs : List Byte) : State × Option (Nat × AccErr) :=
  match fuel with
  | 0 => (s, none)
  | k + 1 =>
    match bs with
    | [] => (s, none)
    | _ =>
      let m := frameSize - va % frameSize
      match physOf s p va true with
      | .error e => (s, some (va, e))
      | .ok a =>
        match store s a (bs.take m) with
        | (s1, some g) => (s1, some (va, .data g))
        | (s1, none) => vstoreFrom s1 p k (va + m) (bs.drop m)

/-- A write of bytes at a virtual address of partition p. -/
def vstore (s : State) (p va : Nat) (bs : List Byte) : State × Option (Nat × AccErr) :=
  vstoreFrom s p (bs.length / frameSize + 2) va bs

/-- A table cut to the addresses outside [lo, hi). -/
def dropRange {α : Type} (t : List (Nat × α)) (lo hi : Nat) : List (Nat × α) :=
  t.filter (fun e => decide (e.1 < lo) || decide (hi ≤ e.1))

/-- A physical range filled with zero granules carrying valid check bits (R230, R251). -/
def zeroFill (s : State) (a n : Nat) : State :=
  { s with mem := dropRange s.mem a (a + n), guard := dropRange s.guard (a / 32) ((a + n) / 32) }

/-- Where the 256 bytes at an HBM address are kept: in the reserve too while their channel is MIRRORING (R249). -/
def hbmKept (s : State) (a : Nat) : List Nat :=
  storageAddr s a :: (if mirroring s a = true ∧ retired s a = false then [storageAddr s (reserveAddr s.code a)] else [])

/-- An HBM frame filled with zeros, wherever its bytes are kept (R249, R251). -/
def zeroFrame (s : State) (f : Nat) : State :=
  if (List.range (stackCount s.code)).all (fun k => regGet s (hbmPage s.code k * 4096 + 0x110) == 0) then
    zeroFill s (frameSize * f) frameSize
  else
    let gone := fun (a : Nat) => (List.range 8192).any (fun k => (hbmKept s (frameSize * f + 256 * k)).any (fun b => b / 256 == a))
    { s with mem := s.mem.filter (fun e => !gone (e.1 / 256)), guard := s.guard.filter (fun e => !gone (e.1 / 8)) }

end Sys2Proof.Machine
end

