-- ==== Sys2Proof/Machine/Queue.lean ====
section
/-! DEFINITION. Queues and commands (R306-R322): the layout of a command, presentation, acceptance, completion, halting. -/

namespace Sys2Proof.Machine

/-- GC_STATUS.STEP (R330). -/
def fSTEP : FRef := ⟨0x108, 0, 32⟩
/-- GC_STATUS.STALE (R330). -/
def fSTALE : FRef := ⟨0x108, 32, 1⟩
/-- GC_CAT (R330). -/
def fCATBASE : FRef := ⟨0x110, 0, 48⟩
/-- GC_CAT.COUNT. -/
def fCATCOUNT : FRef := ⟨0x110, 48, 16⟩
/-- GC_SNAP.BASE (R330). -/
def fSNAPBASE : FRef := ⟨0x118, 0, 48⟩
/-- GC_SNAP.COUNT. -/
def fSNAPCOUNT : FRef := ⟨0x118, 48, 16⟩
/-- CEN_CFG.LEAD, on the census page (R222). -/
def fLEAD : FRef := ⟨0x100, 3, 1⟩
/-- A field of queue q's registers (R330). -/
def fQ (q off lo w : Nat) : FRef := ⟨0x200 + 0x40 * q + off, lo, w⟩
/-- GQq_CFG.BASE. -/
def fQBASE (q : Nat) : FRef := fQ q 0x00 0 48
/-- GQq_CFG.LOG2. -/
def fQLOG2 (q : Nat) : FRef := fQ q 0x00 48 5
/-- GQq_CFG.EN. -/
def fQEN (q : Nat) : FRef := fQ q 0x00 53 1
/-- GQq_CFG.CPL_LOG2. -/
def fQCPLLOG2 (q : Nat) : FRef := fQ q 0x00 54 5
/-- GQq_CPL.BASE. -/
def fQCPL (q : Nat) : FRef := fQ q 0x08 0 48
/-- GQq_TAIL.TAIL. -/
def fQTAIL (q : Nat) : FRef := fQ q 0x10 0 32
/-- GQq_PTR.HEAD. -/
def fQHEAD (q : Nat) : FRef := fQ q 0x18 0 32
/-- GQq_PTR.DONE. -/
def fQDONE (q : Nat) : FRef := fQ q 0x18 32 32
/-- GQq_STATE.STATE. -/
def fQSTATE (q : Nat) : FRef := fQ q 0x20 0 2
/-- GQq_STATE.HALT_STATUS. -/
def fQHSTATUS (q : Nat) : FRef := fQ q 0x20 8 8
/-- GQq_STATE.HALT_INDEX. -/
def fQHINDEX (q : Nat) : FRef := fQ q 0x20 32 32
/-- GQq_VEC.VECTOR. -/
def fQVEC (q : Nat) : FRef := fQ q 0x30 0 12

/-- The page of partition records. -/
def rootPage : Nat := xPage 0 0x0D
/-- PART_Ap.STATE (R297). -/
def fPSTATE (p : Nat) : FRef := ⟨0x100 + 24 * p, 0, 3⟩
/-- PART_Ap.DEADLINE. -/
def fPDEADLINE (p : Nat) : FRef := ⟨0x100 + 24 * p, 3, 1⟩
/-- PART_Ap.GALLERIES. -/
def fPGALS (p : Nat) : FRef := ⟨0x100 + 24 * p, 8, 9⟩
/-- PART_Ap.EPOCH. -/
def fPEPOCH (p : Nat) : FRef := ⟨0x100 + 24 * p, 32, 32⟩
/-- PART_Bp.FRAMES. -/
def fPFRAMES (p : Nat) : FRef := ⟨0x108 + 24 * p, 0, 20⟩
/-- PART_Bp.FLASH. -/
def fPFLASH (p : Nat) : FRef := ⟨0x108 + 24 * p, 32, 23⟩
/-- PART_Cp.L1_AIDX. -/
def fPL1 (p : Nat) : FRef := ⟨0x110 + 24 * p, 0, 19⟩
/-- PART_Cp.L1_SLOT. -/
def fPL1SLOT (p : Nat) : FRef := ⟨0x110 + 24 * p, 20, 4⟩
/-- PART_Cp.STEP. -/
def fPSTEP (p : Nat) : FRef := ⟨0x110 + 24 * p, 32, 32⟩

/-- The queue status codes of R316. -/
def cDONE : Nat := 0x00
/-- REFUSED_EPOCH. -/
def cREFEPOCH : Nat := 0x01
/-- REFUSED_DESCRIPTOR. -/
def cREFDESC : Nat := 0x02
/-- REFUSED_OWNER. -/
def cREFOWNER : Nat := 0x03
/-- REFUSED_STEP. -/
def cREFSTEP : Nat := 0x04
/-- FAILED_DATA. -/
def cFDATA : Nat := 0x05
/-- FAILED_CORRELATED. -/
def cFCORR : Nat := 0x06
/-- FAILED_MOVER. -/
def cFMOVER : Nat := 0x07
/-- FAILED_RING. -/
def cFRING : Nat := 0x08
/-- CANCELLED. -/
def cCANCEL : Nat := 0x09
/-- FAILED_COMMIT. -/
def cFCOMMIT : Nat := 0x0A
/-- DEPENDENCY. -/
def cDEPEND : Nat := 0x0B

/-- OPCODE of a command's bytes (R309). -/
def cmdOp (b : List Byte) : Nat := leAt b 0 1
/-- FLAGS (R309). -/
def cmdFlags (b : List Byte) : Nat := leAt b 1 1
/-- CAT_INDEX (R309). -/
def cmdCat (b : List Byte) : Nat := leAt b 2 2
/-- STEP (R309). -/
def cmdStep (b : List Byte) : Nat := leAt b 4 4
/-- TAG (R309). -/
def cmdTag (b : List Byte) : Nat := leAt b 8 5
/-- EPOCH (R309). -/
def cmdEpoch (b : List Byte) : Nat := leAt b 16 4

/-- What stands for a slot that cannot be read: OPCODE 0x00, TAG 0 and a step (R315). -/
def blankCmd (step : Nat) : List Byte := leBytes 4 0 ++ leBytes 4 step ++ List.replicate 120 0

/-- The first byte at or after off, of n bytes, that is not 0. -/
def firstSet (b : List Byte) (off n : Nat) : Option Nat :=
  (List.range n).find? (fun i => leAt b (off + i) 1 != 0) |>.map (· + off)

/-- The active galleries a partition owns, ascending (R295). -/
def partGals (s : State) (p : Nat) : List Nat := (List.range 256).filter (fun g => pageOwner s (galPage g) == some p)

/-- The partition's lead gallery on the module: the one marked LEAD, if it is not stale (R222, R313). -/
def leadOf (s : State) (p : Nat) : Option Nat :=
  (partGals s p).find? (fun g => rd s (galPage g + 3) fLEAD == 1 && rd s (galPage g) fSTALE == 0)

/-- Queue q of a gallery beyond its registers. -/
def qaux (s : State) (g q : Nat) : QAux := (galGet s (galPage g)).queues.getD q queueIdle

/-- The state with queue q of a gallery replaced. -/
def qauxPut (s : State) (g q : Nat) (x : QAux) : State :=
  galPut s (galPage g) { galGet s (galPage g) with queues := setAt (galGet s (galPage g)).queues q x }

/-- What ERR_ADDR holds of a failed access to partition memory: the virtual address of a translation fault of any cause, else the
physical address (R52, R571). -/
def errPlace (va : Nat) (e : AccErr) : Nat × Bool :=
  match e with
  | .owner a => (a, true)
  | .data a => (a, true)
  | .table _ _ => (va, false)
  | .fault _ _ _ => (va, false)

/-- A stack degraded: EV_HBM_STACK_DEGRADED, and its frames marked failed (R250, R265). -/
def degradeStack (s : State) (k : Nat) : State :=
  let s1 := raise s (hbmPage s.code k) 11
  if s1.boot.rcd.degraded.contains k then s1
  else putRecord s1 { s1.boot.rcd with degraded := k :: s1.boot.rcd.degraded }

/-- An uncorrectable word of HBM met: a second word of one channel within 1 s is a failure of the channel, which degrades its stack before
the channel is retired (R250, R439; DEDUCED, notes/assumptions/160). -/
def badChannel (s : State) (a : Nat) : State :=
  let b := storageAddr s a
  let k := hbmStack s.code b
  let key := 32 * k + hbmChannel b
  let s1 := tally { s with badWords := tins s.badWords key (b / 32, s.now) } (hbmPage s.code k) 4 1
  match tfind s.badWords key with
  | some (g, t) => if g ≠ b / 32 ∧ s.now < t + 1000000000 ∧ s.boot.rcd.degraded.contains k = false then degradeStack s1 k else s1
  | none => s1

/-- A stored word that a check found uncorrectable, counted by place (R440, R529): of HBM, with its channel. -/
def countBad (s : State) (pg a : Nat) : State :=
  if granuleBad s a = false then s
  else
    let s1 := tally s pg (6 + wordPlace s.code a) 1
    if a < hbmEnd s.code then badChannel s1 a else s1

/-- Uncorrectable data consumed by the block of page pg: CODE 0x06 with the word's physical address (R441). -/
def recordBad (s : State) (pg : Nat) (part : Option Nat) (a : Nat) : State := countBad (recordErr s pg 0x06 part a true 0) (xPage 0 0x0C) a

/-- The failure of an access to partition memory, recorded on a page: a translation fault or bad data as uncorrectable
(R571), an owner mismatch with CODE 0x07 (R448). -/
def recordAccess (s : State) (pg : Nat) (part : Option Nat) (va : Nat) (e : AccErr) : State :=
  let s1 := match e with | .data a => countBad s (xPage 0 0x0C) a | .table a _ => countBad s (xPage 0 0x0C) a | _ => s
  recordErr s1 pg (match e with | .owner _ => 0x07 | _ => 0x06) part (errPlace va e).1 (errPlace va e).2 0

/-- The bytes of the slot with an index (R306). -/
def slotRead (s : State) (g q index : Nat) : Except (Nat × AccErr) (List Byte) :=
  let pg := galPage g
  match pageOwner s pg with
  | none => .error (0, .fault 1 true false)
  | some p => vload s p (rd s pg (fQBASE q) + index % 2 ^ rd s pg (fQLOG2 q) * 128) 128

/-- The entry of DONE after the completions recorded ahead of it (R317). -/
def doneAfter (fuel done : Nat) (ahead : List Nat) : Nat :=
  match fuel with
  | 0 => done
  | n + 1 => if ahead.contains done then doneAfter n ((done + 1) % 2 ^ 32) ahead else done

/-- Which bin of a histogram with base B a latency falls in (R530). -/
def histBin (base l : Nat) : Nat :=
  ((List.range 15).find? (fun i => decide (l < base * 2 ^ i))).getD 15

/-- The latency of a frame that ended on a gallery of a deadline partition (R329). -/
def noteLatency (s : State) (g : Nat) (f : FrameRun) : State :=
  let pg := galPage g
  let us := (s.now - f.start) / 1000
  match pageOwner s pg with
  | none => s
  | some p =>
    if rd s rootPage (fPDEADLINE p) = 0 then s
    else
      let s2 := wr (wr s pg ⟨0x128, 0, 32⟩ (min us 0xFFFFFFFF)) pg ⟨0x128, 63, 1⟩ (b2n f.void)
      let bound := rd s pg ⟨0x120, 0, 32⟩
      if bound ≠ 0 ∧ us > bound then raise (bump s2 pg ⟨0x128, 32, 31⟩ 1) pg 13 else s2

/-- A command with FRAME_END taken from HEAD: the frames of its queue that no earlier command ends will end as it completes (R328). -/
def noteEnder (s : State) (g q index : Nat) (b : List Byte) : State :=
  if (cmdFlags b).testBit 3 then
    let x := qaux s g q
    qauxPut s g q { x with frames := x.frames.map (fun f => { f with ender := some (f.ender.getD index) }) }
  else s

/-- The frames that end as a command completes, each with its latency (R328, R329). -/
def frameEnd (s : State) (g q index : Nat) : State :=
  let x := qaux s g q
  let ended := x.frames.filter (fun f => f.ender == some index)
  ended.foldl (fun t f => noteLatency t g f) (qauxPut s g q { x with frames := x.frames.filter (fun f => f.ender != some index) })

/-- The completion record of R316. -/
def cplRecord (index status attempts detail : Nat) (b : List Byte) : List Byte :=
  leBytes 4 index ++ leBytes 1 status ++ leBytes 1 (cmdOp b) ++ leBytes 2 attempts ++ leBytes 4 (cmdStep b) ++
    leBytes 5 (cmdTag b) ++ leBytes 7 0 ++ leBytes 8 detail

/-- A queue halted by a command, if nothing halted it before (R317). -/
def haltQueue (s : State) (g q index status : Nat) : State :=
  let pg := galPage g
  if rd s pg (fQSTATE q) = 2 then s
  else wr (wr (wr s pg (fQSTATE q) 2) pg (fQHSTATUS q) status) pg (fQHINDEX q) index

/-- The completion record written, and the status that then halts the queue: FAILED_DATA when the record cannot be written
(R571). -/
def writeRecord (s : State) (g q index status attempts detail : Nat) (b : List Byte) : State × Nat :=
  let pg := galPage g
  if (cmdFlags b).testBit 0 = true ∨ status ≠ cDONE then
    match pageOwner s pg with
    | none => (s, status)
    | some p =>
      match vstore s p (rd s pg (fQCPL q) + index % 2 ^ rd s pg (fQCPLLOG2 q) * 32) (cplRecord index status attempts detail b) with
      | (s1, none) => (s1, status)
      | (s1, some (va, e)) => (recordAccess s1 pg (some p) va e, cFDATA)
  else (s, status)

/-- DONE advanced over every leading completed index (R317). -/
def advanceDone (s : State) (g q index : Nat) : State :=
  let pg := galPage g
  let x := qaux s g q
  let ahead := index :: x.ahead
  let d := doneAfter (ahead.length + 1) (rd s pg (fQDONE q)) ahead
  let x1 := { x with ahead := ahead.filter (fun i => decide ((i + 2 ^ 32 - d) % 2 ^ 32 < 2 ^ 31)) }
  wr (qauxPut s g q x1) pg (fQDONE q) d

/-- A command that ended other than DONE makes its step incomplete (R284, R322). -/
def noteFailure (s : State) (g status step : Nat) : State :=
  match pageOwner s (galPage g) with
  | none => s
  | some p =>
    let x := partGet s p
    if status ≠ cDONE ∧ x.stp.failed.contains step = false then
      partPut s p { x with stp := { x.stp with failed := step :: x.stp.failed } }
    else s

/-- The completion of a command (R316, R317): its record, DONE, the halt, its event, the Ledger and the frame it ends. -/
def completeCmd (s : State) (g q index status attempts detail : Nat) (b : List Byte) (counts : Bool) : State :=
  let pg := galPage g
  let x := galGet s pg
  let s0 := galPut s pg { x with begun := x.begun.filter (fun c => !(c.queue == q && c.index == index)) }
  let (s1, halt) := writeRecord s0 g q index status attempts detail b
  let s2 := advanceDone s1 g q index
  let s3 := if halt ≠ cDONE ∧ counts = true then haltQueue s2 g q index halt else s2
  let s4 := if status ≠ cDONE then tally s3 pg (4 + q) 1 else s3
  let s5 := if status = cCANCEL then tally s4 pg 30 1 else s4
  let s6 := if counts then noteFailure s5 g status (cmdStep b) else s5
  let s7 := if (cmdFlags b).testBit 3 then frameEnd s6 g q index else s6
  if (cmdFlags b).testBit 1 = true ∨ status ≠ cDONE then raiseOn s7 pg (8 + q) (rd s7 pg (fQVEC q)) else s7

/-- Whether the conditions of R315 that do not look at the slot let queue q accept. -/
def queueOpen (s : State) (g q : Nat) : Bool :=
  let pg := galPage g
  running s pg && rd s pg fSTALE == 0 && rd s pg (fQEN q) == 1 && rd s pg (fQSTATE q) != 2 &&
    rd s pg (fQTAIL q) != rd s pg (fQHEAD q) && (qaux s g q).heldBy == []

/-- Why a check of R315 fails: a status with the code recorded, the first offending byte, and a record on the movers page
(R235) or the census page (R202); or a table that cannot be read. -/
inductive Check where
  | pass
  | refuse (status code byte : Nat)
  | movDesc (m byte : Nat)
  | cenIndex (index byte : Nat)
  | unreadable (va : Nat) (e : AccErr)
  deriving DecidableEq, Repr

/-- The first check of a list that fails. -/
def firstFail (l : List Check) : Check :=
  match l with
  | [] => .pass
  | .pass :: r => firstFail r
  | c :: _ => c

/-- The entries of a FENCE: (queue id, index) (R318). -/
def fenceEntries (b : List Byte) : List (Nat × Nat) :=
  (List.range (leAt b 32 1)).map (fun i => (leAt b (40 + 8 * i) 2, leAt b (44 + 8 * i) 4))

/-- The reserved bytes of each opcode's operands that must be 0, as (offset, length) (R310, R311, R318). -/
def reservedBytes (b : List Byte) : List (Nat × Nat) :=
  match cmdOp b with
  | 0x01 => [(92, 36)]
  | 0x02 => [(39, 89)]
  | 0x03 => [(67, 1), (72, 56)]
  | 0x04 => [(77, 3), (88, 40)]
  | 0x05 => [(38, 90)]
  | 0x06 => [(50, 78)]
  | 0x07 => [(39, 89)]
  | 0x08 => [(33, 7), (40 + 8 * min (leAt b 32 1) 8, 88 - 8 * min (leAt b 32 1) 8)] ++
      (List.range (min (leAt b 32 1) 8)).map (fun i => (42 + 8 * i, 2))
  | 0x0A => [(36, 92)]
  | _ => [(32, 96)]

/-- The bits of operand bytes that are reserved, as (byte, first reserved bit) (R310, R311). -/
def reservedBits (b : List Byte) : List (Nat × Nat) :=
  match cmdOp b with
  | 0x01 => [(47, 4), (67, 2)]
  | 0x02 => [(38, 1)]
  | 0x03 => [(38, 6), (39, 2)]
  | 0x04 => [(76, 3)]
  | 0x06 => [(49, 1)]
  | _ => []

/-- Order 3 of R315: OPCODE and FLAGS defined, reserved bytes and encodings 0. -/
def checkFormat (b : List Byte) : Bool :=
  decide (cmdOp b ≤ 0x0A) && cmdFlags b / 16 == 0 && (firstSet b 13 3).isNone && (firstSet b 20 12).isNone &&
    (reservedBytes b).all (fun r => (firstSet b r.1 r.2).isNone) &&
    (reservedBits b).all (fun r => leAt b r.1 1 / 2 ^ r.2 == 0) &&
    (cmdOp b == 1 || cmdOp b == 4 || cmdOp b == 6 || cmdCat b == 0xFFFF) &&
    (cmdOp b != 8 || (decide (1 ≤ leAt b 32 1) && decide (leAt b 32 1 ≤ 8)))

/-- Whether partition p owns the gallery of a queue id (R319). -/
def ownsQueue (s : State) (p id : Nat) : Bool := decide (id < 1024) && pageOwner s (galPage (id / 4)) == some p

/-- Whether a FENCE's named queue has halted before its INDEX (R318). -/
def fenceHalted (s : State) (e : Nat × Nat) : Bool :=
  let pg := galPage (e.1 / 4)
  rd s pg (fQSTATE (e.1 % 4)) == 2 && decide ((e.2 + 2 ^ 32 - rd s pg (fQHINDEX (e.1 % 4)) - 1) % 2 ^ 32 < 2 ^ 31)

/-- Whether the commands of a FENCE entry's queue before its INDEX have completed (R318). -/
def fenceMet (s : State) (e : Nat × Nat) : Bool :=
  decide ((rd s (galPage (e.1 / 4)) (fQDONE (e.1 % 4)) + 2 ^ 32 - e.2) % 2 ^ 32 < 2 ^ 31)

/-- Whether an entry of a FENCE on queue q names that queue with an INDEX above its own (R318). -/
def fenceSelf (g q index : Nat) (e : Nat × Nat) : Bool :=
  e.1 == 4 * g + q && decide ((e.2 + 2 ^ 32 - index) % 2 ^ 32 < 2 ^ 31) && e.2 != index

/-- Whether a FENCE command at HEAD may be accepted: it will be refused, a named queue has halted, or all are met. -/
def fenceReady (s : State) (g q index : Nat) (b : List Byte) : Bool :=
  let es := fenceEntries b
  match pageOwner s (galPage g) with
  | none => true
  | some p => !checkFormat b || es.any (fun e => !ownsQueue s p e.1) || es.any (fenceSelf g q index) || es.any (fenceHalted s) ||
      es.all (fenceMet s)

/-- Whether the read of a queue slot is held because the controller of its stack is STOPPED (R246). -/
def slotHeld (s : State) (g q index : Nat) : Bool :=
  let pg := galPage g
  heldVa s ((pageOwner s pg).getD 0) (rd s pg (fQBASE q) + index % 2 ^ rd s pg (fQLOG2 q) * 128) false

/-- The command at HEAD that R315 lets the gallery accept now: its index, and its bytes or why its slot cannot be read. -/
def headCommand (s : State) (g q : Nat) : Option (Nat × Except (Nat × AccErr) (List Byte)) :=
  if queueOpen s g q = true ∧ slotHeld s g q (rd s (galPage g) (fQHEAD q)) = false then
    let pg := galPage g
    let index := rd s pg (fQHEAD q)
    match slotRead s g q index with
    | .error e => some (index, .error e)
    | .ok b =>
      let fenceOk := (cmdFlags b).testBit 2 == false || rd s pg (fQDONE q) == index
      let stepOk := cmdStep b != (rd s pg fSTEP + 1) % 2 ^ 32
      let isFence := cmdOp b == 8
      if fenceOk && stepOk && (!isFence || fenceReady s g q index b) then some (index, .ok b) else none
  else none

/-- Whether watch w of a gallery is armed and matches a command's TAG and STEP (R540, R542). -/
def watchMatch (s : State) (pg w : Nat) (b : List Byte) : Bool :=
  let cfg := regGet s (pg * 4096 + 0x600 + 0x40 * w)
  let same := if bit cfg 40 then bits cfg 4 36 == cmdTag b / 16 else bits cfg 0 40 == cmdTag b
  bit cfg 43 && same && regGet s (pg * 4096 + 0x608 + 0x40 * w) == cmdStep b

/-- The tensor watches of a gallery that match an accepted command: MATCHED is set (R540, R542). -/
def noteWatches (s : State) (g : Nat) (b : List Byte) : State :=
  let pg := galPage g
  (List.range 4).foldl (fun t w => if watchMatch t pg w b then wr t pg ⟨0x620 + 0x40 * w, 50, 1⟩ 1 else t) s

/-- The TAIL write that presented an index, and the later ones (R530). -/
def presentedAt (tails : List (Nat × Nat)) (index : Nat) : Option Nat :=
  (tails.find? (fun e => decide ((e.1 + 2 ^ 32 - index - 1) % 2 ^ 32 < 2 ^ 31))).map (·.2)

/-- HEAD advanced over an accepted command; the queue is ACTIVE (R315, R330). -/
def takeHead (s : State) (g q index : Nat) : State :=
  let pg := galPage g
  tally (wr (wr s pg (fQHEAD q) ((index + 1) % 2 ^ 32)) pg (fQSTATE q) 1) pg q 1

/-- The queue-wait histogram entry of a command that was not refused (R530). -/
def noteWait (s : State) (g q index : Nat) : State :=
  let x := qaux s g q
  let s1 := match presentedAt x.tails index with
    | some t => tally s (galPage g) (8 + histBin 1024 (s.now - t)) 1
    | none => s
  qauxPut s1 g q { x with tails := x.tails.filter (fun e => decide ((e.1 + 2 ^ 32 - index - 2) % 2 ^ 32 < 2 ^ 31)) }

/-- The DETAIL value of a refusal at Orders 5 to 8 (R315). -/
def refuseDetail (q index byte : Nat) : Nat := q + index % 2 ^ 24 * 2 ^ 8 + byte * 2 ^ 32

/-- A command that fails a check of Orders 5 to 8: the records, and its completion (R315). -/
def failCheck (s : State) (g q index : Nat) (b : List Byte) (c : Check) : State :=
  let pg := galPage g
  let own := pageOwner s pg
  match c with
  | .pass => s
  | .refuse st code byte =>
    completeCmd (recordErr s pg code own 0 false (refuseDetail q index byte)) g q index st 1 (refuseDetail q index byte) b true
  | .movDesc m byte =>
    let s1 := raise (recordErr s (pg + 2) 0x81 own 0 false (byte + m * 2 ^ 8)) (pg + 2) 12
    completeCmd (recordErr s1 pg 0x81 own 0 false (refuseDetail q index 0xFF)) g q index cREFDESC 1 (refuseDetail q index 0xFF) b true
  | .cenIndex i byte =>
    let s1 := tally (raise (recordErr s (pg + 3) 0x80 own 0 false i) (pg + 3) 8) (pg + 3) 2 1
    completeCmd (recordErr s1 pg 0x81 own 0 false (refuseDetail q index byte)) g q index cREFDESC 1 (refuseDetail q index byte) b true
  | .unreadable va e =>
    completeCmd (recordAccess s pg own va e) g q index cFDATA 1 0 b true

/-- The slot of a command after it is read (R440). -/
def slotHeal (s : State) (g q index : Nat) : State :=
  let pg := galPage g
  match pageOwner s pg with
  | some p => vheal s p (rd s pg (fQBASE q) + index % 2 ^ rd s pg (fQLOG2 q) * 128) 128
  | none => s

/-- Acceptance of the command at HEAD by a row of the table (R315). `mine` says whether the command is the row's; a slot that
cannot be read, or whose operation is reserved, is taken by any row. `check` is Orders 5 to 8; `start` is what an accepted
command that passed does next. -/
def acceptRow (s : State) (g q : Nat) (mine : List Byte → Bool) (check : State → Nat → List Byte → Check)
    (start : State → Nat → List Byte → State) : State :=
  let pg := galPage g
  match headCommand s g q with
  | none => s
  | some (index, .error (va, e)) =>
    completeCmd (recordAccess (takeHead s g q index) pg (pageOwner s pg) va e) g q index cFDATA 1 0 (blankCmd (rd s pg fSTEP)) true
  | some (index, .ok b) =>
    if mine b then
      let s1 := noteEnder (takeHead (slotHeal s g q index) g q index) g q index b
      if cmdEpoch b ≠ rd s pg fEPOCH then
        completeCmd (tally (recordErr s1 pg 0x05 (pageOwner s pg) 0 false 0) pg 29 1) g q index cREFEPOCH 1 0 b true
      else if checkFormat b = false then completeCmd s1 g q index cREFDESC 1 0 b true
      else if cmdStep b ≠ rd s pg fSTEP ∨ (qaux s g q).stepEnded = true then completeCmd s1 g q index cREFSTEP 1 0 b true
      else
        match check s1 index b with
        | .pass => start (noteWatches (noteWait s1 g q index) g b) index b
        | c => failCheck s1 g q index b c
    else s

/-- Whether a command's operation code is reserved: any row takes it, and it is refused (R310, R572). -/
def reservedOp (b : List Byte) : Bool := decide (cmdOp b > 0x0A)

/-- A command that has passed its checks, kept as begun (R315). -/
def begunOf (q index : Nat) (b : List Byte) (word : Nat) (eA eW : Int) (ph : RunPhase) : Begun :=
  { queue := q, index := index, bytes := b, attempts := 1, phase := ph, word := BitVec.ofNat 64 word, expA := eA, expW := eW,
    bufA := [], bufW := [], bufC := [], loaded := 0, drained := 0, hops := 0, cursor := 0, accSlots := [], init := [], narrow := [],
    shadow := [], bins := [], watchAt := [], side := [], tvec := [], lowU := [], lowV := [], carry := [], reopened := false, kept := [] }

/-- The state with a command added to a gallery's begun commands. -/
def addBegun (s : State) (g : Nat) (c : Begun) : State :=
  galPut s (galPage g) { galGet s (galPage g) with begun := (galGet s (galPage g)).begun ++ [c] }

/-- The begun command of a queue with an index. -/
def begunFind (s : State) (g q index : Nat) : Option Begun :=
  (galGet s (galPage g)).begun.find? (fun c => c.queue == q && c.index == index)

/-- The state with a begun command replaced. -/
def begunPut (s : State) (g : Nat) (c : Begun) : State :=
  galPut s (galPage g) { galGet s (galPage g) with
    begun := (galGet s (galPage g)).begun.map (fun d => if d.queue == c.queue && d.index == c.index then c else d) }

/-- A begun command that has ended with a status and a detail; an end already decided stands. -/
def endBegun (s : State) (g q index status detail : Nat) : State :=
  match begunFind s g q index with
  | some c =>
    match c.phase with
    | .ended _ _ => s
    | _ => begunPut s g { c with phase := .ended status detail }
  | none => s

/-- The completion of a begun command that has ended; nothing while it has not (R316). -/
def completeBegun (s : State) (g q index : Nat) : State :=
  match begunFind s g q index with
  | some c =>
    match c.phase with
    | .ended st d => completeCmd s g q index st c.attempts d c.bytes true
    | _ => s
  | none => s

/-- Whether a TAIL value may be written (R307). -/
def tailOk (s : State) (g q tail : Nat) : Bool :=
  let pg := galPage g
  let sub := fun (a b : Nat) => (a + 2 ^ 32 - b) % 2 ^ 32
  decide (sub tail (rd s pg (fQDONE q)) ≤ 2 ^ rd s pg (fQLOG2 q)) &&
    decide (sub (rd s pg (fQTAIL q)) (rd s pg (fQHEAD q)) ≤ sub tail (rd s pg (fQHEAD q)))

/-- The time of a TAIL write that took effect (R530). -/
def noteTail (s : State) (g q tail : Nat) : State :=
  let x := qaux s g q
  qauxPut s g q { x with tails := x.tails ++ [(tail, s.now)] }

/-- RESUME on a halted queue (R317). -/
def queueResume (s : State) (g q : Nat) : State := wr s (galPage g) (fQSTATE q) 1

/-- Every command from HEAD to TAIL completed with CANCELLED, `n` of them (R317, R322). A slot that cannot be read gives a
blank record with a step. -/
def cancelFrom (s : State) (g q step n : Nat) (counts : Bool) : State :=
  match n with
  | 0 => s
  | n + 1 =>
    let pg := galPage g
    let index := rd s pg (fQHEAD q)
    let b := match slotRead s g q index with | .ok b => b | .error _ => blankCmd step
    let s1 := noteEnder (wr s pg (fQHEAD q) ((index + 1) % 2 ^ 32)) g q index b
    cancelFrom (completeCmd s1 g q index cCANCEL 0 0 b counts) g q step n counts

/-- How many commands stand between HEAD and TAIL. -/
def waitingCount (s : State) (g q : Nat) : Nat :=
  (rd s (galPage g) (fQTAIL q) + 2 ^ 32 - rd s (galPage g) (fQHEAD q)) % 2 ^ 32

/-- FLUSH on a halted queue (R317). -/
def queueFlush (s : State) (g q : Nat) : State :=
  queueResume (cancelFrom s g q (rd s (galPage g) fSTEP) (waitingCount s g q) true) g q

end Sys2Proof.Machine
end

