-- ==== Sys2Proof/Machine/Ops.lean ====
section
/-! DEFINITION. Operations that several families share: whether the module can act, sideband alerts (R495), rings (R368), port
links (R337), gallery resets and fills (R230, R303, R304), session closure (R349), ranges of bytes, and the Curator's pages. -/

namespace Sys2Proof.Machine

/-- An effect that needs the module powered and out of reset (R471, R487): nothing otherwise. -/
def alive (s : State) (f : State → State) : State := if s.power.phase = .on ∧ s.power.mReset = false then f s else s

/-- ALERT_SRC (R495). -/
def fALERT : FRef := ⟨0x130, 0, 6⟩
/-- ALERT_EN (R495). -/
def fALERTEN : FRef := ⟨0x128, 0, 6⟩
/-- PWR_CAUSE.KIND (R495). -/
def fPCAUSE : FRef := ⟨0x108, 0, 4⟩
/-- PWR_CAUSE.RAIL (R495). -/
def fPRAIL : FRef := ⟨0x108, 4, 8⟩
/-- RST_REQ.KIND (R495). -/
def fRKIND : FRef := ⟨0x118, 0, 3⟩
/-- RST_REQ.TARGET (R495). -/
def fRTARGET : FRef := ⟨0x118, 8, 8⟩
/-- RST_REQ.BUSY (R495). -/
def fRBUSY : FRef := ⟨0x118, 17, 1⟩

/-- Whether ALERT_N is asserted (R495, R459, R474). -/
def alerting (s : State) : Bool :=
  s.power.faultAlert || s.power.wdogAlert || (rd s pwrPage fALERT &&& rd s pwrPage fALERTEN) != 0

/-- An effect on the sources of ALERT_N; EV_PWR_ALERT is raised when ALERT_N becomes asserted (R495). -/
def withAlert (s : State) (f : State → State) : State :=
  let t := f s
  if alerting s = false ∧ alerting t = true then tally (raise t pwrPage 8) pwrPage 0 1 else t

/-- ALERT_SRC bit b set (R495). -/
def setAlert (s : State) (b : Nat) : State := withAlert s (fun t => wr t pwrPage fALERT (rd t pwrPage fALERT ||| (1 <<< b)))

/-- The number of a ring in RING_CTRL and RING_STATUS. -/
def ringNum (r : Ring) : Nat := match r with | .a => 0 | .b => 1
/-- RING_CTRL.x_OPEN (R370). -/
def fROPEN (r : Ring) : FRef := ⟨0x130, ringNum r, 1⟩
/-- RING_STATUS.x_STATE (R370). -/
def fRSTATE (r : Ring) : FRef := ⟨0x138, 2 * ringNum r, 2⟩
/-- RING_STATUS.x_CAUSE (R370). -/
def fRCAUSE (r : Ring) : FRef := ⟨0x138, 8 + 4 * ringNum r, 4⟩
/-- PORT_STATUS.SPEED (R371). -/
def fSPEED : FRef := ⟨0x120, 1, 2⟩
/-- PORT_STATUS.LANES_FAILED (R371). -/
def fLANES : FRef := ⟨0x120, 3, 4⟩
/-- PORT_STATUS.BYPASSED (R371). -/
def fBYPASSED : FRef := ⟨0x120, 7, 1⟩

/-- BYPASSED of both ports of a ring (R371). -/
def setBypassed (s : State) (r : Ring) (v : Nat) : State :=
  (ringPorts s.code r).foldl (fun t xp => wr t (portPage xp.1 xp.2) fBYPASSED v) s

/-- The drive of a ring's bypass removed: BYPASSED with a cause, the request cleared, and EV_XD_RING_CLOSED when the ring was
opening or open (R368). -/
def ringDrop (s : State) (r : Ring) (cause : Nat) : State :=
  let pg := xPage 0 0
  let s0 := { s with
    ringSettled := s.ringSettled.filter (· != r)
    boot := { s.boot with ringsOpen := if cause = 2 then s.boot.ringsOpen else s.boot.ringsOpen.filter (· != r) } }
  let s1 := setBypassed (wr (wr (wr s0 pg (fRSTATE r) 0) pg (fRCAUSE r) cause) pg (fROPEN r) 0) r 1
  let s2 := if cause = 4 then tally s1 pg 4 1 else s1
  if rd s pg (fRSTATE r) = 0 then s2 else tally (raise s2 pg 9) pg (2 * ringNum r + 1) 1

/-- Both rings dropped with a cause. -/
def ringsDrop (s : State) (cause : Nat) : State := ringDrop (ringDrop s .a cause) .b cause

/-- The port a session of X-die x moves to when its port goes down: the lowest-numbered up port with the same VLAN setting
that is no ring port; a session pinned to a ring port never moves (R337, R373). -/
def movePort (s : State) (x p : Nat) : Nat :=
  if isRingPort s.code x p then p
  else
    ((List.range 8).find? (fun q => q != p && portUp s x q && !isRingPort s.code x q &&
      rd s (portPage x q) fVLAN == rd s (portPage x p) fVLAN)).getD p

/-- A port's link down: LINK, EV_PORT_LINK_DOWN, the frames that waited lost, and its sessions moved (R337, R371). -/
def linkDrop (s : State) (x p : Nat) : State :=
  if portUp s x p then
    let s0 := portPut s x p { portGet s x p with waiting := [], deficits := [0, 0, 0], turn := 1 }
    let s1 := tally (raise (wr s0 (portPage x p) fLINK 0) (portPage x p) 9) (portPage x p) 92 1
    let q := movePort s1 x p
    { s1 with sess := s1.sess.map (fun e => if e.1 / 8192 = x ∧ e.2.port = p then (e.1, { e.2 with port := q }) else e) }
  else s

/-- The four pages of a gallery. -/
def fourPages (pg : Nat) : List Nat := [pg, pg + 1, pg + 2, pg + 3]

/-- A gallery's cabinet filled with zero granules (R230). -/
def zeroCabinet (s : State) (pg : Nat) : State := zeroFill s (cabAddr s pg 0) cabSize

/-- The begun commands a G reset leaves: accepted, and to be cancelled by ADMIT (R305); nothing runs. -/
def stranded (c : Begun) : Begun := { c with phase := .waiting, bufA := [], bufW := [], loaded := 0, drained := 0, accSlots := [] }

/-- Whether every active gallery is ASLEEP in Sleep (R490). -/
def allSleeping (s : State) : Bool :=
  (List.range 256).all (fun g => blkState s (galPage g) == stAsleep && rd s (galPage g) fLOWPWR == 2)

/-- The end of module Idle: IDLE_ACTIVE clears with EV_PWR_IDLE_EXIT, and the stacks leave self-refresh (R490). -/
def leaveIdle (s : State) : State :=
  if rd s pwrPage fIDLEACT = 1 then
    let s1 := tally s pwrPage 2 ((s.now - s.power.idleSince) / 1000)
    raise (wr { s1 with power := { s1.power with selfRefresh := [] } } pwrPage fIDLEACT 0) pwrPage 9
  else s

/-- Idle ends when a gallery has left Sleep (R490). -/
def idleCheck (s : State) : State := if rd s pwrPage fIDLEACT = 1 ∧ allSleeping s = false then leaveIdle s else s

/-- The snapshot of a partition is invalid from the moment its lead gallery becomes stale (R313). -/
def dropLead (s : State) (pg : Nat) : State :=
  match pageOwner s pg with
  | some p =>
    if rd s (pg + 3) fLEAD = 1 then
      let x := partGet s p
      partPut s p { x with stp := { x.stp with snapOk := false } }
    else s
  | none => s

/-- A reset of kind T or G of the gallery behind a control page: its registers, its cabinet, and everything it held; the
fill is under way, and the pages answer UNAVAILABLE until it completes (R62, R68, R230, R303, R485). A G reset keeps the
queues and the commands they had accepted (R305, R492), and breaks the frames of its partition (R328). -/
def galleryReset (s0 : State) (pg : Nat) (k : ResetKind) : State :=
  let s := voidPart s0 pg
  let x := galGet s pg
  let s1 := (fourPages pg).foldl (fun t p => resetPage t k p) (dropLead s pg)
  let s2 := zeroCabinet s1 pg
  idleCheck (galPut s2 pg (if k = .g then
      { galIdle with begun := x.begun.map stranded, queues := x.queues.map (fun q => { q with heldBy := [] }) }
    else galIdle))

/-- Whether every page of a gallery is in a state. -/
def allPages (s : State) (pg st : Nat) : Bool := (fourPages pg).all (fun p => blkState s p == st)

/-- Whether a gallery has failed and is not replaced (R24, R153): it is marked so, or its physical gallery is bad. -/
def galFailed (s : State) (g : Nat) : Bool :=
  bit (regGet s (cPage (g / 64) 0x100 * 4096 + 0x108)) (g % 64) || physBad s (g / 64) (physGallery s g)

/-- Whether a range is covered by a list of ranges kept in order and apart. -/
def covered (rs : List (Nat × Nat)) (lo hi : Nat) : Bool :=
  decide (hi ≤ lo) || rs.any (fun r => decide (r.1 ≤ lo) && decide (hi ≤ r.2))

/-- A range added to such a list; touching ranges join. -/
def addRange (rs : List (Nat × Nat)) (lo hi : Nat) : List (Nat × Nat) :=
  if hi ≤ lo then rs
  else
    let near := rs.filter (fun r => decide (r.1 ≤ hi) && decide (lo ≤ r.2))
    let a := near.foldl (fun m r => min m r.1) lo
    let b := near.foldl (fun m r => max m r.2) hi
    rs.filter (fun r => decide (r.2 < lo)) ++ (a, b) :: rs.filter (fun r => decide (hi < r.1))

/-- The end of the bytes held from offset lo on without a gap. -/
def contiguous (rs : List (Nat × Nat)) (lo : Nat) : Nat :=
  match rs.find? (fun r => decide (r.1 ≤ lo) && decide (lo ≤ r.2)) with
  | some r => r.2
  | none => lo

/-- The parts of [lo, hi) that a list of ranges does not hold. -/
def missing (rs : List (Nat × Nat)) (lo hi : Nat) : List (Nat × Nat) :=
  match rs with
  | [] => if lo < hi then [(lo, hi)] else []
  | (a, b) :: r =>
    if hi ≤ lo then []
    else (if lo < min a hi then [(lo, min a hi)] else []) ++ missing r (max lo b) hi

/-- A range cut into pieces of at most n bytes. -/
def cut (fuel lo hi n : Nat) : List (Nat × Nat) :=
  match fuel with
  | 0 => []
  | k + 1 => if hi ≤ lo then [] else (lo, min hi (lo + n)) :: cut k (lo + n) hi n

/-- ZT_SESS.OPEN (R372). -/
def fZTOPEN : FRef := ⟨0x110, 32, 13⟩

/-- Every wait on a peer, of a mover's transfer or of a commit, changed by a function (R254, R361). -/
def mapWaits (s : State) (f : PeerWait → PeerWait) : State :=
  let job := fun (j : MovJob) => { j with peer := f j.peer }
  let cur := fun (c : CommitCur) => { c with peer := f c.peer }
  let part := fun (x : Part) => { x with stp := { x.stp with run := x.stp.run.map (fun r => { r with curs := r.curs.map cur }) } }
  { s with gals := s.gals.map (fun e => (e.1, { e.2 with movers := e.2.movers.map (fun m => { m with jobs := m.jobs.map job }) })),
           parts := s.parts.map (fun e => (e.1, part e.2)) }

/-- The wait of COMMIT k of partition p's commit changed by a function. -/
def commitWait (s : State) (p k : Nat) (f : PeerWait → PeerWait) : State :=
  let x := partGet s p
  match x.stp.run with
  | some r =>
    let curs := r.curs.zipIdx.map (fun c => if c.2 = k then { c.1 with peer := f c.1.peer } else c.1)
    partPut s p { x with stp := { x.stp with run := some { r with curs := curs } } }
  | none => s

/-- What waits for a read that another module will not answer: a mover's access has failed (R361); a multicast node asks
again (R366). -/
def readFailed (s : State) (o : RdOwner) : State :=
  match o with
  | .mover pg m =>
    let x := galGet s pg
    match (x.movers.getD m ⟨[]⟩).jobs with
    | j :: r => galPut s pg { x with movers := setAt x.movers m ⟨{ j with peer := .failed } :: r⟩ }
    | [] => s
  | .commit p k => commitWait s p k (fun _ => .failed)
  | .mcast _ _ _ => s
  | .restore p _ => partPut s p { partGet s p with res := { (partGet s p).res with readFailed := true } }

/-- What a wait on a message becomes when its answer is there. -/
def waitEnds (i : Nat) (msg : Word32) (w : PeerWait) (x : PeerWait) : PeerWait :=
  match x with
  | .waiting k _ n => if k.toNat = i ∧ n = msg then w else x
  | _ => x

/-- The answer of another module to a mover's write has failed: a job that waits on that message (R361). -/
def writeFailed (s : State) (i : Nat) (msg : Word32) : State := mapWaits s (waitEnds i msg .failed)

/-- The vector entries whose SESSION names a session invalidated, valid or not, with EV_VEC_SESSION_CLOSED on vector 0 whatever the
page's EVT_EN holds (R74, R76; DEDUCED, notes/assumptions/138); the bit is the page's like any other (R70). -/
def closeVectors (s : State) (i : Nat) : State :=
  let hit := (List.range 4095).map (· + 1) |>.filter (fun v => bits (regGet s (vecAddr v)) 0 16 == i)
  let s1 := hit.foldl (fun t v =>
    regPut (regPut t (vecAddr v) (setBits (regGet t (vecAddr v)) 48 1 0)) (vecAddr v + 8)
      (setBits (regGet t (vecAddr v + 8)) 0 16 0)) s
  vecRaise (markEvent (recordErr s1 (vecPage s) 0x80 none 0 false i) (vecPage s) 8 false) 0 (vecPage s)

/-- The module-flash and resilience page (R431). -/
def resPage (s : State) : Nat := xPage (flashXdie s.code) 0x22
/-- RES_Ap.EN. -/
def fREN (p : Nat) : FRef := ⟨0x200 + 24 * p, 48, 1⟩

/-- EV_RES_PEER_LOST with a session index, or 0xFFFF for the module's own failure (R414). -/
def peerLost (s : State) (p index : Nat) : State :=
  tally (raise (recordErr s (resPage s) 0x80 (some p) 0 false index) (resPage s) 8) (resPage s) 8 1

/-- The state with a partition's checkpoint engine replaced. -/
def resPut (s : State) (p : Nat) (r : Resil) : State := partPut s p { partGet s p with res := r }

/-- The Vault session has failed a stream or a mirror: EV_RES_PEER_LOST and EV_RES_VAULT_LOST; commits wait for REPOINT (R414,
R430). -/
def vaultFailed (s : State) (p i : Nat) : State :=
  let r := (partGet s p).res
  let s1 := resPut s p { r with stream := none, due := false, streamMsgs := [], mirrorMsgs := [], mirrorStep := none }
  raise (peerLost s1 p i) (resPage s1) 12

/-- What the checkpoint engine loses when session i of partition p closes with a cause (R413, R414). -/
def resSessionLost (s : State) (p i cause : Nat) : State :=
  let r := (partGet s p).res
  let s1 := if leAt r.desc 40 2 = i ∧ r.store.isSome = true then resPut s p { r with store := none, storeMsgs := [] } else s
  if leAt r.desc 6 2 = i ∧ (r.streamMsgs ≠ [] ∨ r.mirrorMsgs ≠ []) then vaultFailed s1 p i
  else if (cause = 3 ∨ cause = 4) ∧ rd s1 (resPage s1) (fREN p) = 1 then peerLost s1 p i
  else s1

/-- Segments that a closed session leaves unacknowledged keep their reductions waiting (R399): no acknowledgement can match them
any more. -/
def collSessionLost (s : State) (p i : Nat) : State :=
  let x := partGet s p
  let lost := fun (r : RedRun) => { r with unacked := r.unacked.map (fun u => if u.1 = i then (65536 + i, u.2) else u) }
  partPut s p { x with coll := { x.coll with reds := x.coll.reds.map lost } }

/-- A session closed with a cause of R345: outbound messages fail, the vectors that name it are invalidated, the slot is freed,
and the transport page records it with EV_ZT_SESSION_CLOSED (R349, R372). -/
def closeSession (s : State) (i cause : Nat) : State :=
  match sessGet s i with
  | none => s
  | some x =>
    let pg := ztPage (i / 8192)
    let s0 := match x.asker with
      | some a => if x.phase = .opened then s else mailDone s a.1 a.2 mSESSION []
      | none => s
    let s1 := x.rtags.foldl (fun t e => readFailed t e.2.1) s0
    let s2 := x.tx.foldl (fun t k => writeFailed t i k.msg) s1
    let s3 := { s2 with sess := tdel s2.sess i, msgs := tdel s2.msgs (i + 1) }
    if x.phase = .opened then
      let s4 := wr s3 pg fZTOPEN (rd s3 pg fZTOPEN - 1)
      let s5 := tally (closeVectors s4 i) pg (32 + cause) 1
      let s6 := raise (recordErr s5 pg 0x80 (if x.role = .administrator then none else some x.partition) 0 false
        (cause % 256 + i * 2 ^ 16)) pg 9
      if x.role = .administrator then s6
      else
        resSessionLost (if x.role = .peer then collSessionLost s6 x.partition i else s6) x.partition i (if x.role = .peer then cause else 0)
    else s3

/-- The Ledger dump engine page (R543). -/
def dumpPage : Nat := xPage 0 0x24
/-- LDS_CFGj.EN, PART_SCOPE, PHYS and PART (R543). -/
def fLEN (j : Nat) : FRef := ⟨0x200 + 0x20 * j, 0, 1⟩
/-- LDS_CFGj.PART_SCOPE. -/
def fLSCOPE (j : Nat) : FRef := ⟨0x200 + 0x20 * j, 1, 1⟩
/-- LDS_CFGj.PHYS. -/
def fLPHYS (j : Nat) : FRef := ⟨0x200 + 0x20 * j, 2, 1⟩
/-- LDS_CFGj.PART. -/
def fLPART (j : Nat) : FRef := ⟨0x200 + 0x20 * j, 3, 6⟩
/-- PRV_CFGp.EN (R543). -/
def fPRVEN (p : Nat) : FRef := ⟨0x400 + 0x10 * p, 0, 1⟩
/-- LDG_GRANT (R526). -/
def fGRANT : FRef := ⟨0x100, 0, 64⟩

/-- A stream disabled. -/
def streamOff (s : State) (j : Nat) : State :=
  let s1 := wr s dumpPage (fLEN j) 0
  { s1 with obs := { s1.obs with streams := tdel s1.obs.streams j } }

/-- A grant taken from partition p: its dump streams and its provenance sampling are disabled (R526). -/
def dropGrant (s : State) (p : Nat) : State :=
  let s1 := (List.range 16).foldl (fun t j =>
    if rd t dumpPage (fLSCOPE j) = 1 ∧ rd t dumpPage (fLPART j) = p ∧ rd t dumpPage (fLEN j) = 1 then streamOff t j else t) s
  wr s1 dumpPage (fPRVEN p) 0

/-- LDG_GRANT given a value (R526). -/
def putGrants (s : State) (v : Nat) : State :=
  let lost := (List.range 64).filter (fun p => (rd s dumpPage fGRANT).testBit p && !v.testBit p)
  wr (lost.foldl dropGrant s) dumpPage fGRANT v

/-- Bit p of LDG_GRANT cleared by CREATE or DESTROY (R526). -/
def clearGrant (s : State) (p : Nat) : State := putGrants s (rd s dumpPage fGRANT &&& (2 ^ 64 - 1 - 2 ^ p))

/-- A P or M reset of the module: every page of the kind, memory that is lost, sessions closed without a message, both
bypasses closed, galleries to be filled, and the Curator cores back in ROM (R485, R487, R492). The time base counts from here (R519), and
module Idle, which outlives no gallery's Sleep, ends (R490). -/
def moduleReset (b : State) (k : ResetKind) : State :=
  let s := if k = ResetKind.m then leaveIdle b else b
  let s0 := if s.mirrored then wr (wr s (vecPage s) ⟨0x020, 8, 1⟩ 0) (vecPage s) ⟨0x028, 8, 1⟩ 0 else s
  let s1 := resetRegs s0 k (fun _ => true)
  let pw := { s1.power with wdogAlert := false, warnSince := [], hotSince := [], thermDuty := [], selfRefresh := [], gBusy := false }
  let bt := { s1.boot with active := none, cores := [coreInRom, coreInRom], flashHolder := none, grantAt := 0, lead := none, mail := [] }
  let inFlash := fun (a : Nat) => decide (flashBase ≤ a) && decide (a < flashTop)
  let s2 := { s1 with regBad := [], mem := s1.mem.filter (fun e => inFlash e.1), guard := s1.guard.filter (fun e => inFlash (e.1 * 32)) }
  let s3 := { s2 with msgs := [], vecLast := [], rose := [], mirrored := false, gals := [], parts := [], frameOwner := [], flashOwner := [] }
  let s4 := { s3 with sess := [], mcast := [], ports := [], ringSettled := [], ringAt := [], scrub := [], power := pw
                      obs := if k = ResetKind.p then obsReset else { s.obs with streams := [], pulse := s.obs.pulse.map (fun _ => 0) }
                      now := 0, rowErrs := [], badWords := [] }
  { s4 with boot := { bt with staging := [], journal := [], update := none, partReq := [], ringsOpen := [] } }

end Sys2Proof.Machine
end

