-- ==== Sys2Proof/Machine/Vault.lean ====
section
/-! DEFINITION. The resilience descriptor and the layout of what it protects (R404-R408, R412, R431): register fields, optimizer
descriptors, the half and slot layout, and the register image. -/

namespace Sys2Proof.Machine

/-- RES_Ap.BASE (R431). -/
def fRBASE (p : Nat) : FRef := ⟨0x200 + 24 * p, 0, 48⟩
/-- RES_Ap.HOLD. -/
def fRHOLD (p : Nat) : FRef := ⟨0x200 + 24 * p, 49, 1⟩
/-- RES_Cp.BUSY. -/
def fRCBUSY (p : Nat) : FRef := ⟨0x210 + 24 * p, 5, 1⟩
/-- RES_Cp.NULL. -/
def fRNULL (p : Nat) : FRef := ⟨0x210 + 24 * p, 6, 1⟩
/-- RES_Cp.RESULT. -/
def fRRESULT (p : Nat) : FRef := ⟨0x210 + 24 * p, 8, 4⟩
/-- RES_Cp.OP of the request under way, as GO found it (notes/assumptions/162). -/
def resOp (s : State) (p : Nat) : Nat := bits (partGet s p).res.asked 0 4
/-- RES_Cp.SOURCE of the request under way. -/
def resSource (s : State) (p : Nat) : Nat := bits (partGet s p).res.asked 16 16
/-- RES_Cp.STEP of the request under way. -/
def resStep (s : State) (p : Nat) : Nat := bits (partGet s p).res.asked 32 32

/-- RES_Ap.HOLD of a partition (R415). -/
def onHold (s : State) (p : Nat) : Bool := rd s (resPage s) (fRHOLD p) == 1

/-- Field COMMIT of a resilience descriptor (R406). -/
def rdCOMMIT (d : List Byte) : Nat := leAt d 0 6
/-- VAULT_SESSION. -/
def rdVAULT (d : List Byte) : Nat := leAt d 6 2
/-- VAULT_BASE. -/
def rdVBASE (d : List Byte) : Nat := leAt d 8 6
/-- VAULT_BYTES, 0 read as 128 GiB. -/
def rdVBYTES (d : List Byte) : Nat := if leAt d 16 8 = 0 then 2 ^ 37 else leAt d 16 8
/-- FLASH_EVERY. -/
def rdEVERY (d : List Byte) : Nat := leAt d 30 2
/-- STORE_SESSION. -/
def rdSTORE (d : List Byte) : Nat := leAt d 40 2
/-- STORE_MIN in ns, 0 read as 60 minutes. -/
def rdPERIOD (d : List Byte) : Nat := (if leAt d 42 2 = 0 then 60 else leAt d 42 2) * 60000000000

/-- Optimizer descriptors of a commit descriptor (R278, R279). -/
def readOpts (s : State) (p va : Nat) : Except (Nat × AccErr) (List (List Byte)) :=
  match vload s p va 32 with
  | .error e => .error e
  | .ok c =>
    match vload s p (leAt c 0 6) (64 * leAt c 6 2) with
    | .error e => .error e
    | .ok b => .ok ((List.range (leAt c 6 2)).map (fun i => (b.drop (64 * i)).take 64))

/-- The bytes of the common list of a resilience descriptor (R406). -/
def commonBytes (s : State) (p : Nat) (d : List Byte) : Except (Nat × AccErr) (List Byte) := vload s p (leAt d 24 6) (16 * leAt d 14 2)

/-- The entries of a common list of n entries, as (address, length) (R406). -/
def listEntries (n : Nat) (b : List Byte) : List (Nat × Nat) := (List.range n).map (fun i => (leAt b (16 * i) 6, leAt b (16 * i + 8) 8))

/-- The common list of a resilience descriptor, as (address, length) (R406). -/
def readCommon (s : State) (p : Nat) (d : List Byte) : Except (Nat × AccErr) (List (Nat × Nat)) :=
  match commonBytes s p d with
  | .error e => .error e
  | .ok b => .ok (listEntries (leAt d 14 2) b)

/-- The arrays of owned state that an algorithm keeps: weights, first moments, second moments. -/
def arraysOf (alg : Nat) : Nat := if alg = 0 then 1 else if alg = 2 then 3 else 2

/-- Bytes of the owned-state section of COUNT elements (R407). -/
def sectionBytes (alg count : Nat) : Nat := roundUp (2 * count * arraysOf alg) 4096

/-- The directory entry of an optimizer descriptor (R407). -/
def dirEntry (d : List Byte) : List Byte :=
  (d.drop 4).take 3 ++ d.take 1 ++ (d.drop 7).take 3 ++ (d.drop 1).take 1 ++ (d.drop 10).take 3 ++ (d.drop 2).take 1 ++
    List.replicate 4 0 ++ (d.drop 40).take 16

/-- ALG of a directory entry. -/
def dirAlg (e : List Byte) : Nat := leAt e 3 1
/-- COUNT of a directory entry. -/
def dirCount (e : List Byte) : Nat := leAt e 24 8
/-- E0 of a directory entry. -/
def dirFirst (e : List Byte) : Nat := leAt e 16 8

/-- Bytes of the directory and the owned-state sections of a half (R407). -/
def ownedBytes (dir : List (List Byte)) : Nat := dir.foldl (fun n e => n + sectionBytes (dirAlg e) (dirCount e)) (32 * dir.length)

/-- Where the section of directory entry i begins in a half. -/
def sectionAt (dir : List (List Byte)) (i : Nat) : Nat :=
  (dir.take i).foldl (fun n e => n + sectionBytes (dirAlg e) (dirCount e)) (32 * dir.length)

/-- Registers of one gallery's pages in the order of the register image (R404). -/
def galImageRegs (g : Nat) : List Nat :=
  let pg := galPage g
  let at_ := fun (k : Nat) (os : List Nat) => os.map (fun o => (pg + k) * 4096 + o)
  at_ 0 ([0x108, 0x100, 0x110, 0x118] ++ (List.range 4).flatMap (fun q => [0x200 + 64 * q, 0x208 + 64 * q, 0x218 + 64 * q])) ++
    at_ 1 [0x100] ++ at_ 2 (0x100 :: (List.range 64).map (fun c => 0x200 + 8 * c)) ++
    at_ 3 [0x100, 0x108, 0x110, 0x118, 0x120, 0x128, 0x130, 0x138, 0x140]

/-- Registers of the partition itself in the register image (R404). -/
def partImageRegs (s : State) (p : Nat) : List Nat :=
  (List.range (xdieCount s.code)).flatMap (fun x =>
    [0x200 + 24 * p, 0x208 + 24 * p, 0x210 + 24 * p].map (fun o => xPage x 0x0A * 4096 + o) ++ [ztPage x * 4096 + 0x400 + 8 * p])

/-- Bytes of the register image of a partition of n galleries (R404): 8 bytes a register, in the order listed, then SKIPS
(notes/assumptions/59). -/
def imageBytes (s : State) (n : Nat) : Nat := 8 * (91 * n + 4 * xdieCount s.code) + 4

/-- The register image of a partition (R404; notes/assumptions/59). -/
def registerImage (s : State) (p : Nat) : List Byte :=
  ((partGals s p).flatMap galImageRegs ++ partImageRegs s p).flatMap (fun a => leBytes 8 (regGet s a)) ++
    leBytes 4 (partGet s p).stp.skips

/-- Elements of reduction r that this module owns (R377). -/
def ownElements (r : RedRun) : Nat :=
  let first := leAt r.group 4 2 * leAt r.desc 48 8
  min (leAt r.desc 48 8) (leAt r.desc 40 8 - first)

/-- Bytes of a reduction's place in a gradient slot (R407). -/
def slotPlace (r : RedRun) : Nat := roundUp (4 * ownElements r) 4096

/-- Where the place of the i-th reduction begins in a gradient slot. -/
def slotAt (rs : List RedRun) (i : Nat) : Nat := (rs.take i).foldl (fun n r => n + slotPlace r) 0

/-- Bytes of a gradient slot. -/
def slotBytes (rs : List RedRun) : Nat := slotAt rs rs.length

/-- Bytes of a half's image (R407). -/
def halfBytes (s : State) (p : Nat) (dir : List (List Byte)) (common : List (Nat × Nat)) : Nat :=
  common.foldl (fun n c => n + c.2) (ownedBytes dir) + imageBytes s (partGals s p).length

/-- The offset of half h in a Vault region whose halves take `len` bytes (R407). -/
def halfAt (len h : Nat) : Nat := 4096 + h * roundUp len 4096

/-- The offset of gradient slot k. -/
def slotOffset (len slot k : Nat) : Nat := 4096 + 2 * roundUp len 4096 + k * roundUp slot 4096

/-- Whether the reserved fields and alignments of a resilience descriptor and of its common list are in order (R406). -/
def resDescOk (d list : List Byte) (common : List (Nat × Nat)) : Bool :=
  leAt d 44 4 == 0 && leAt d 58 2 == 0 && rdVBASE d % 4096 == 0 && leAt d 24 6 % 16 == 0 && decide (leAt d 14 2 ≤ 1024) &&
    common.all (fun c => c.2 % 256 == 0) && (List.range common.length).all (fun i => leAt list (16 * i + 6) 2 == 0)

/-- A partition's protection stops: the descriptor is refused with a RESULT code (R406). -/
def protectionStops (s : State) (p code : Nat) : State :=
  let s1 := resPut s p { (partGet s p).res with broken := true }
  recordErr s1 (resPage s1) 0x80 (some p) 0 false (code * 2 ^ 8)

/-- Whether a descriptor in force keeps a Vault. -/
def hasVault (r : Resil) : Bool := r.desc != [] && !r.broken && rdVAULT r.desc != 0xFFFF

/-- The checkpoint engine with a newly read descriptor: a Vault partner that is new has everything due (R406, R410). -/
def takeDesc (r : Resil) (d : List Byte) : Resil :=
  let fresh := !(hasVault r && rdVAULT r.desc == rdVAULT d && rdVBASE r.desc == rdVBASE d)
  if rdVAULT d = 0xFFFF then { r with desc := d, broken := false, due := false, stream := none, streamMsgs := [], mirrorMsgs := [] }
  else if fresh then { r with
    desc := d, broken := false, dirty := [none, none], due := true, stream := none, streamMsgs := [], sealedAt := [none, none]
    mirrorMsgs := [], mirrorStep := none }
  else { r with desc := d, broken := false }

/-- The descriptor read, checked and put in force; a RESULT code where it is refused (R406, R431). -/
def readDesc (s : State) (p : Nat) : State × Nat :=
  match vload s p (rd s (resPage s) (fRBASE p)) 64 with
  | .error (va, e) => (protectionStops (recordAccess s (resPage s) (some p) va e) p 3, 3)
  | .ok d =>
    match commonBytes s p d, readOpts s p (rdCOMMIT d) with
    | .error (va, e), _ => (protectionStops (recordAccess s (resPage s) (some p) va e) p 3, 3)
    | _, .error (va, e) => (protectionStops (recordAccess s (resPage s) (some p) va e) p 3, 3)
    | .ok list, .ok os =>
      let cs := listEntries (leAt d 14 2) list
      let len := halfBytes s p (os.map dirEntry) cs
      let slot := slotBytes (partGet s p).coll.reds
      if resDescOk d list cs = false then (protectionStops s p 5, 5)
      else if rdVAULT d ≠ 0xFFFF ∧ rdVBYTES d < slotOffset len slot 2 then (protectionStops s p 2, 2)
      else (resPut s p (takeDesc (partGet s p).res d), 0)

/-- The end of a resilience request with a RESULT code (R431, R432). -/
def resEnd (s : State) (p code : Nat) : State :=
  let pg := resPage s
  let s1 := if code = 0 then s else recordErr s pg 0x80 (some p) 0 false (code * 2 ^ 8)
  let s2 := tally (raise (wr (wr s1 pg (fRRESULT p) code) pg (fRCBUSY p) 0) pg 9) pg 9 1
  if code = 0 then s2 else tally s2 pg 10 1

/-- EV_RES_IMAGE_SKIPPED (R412, R413). -/
def imageSkipped (s : State) : State := tally (raise s (resPage s) 13) (resPage s) 7 1

/-- After the commit of step n on the module: an image for the Vault falls due, and a flash image at a multiple of FLASH_EVERY, which
is skipped while its slot is being copied; a REPLAY of the step ends (R411-R413, R422). -/
def afterCommit (s : State) (p n : Nat) : State :=
  let r := (partGet s p).res
  let on := r.desc != [] && !r.broken
  let every := rdEVERY r.desc
  let flash := on && every != 0 && n % every == 0
  let clash := flash && r.store == some (n / every % 2)
  let s1 := resPut s p { r with
    lastStep := some n, due := r.due || hasVault r, replay := none, flashDue := if flash && !clash then some n else r.flashDue }
  let s2 := if clash then imageSkipped s1 else s1
  if r.replay.isSome then resEnd s2 p 0 else s2

/-- What R410 adds to the conditions of a commit of step n. -/
def resReady (s : State) (p n : Nat) : Bool :=
  let r := (partGet s p).res
  let prev := (n + 2 ^ 32 - 1) % 2 ^ 32
  !onHold s p && !r.broken &&
    (!hasVault r || (r.stream.isNone && !r.due && r.sealedAt.getD (prev % 2) none == some prev)) && r.flashDue.isNone

/-- What the checkpoint engine does when the commit fails on the module (R414): it reports itself, and a REPLAY ends. -/
def resCommitFailed (s : State) (p : Nat) : State :=
  let s1 := if rd s (resPage s) (fREN p) = 1 then peerLost s p 0xFFFF else s
  if (partGet s p).res.replay.isSome then resEnd (resPut s1 p { (partGet s1 p).res with replay := none }) p 1 else s1

/-- The checkpoint engine at a step start: the descriptor is read, and the register image of the boundary captured (R404, R406). -/
def resStart (s : State) (p : Nat) (again : Bool) : State :=
  if rd s (resPage s) (fREN p) = 0 then resPut s p { resNone with lastStep := (partGet s p).res.lastStep, asked := (partGet s p).res.asked }
  else
    let s1 := (readDesc s p).1
    let r := (partGet s1 p).res
    resPut s1 p { r with regImg := if again then r.regImg else registerImage s1 p }

end Sys2Proof.Machine
end

