-- ==== Sys2Proof/Machine/Steps.lean ====
section
/-! DEFINITION. Start checks (R62, R233), step starts with the snapshot (R160, R224, R313, R314, R320, R321), the start of the
collective engine's step (R376-R379, R392, R402) and of the checkpoint engine's (R406), and the starting of pages. -/

namespace Sys2Proof.Machine

/-- CEN_CFG.CEN_EN (R222). -/
def fCENEN : FRef := ⟨0x100, 0, 1⟩
/-- CEN_TBL.BASE (R223). -/
def fCENBASE : FRef := ⟨0x108, 0, 48⟩
/-- CEN_TBL.COUNT (R223). -/
def fCENCOUNT : FRef := ⟨0x108, 48, 16⟩
/-- CEN_STATUS.STEP (R225). -/
def fCENSTEP : FRef := ⟨0x148, 0, 32⟩
/-- CEN_STATUS.CLOSED (R225). -/
def fCLOSED : FRef := ⟨0x148, 32, 1⟩
/-- CEN_STATUS.LAST_FINITE (R225). -/
def fLASTFIN : FRef := ⟨0x148, 33, 1⟩

/-- The census page of a gallery. -/
def cenPage (g : Nat) : Nat := galPage g + 3
/-- The movers page of a gallery. -/
def movPage (g : Nat) : Nat := galPage g + 2
/-- The array page of a gallery. -/
def arrPage (g : Nat) : Nat := galPage g + 1

/-- A caddy entry of the movers page (R261): its word. -/
def caddyWord (s : State) (pg c : Nat) : Nat := regGet s (pg * 4096 + 0x200 + 8 * c)
/-- Whether a caddy entry is valid. -/
def caddyValid (w : Nat) : Bool := bit w 39
/-- First byte of a caddy (R231). -/
def caddyBase (w : Nat) : Nat := bits w 0 16 * 256
/-- Bytes of a caddy. -/
def caddySize (w : Nat) : Nat := bits w 16 16 * 256
/-- Bytes of a slot. -/
def slotSize (w : Nat) : Nat := 256 * 2 ^ bits w 32 4
/-- The role of a caddy (R231). -/
def caddyRole (w : Nat) : Nat := bits w 36 3
/-- The bays a caddy feeds. -/
def caddyBays (w : Nat) : Nat := bits w 40 4

/-- Whether a valid caddy is in order by itself (R233). -/
def caddyOk (w : Nat) : Bool :=
  decide (caddyBase w + caddySize w ≤ cabSize) && caddySize w != 0 && caddySize w % slotSize w == 0 &&
    decide (1 ≤ caddyRole w ∧ caddyRole w ≤ 6) && !((caddyRole w == 1 || caddyRole w == 4) && caddyBays w == 0)

/-- Whether no two caddies of a list overlap (R233). -/
def caddiesApart (ws : List Nat) : Bool :=
  match ws with
  | [] => true
  | w :: r => r.all (fun v => decide (caddyBase w + caddySize w ≤ caddyBase v) || decide (caddyBase v + caddySize v ≤ caddyBase w)) &&
      caddiesApart r

/-- The valid caddy words of a movers page. -/
def validCaddies (s : State) (pg : Nat) : List Nat := ((List.range 64).map (caddyWord s pg)).filter caddyValid

/-- The start check of a page (R62): code 0x08 when it fails. A stale control page (R303), a completion ring smaller than its
slot ring (notes/assumptions/23), the caddies of R233, a channel split that is not 20 (R263), a port mode its PHY lacks or a
VLAN of 0 or 0xFFF (R333, R371); the scan of units whose page is assigned (R468); pages for which no chapter gives a check pass. -/
def startCheck (s : State) (pg : Nat) : Bool :=
  match pageAt s pg with
  | none => false
  | some i =>
    match i.type with
    | .galleryControl => rd s pg fSTALE == 0 &&
        (List.range 4).all (fun q => rd s pg (fQEN q) == 0 || decide (rd s pg (fQLOG2 q) ≤ rd s pg (fQCPLLOG2 q)))
    | .movers => (validCaddies s pg).all caddyOk && caddiesApart (validCaddies s pg)
    | .censusKettle => !(rd s pg fCENEN == 1 && rd s pg fCENCOUNT == 0)
    | .hbm =>
      let w := regGet s (pg * 4096 + 0x100)
      bits w 0 5 + bits w 8 5 + bits w 16 5 == 20 && bits w 0 5 != 0 && bits w 8 5 != 0 && bits w 16 5 != 0
    | .port => !(rd s pg ⟨0x118, 12, 1⟩ == 1 && (rd s pg ⟨0x118, 0, 12⟩ == 0 || rd s pg ⟨0x118, 0, 12⟩ == 0xFFF))
    | .memoryScan => !(rd s pg ⟨0x110, 1, 1⟩ == 1 && rd s (xPage i.xdie 0x0B) fASSIGNED == 1)
    | _ => true

/-- The collective engine page of X-die x (R402). -/
def collPage (x : Nat) : Nat := xPage x 0x0A

/-- A failed reduction, or a combine entered alone (RID 0xFFFF): COLL_STATUS, the record and EV_COLL_FAILED (R402, R403). -/
def collFail (s : State) (x p rid cause step : Nat) : State :=
  let pg := collPage x
  let s1 := regPut s (pg * 4096 + 0x108) (rid % 2 ^ 16 + p * 2 ^ 16 + cause * 2 ^ 24 + step * 2 ^ 32)
  tally (raise (recordErr s1 pg 0x80 (some p) 0 false (rid % 2 ^ 16 + cause * 2 ^ 16)) pg 8) pg 6 1

/-- The range exponent of every census entry of a gallery's table as it stands (R209). -/
def entryExps (s : State) (g p : Nat) : List Int :=
  (List.range (rd s (cenPage g) fCENCOUNT)).map (fun i =>
    match vload s p (rd s (cenPage g) fCENBASE + 256 * i + 6) 1 with
    | .ok b => sext 8 (leNat b)
    | .error _ => (Config.lostExp i).toInt)

/-- The census entries whose range exponent cannot be read, each recorded on the gallery's census page: the step is incomplete (R208,
R571). -/
def noteExps (s : State) (g p n : Nat) : State :=
  (List.range (rd s (cenPage g) fCENCOUNT)).foldl (fun t i =>
    match vload t p (rd t (cenPage g) fCENBASE + 256 * i + 6) 1 with
    | .ok _ => t
    | .error (va, e) =>
      let x := partGet t p
      recordAccess (partPut t p { x with stp := { x.stp with failed := if x.stp.failed.contains n then x.stp.failed else n :: x.stp.failed } })
        (cenPage g) (some p) va e) s

/-- What a gallery takes at a step start (R160, R209, R224). -/
def takeSnap (s : State) (g p : Nat) : Snap :=
  let w := fun (o : Nat) => BitVec.ofNat 64 (regGet s (cenPage g * 4096 + o))
  ⟨w 0x138, w 0x140, w 0x128, w 0x130, entryExps s g p⟩

/-- What a gallery uses through the current step; before its first step start, what stands now (notes/assumptions/24). -/
def snapOf (s : State) (g : Nat) : Snap :=
  match (galGet s (galPage g)).snap with
  | some x => x
  | none => takeSnap s g ((pageOwner s (galPage g)).getD 0)

/-- Whether two valid descriptors of a catalogue have the same LAYER (R312). -/
def sameLayer (n : Nat) (b : List Byte) : Bool :=
  let ls := ((List.range n).map (fun i => leAt b (16 * i) 4)).filter (fun h => bit h 31)
  let ks := ls.map (fun h => bits h 0 20)
  decide (ks.eraseDups.length ≠ ks.length)

/-- The state with a partition's step control replaced. -/
def stpPut (s : State) (p : Nat) (x : StepCtl) : State := partPut s p { partGet s p with stp := x }

/-- The copy of the catalogue into the snapshot table (R313): whether the snapshot is valid is kept in the partition. -/
def copyCatalogue (s : State) (p : Nat) : State :=
  let mark := fun (t : State) (ok : Bool) => stpPut t p { (partGet t p).stp with snapOk := ok }
  match leadOf s p with
  | none => mark s false
  | some g =>
    let pg := galPage g
    let n := rd s pg fCATCOUNT
    let s1 := tally (wr s pg fSNAPCOUNT n) pg 31 1
    match vfetch s1 p (rd s pg fCATBASE) (16 * n) with
    | .error (va, e) => mark (recordAccess s1 pg (some p) va e) false
    | .ok (s0, b) =>
      match vstore s0 p (rd s pg fSNAPBASE) b with
      | (s2, some (va, e)) => mark (recordAccess s2 pg (some p) va e) false
      | (s2, none) => mark s2 (!sameLayer n b)

/-- A group of a group table with its members (R374, R375); empty lists where the table has no such group. -/
def readGroup (s : State) (p grp idx : Nat) : Except (Nat × AccErr) (List Byte × List Byte) :=
  if bits grp 48 8 ≤ idx then .ok ([], [])
  else
    match vload s p (bits grp 0 48 + 16 * idx) 16 with
    | .error e => .error e
    | .ok g =>
      match vload s p (leAt g 8 6) (8 * min (leAt g 0 4) 65536) with
      | .error e => .error e
      | .ok m => .ok (g, m)

/-- A reduction as its descriptor stands now (R376, R378), and why a table of it cannot be read. -/
def readRed (s : State) (p x rid red grp : Nat) (exps : List Int) : RedRun × Option (Nat × AccErr) :=
  let none_ : RedRun := { rid := rid, xdie := x, desc := [], group := [], members := [], exp := 0, fired := false, failed := none,
                          points := [], roots := [], unacked := [], sent := [] }
  match vload s p (bits red 0 48 + 128 * rid) 128 with
  | .error e => (none_, some e)
  | .ok d =>
    let e := if leAt d 6 2 = 0xFFFF then sext 8 (leAt d 8 1) else exps.getD (leAt d 6 2) 0
    match readGroup s p grp (leAt d 4 1) with
    | .error e => (none_, some e)
    | .ok g => ({ none_ with desc := d, group := g.1, members := g.2, exp := e }, none)

/-- The table words of partition p on X-die x (R402). -/
def collTabs (s : State) (p x : Nat) : Nat × Nat × Nat :=
  let a := collPage x * 4096 + 0x200 + 24 * p
  (regGet s a, regGet s (a + 8), regGet s (a + 16))

/-- The reductions of every X-die with the tables that govern (R378). -/
def readReds (s : State) (p : Nat) (tabs : List (Nat × Nat × Nat)) (exps : List Int) : List (RedRun × Option (Nat × AccErr)) :=
  (List.range tabs.length).flatMap (fun x =>
    let t := tabs.getD x (0, 0, 0)
    (List.range (bits t.1 48 16)).map (fun rid => readRed s p x rid t.1 t.2.1 exps))

/-- A reduction one of whose tables cannot be read fails with cause 0x7 (R399, R571). -/
def failUnread (s : State) (p step : Nat) (r : RedRun × Option (Nat × AccErr)) : State :=
  match r.2 with
  | none => s
  | some (va, e) => collFail (recordAccess s (collPage r.1.xdie) (some p) va e) r.1.xdie p r.1.rid 7 step

/-- The collective engine at a step start, or after RESTART: every reduction and the combine begin anew (R378, R392, R417). The
job group is that of X-die 0 (notes/assumptions/25). -/
def collStart (s : State) (p step : Nat) (tabs : List (Nat × Nat × Nat)) : State :=
  let exps := match leadOf s p with | some g => (snapOf s g).exps | none => []
  let grp := (tabs.getD 0 (0, 0, 0)).2.1
  let job := readGroup s p grp (bits grp 56 8)
  let s1 := match job with | .error (va, e) => recordAccess s (collPage 0) (some p) va e | .ok _ => s
  let g := match job with | .error _ => ([], []) | .ok g => g
  let x := partGet s1 p
  let rs := readReds s p tabs exps
  let c := { collNone with
    tabs := tabs, job := g.1, jobMembers := g.2, reds := rs.map (fun r => { r.1 with failed := if r.2.isSome then some 7 else none })
    chStopped := x.coll.chStopped, result := x.coll.result.filter (fun r => r.step != step) }
  rs.foldl (fun t r => failUnread t p step r) (partPut s1 p { x with coll := c })

/-- A step start on one gallery (R160, R224, R225, R320, R321). -/
def gallerySnap (s : State) (g p step : Nat) : State :=
  let pg := galPage g
  let s1 := wr (wr (wr s pg fSTEP step) (pg + 3) fCENSTEP step) (pg + 3) fCLOSED 0
  let x := galGet s1 pg
  galPut s1 pg { x with snap := some (takeSnap s1 g p), queues := x.queues.map (fun q => { q with stepEnded := false }) }

/-- A step start of partition p with step number n (R160, R313, R320, R378). `again` says that step n begins again after a
skipped commit: the failures counted against it are dropped. -/
def stepStart (s : State) (p n : Nat) (again : Bool) : State :=
  let s1 := (partGals s p).foldl (fun t g => gallerySnap t g p n) s
  let x := (partGet s1 p).stp
  let ahead := fun (k : Nat) => decide ((k + 2 ^ 32 - n) % 2 ^ 32 < 2 ^ 31) && !(again && k == n)
  let s2 := stpPut s1 p { x with
    started := true, failed := x.failed.filter ahead, closed := false, lFinite := false, lComplete := false, job := none
    run := none }
  let s3 := (partGals s2 p).foldl (fun t g => noteExps t g p n) (copyCatalogue s2 p)
  let s4 := collStart s3 p n ((List.range (xdieCount s3.code)).map (collTabs s3 p))
  resStart (if (leadOf s4 p).isSome then wr s4 rootPage (fPSTEP p) n else s4) p again

/-- What the start of a lead gallery's control page does (R314): the first one after the creation is a step start; later ones by
an administrator or the Curator copy the catalogue again, for a partition that has decided no commit (notes/assumptions/26). -/
def leadStarted (s : State) (pg rank : Nat) : State :=
  match pageAt s pg, pageOwner s pg with
  | some i, some p =>
    if i.type = .galleryControl ∧ leadOf s p = some i.num then
      if (partGet s p).stp.started = false then stepStart s p (rd s pg fSTEP) false
      else if (partGet s p).stp.decided = false ∧ 1 ≤ rank ∧ 1 ≤ rd s pg fSTOPSRC then copyCatalogue s p
      else s
    else s
  | _, _ => s

/-- The caddy slots of a movers page that starts (R233): an entry written since the stop has every slot FREE. -/
def moversStart (s : State) (pg : Nat) : State :=
  match pageAt s pg with
  | some i =>
    if i.type = .movers then
      let x := galGet s (galBase pg)
      galPut s (galBase pg) { x with caddies := x.caddies.filter (fun e => !e.2.written) }
    else s
  | none => s

/-- A page whose checks have passed becomes RUNNING at the request of a principal (R62, R233, R314). -/
def startPage (s : State) (pg rank : Nat) : State := leadStarted (blockStart (moversStart s pg) pg) pg rank

/-- The Curator restarts the pages of a gallery in the reverse of the order of R66; a start check that fails leaves that page and
those after it STOPPED (notes/assumptions/27). -/
def startFrom (s : State) (pages : List Nat) : State :=
  match pages with
  | [] => s
  | pg :: r =>
    if blkState s pg = stStopped then
      if startCheck s pg then startFrom (startPage s pg 2) r
      else recordRefusal s pg 0x08 (pageOwner s pg) 0
    else startFrom s r

/-- The restart of one gallery (R66, R299, R305). -/
def startGallery (s : State) (g : Nat) : State :=
  if (galGet s (galPage g)).fill = .none then startFrom s (galPages (galPage g)).reverse else s

end Sys2Proof.Machine
end

