-- ==== Sys2Proof/Machine/Wire.lean ====
section
/-! DEFINITION. Sending on a session (R339-R342, R350-R354, R358): packets by type, the window, acknowledgements, and the peer
table (R361). -/

namespace Sys2Proof.Machine

/-- ZT_CC.WINDOW (R372). -/
def fWINDOW : FRef := ⟨0x108, 48, 12⟩
/-- ZT_PARTp.PEER_BASE. -/
def fPEERBASE (p : Nat) : FRef := ⟨0x400 + 8 * p, 0, 48⟩
/-- ZT_PARTp.PEER_COUNT. -/
def fPEERCOUNT (p : Nat) : FRef := ⟨0x400 + 8 * p, 48, 13⟩

/-- Payload bytes of an output that count against cwnd (R354). -/
def outBytes (o : Out) : Nat := (payloadBytes o).length

/-- What the Ledger counts of a packet that leaves (R529): its TYPE, a STATUS by code, bulk bytes. -/
def countSent (s : State) (x : Nat) (o : Out) : State :=
  let s1 := tally s (ztPage x) (typeIndex (typeOf o)) 1
  match o with
  | .status _ _ c _ => if c < 8 then tally s1 (ztPage x) (60 + c) 1 else s1
  | .bulkWrite _ _ _ _ _ bs _ => tally s1 (ztPage x) 42 bs.length
  | .bulkRdata _ _ _ _ bs _ => tally s1 (ztPage x) 42 bs.length
  | .seg _ _ _ _ _ _ bs => tally (tally s1 (xPage x 0x0A) 0 1) (xPage x 0x0A) 12 (bs.length + 8)
  | _ => s1

/-- A packet that takes no place in the window sent on session i: unsequenced, or of the exchange that opens or closes a session
(R342, R344, R345). -/
def sendBare (s : State) (i : Nat) (o : Out) : State :=
  match sessGet s i with
  | none => s
  | some x => countSent (transmit s i x o 0 0 (true, true) false) (sessXdie i) o

/-- A session closed from this side with an SC_CLOSE (R345, R349). -/
def closeWith (s : State) (i cause : Nat) : State :=
  match sessGet s i with
  | none => s
  | some x =>
    let o := Out.scClose (BitVec.ofNat 16 i) cause
    closeSession (countSent (transmit s i x o x.txNext x.txNext (true, true) false) (sessXdie i) o) i cause

/-- A session that closes here for a cause of R345: an OPEN one tells its peer, another frees its slot without a message (R344,
R349; notes/assumptions/67). -/
def closeOut (s : State) (i cause : Nat) : State :=
  match sessGet s i with
  | none => s
  | some x => if x.phase = .opened then closeWith s i cause else closeSession s i cause

/-- Bytes that have left and are neither acknowledged nor marked in SACK (R354). -/
def inFlight (l : List TxPkt) : Nat := (l.filter (fun k => k.gone && !k.sacked)).foldl (fun n k => n + k.bytes) 0

/-- The first packet that waits, if the window (R350) and cwnd (R354) let it leave. -/
def nextGoing (l : List TxPkt) (window cwnd : Nat) : Option TxPkt :=
  match l.find? (fun k => !k.gone) with
  | none => none
  | some k =>
    let first := (l.headD k).seq
    let fly := inFlight l
    if (k.seq - first).toNat < min window 4096 ∧ (fly = 0 ∨ fly + k.bytes ≤ cwnd) then some k else none

/-- Packets leave while the window and cwnd let them. A session whose packet numbers are exhausted closes with cause 0x05
(R346). -/
def pumpFrom (s : State) (i fuel : Nat) : State :=
  match fuel with
  | 0 => s
  | n + 1 =>
    match sessGet s i with
    | none => s
    | some x =>
      match nextGoing x.tx (rd s (ztPage (sessXdie i)) fWINDOW) x.cwnd with
      | none => s
      | some k =>
        if x.pnTx + 2 ≥ 2 ^ 48 then closeOut s i 5
        else
          let tx := x.tx.map (fun d => if d.seq = k.seq then { d with gone := true, sentAt := s.now } else d)
          pumpFrom (countSent (transmit s i { x with tx := tx } k.body k.seq k.msg k.ends false) (sessXdie i) k.body) i n

/-- Every packet of a session that may leave now leaves. -/
def pump (s : State) (i : Nat) : State :=
  match sessGet s i with
  | none => s
  | some x => pumpFrom s i (x.tx.length + 1)

/-- A sequenced packet given to a session, its message starting at `msg`, or with this packet; `ends`: whether it is the first and the
last of the message (R340, R350). -/
def enqueue (s : State) (i : Nat) (msg : Option Word32) (o : Out) (ends : Bool × Bool) : State :=
  match sessGet s i with
  | none => s
  | some x =>
    let k : TxPkt := { seq := x.txNext, msg := msg.getD x.txNext, body := o, ends := ends, sacked := false, retx := 0, sentAt := s.now,
                       bytes := outBytes o, gone := false }
    sessPut s i { x with txNext := x.txNext + 1, tx := x.tx ++ [k] }

/-- A one-packet message sent on a session. -/
def send (s : State) (i : Nat) (o : Out) : State := pump (enqueue s i none o (true, true)) i

/-- The packets of one message sent on a session (R342). -/
def sendMessage (s : State) (i : Nat) (os : List Out) : State :=
  match sessGet s i with
  | none => s
  | some x =>
    pump (os.zipIdx.foldl (fun t o => enqueue t i (some x.txNext) o.1 (o.2 == 0, o.2 + 1 == os.length)) s) i

/-- The next sequence number of a session: the position that a message sent now takes. -/
def nextSeq (s : State) (i : Nat) : Word32 := match sessGet s i with | some x => x.txNext | none => 0

/-- An unsequenced packet of a session (R342). -/
def sendPlain (s : State) (i : Nat) (o : Out) : State :=
  match sessGet s i with
  | none => s
  | some x =>
    if x.pnTx + 2 ≥ 2 ^ 48 then closeOut s i 5
    else sendBare s i o

/-- An ACK packet (R351). -/
def sendAck (s : State) (i : Nat) : State :=
  match sessGet s i with
  | none => s
  | some x =>
    sendPlain s i (.ack (BitVec.ofNat 16 i) x.rxNext x.rxSack x.ceSeen)

/-- One STATUS message (R358). -/
def sendStatus (s : State) (i : Nat) (msg : Word32) (code detail : Nat) : State :=
  send s i (.status (BitVec.ofNat 16 i) msg code detail)

/-- The entry of partition p's peer table with an index, read on an X-die: session and EPOCH (R361); none where the access
fails with cause 0x5. -/
def peerEntry (s : State) (x p index : Nat) : Option (Nat × Nat) :=
  if rd s (ztPage x) (fPEERCOUNT p) ≤ index then none
  else
    match vload s p (rd s (ztPage x) (fPEERBASE p) + 8 * index) 8 with
    | .error _ => none
    | .ok b =>
      let i := leAt b 0 2
      match sessGet s i with
      | some y =>
        if leAt b 2 1 % 2 = 1 ∧ y.phase = .opened ∧ y.role = .peer ∧ y.partition = p then some (i, leAt b 4 4) else none
      | none => none

/-- A bulk read of a traffic class sent to a peer, its answer wanted by an owner; the tag is the position of the message
(notes/assumptions/32). -/
def sendRead (s : State) (i epoch addr len cls : Nat) (o : RdOwner) : State :=
  let tag := (nextSeq s i).toNat
  match sessGet s i with
  | none => s
  | some x => send (sessPut s i { x with rtags := x.rtags ++ [(tag, o, len)] }) i (.bulkRead (BitVec.ofNat 16 i) epoch addr len tag cls)

/-- The packets of a bulk write of bytes (R357). -/
def writePackets (i epoch addr : Nat) (bs : List Byte) (cls : Nat) : List Out :=
  (cut (bs.length / 8192 + 1) 0 bs.length 8192).map (fun r =>
    .bulkWrite (BitVec.ofNat 16 i) epoch addr bs.length r.1 ((bs.drop r.1).take (r.2 - r.1)) cls)

/-- A bulk write of a traffic class sent to a peer (R339). -/
def sendWrite (s : State) (i epoch addr : Nat) (bs : List Byte) (cls : Nat) : State :=
  sendMessage s i (writePackets i epoch addr bs cls)

end Sys2Proof.Machine
end

