-- ==== Sys2Proof/Machine/Movers.lean ====
section
/-! DEFINITION. Caddies, movers and rotation (R231-R242, R256-R262): transfer descriptors, slots and credits, the movement of one
element, page faults and the resume cursor, hops, and the end of a command whose transfer fails. -/

namespace Sys2Proof.Machine

/-- The slots of caddy c of a gallery (R232); one that nothing has used has every slot FREE. -/
def cadGet (s : State) (pg c : Nat) : Caddy :=
  match tfind (galGet s pg).caddies c with
  | some x => x
  | none => ⟨caddySize (caddyWord s (pg + 2) c) / slotSize (caddyWord s (pg + 2) c), 0, 0, [], false⟩

/-- The state with the slots of a caddy replaced. -/
def cadPut (s : State) (pg c : Nat) (x : Caddy) : State :=
  galPut s pg { galGet s pg with caddies := tins (galGet s pg).caddies c x }

/-- FREE slots of a caddy (R232). -/
def cadFree (x : Caddy) : Nat := x.count - x.slots.length
/-- FULL slots of a caddy. -/
def cadFull (x : Caddy) : Nat := (x.slots.filter (fun e => e.2.phase == .full)).length

/-- The word of MOV_CREDc (R261). -/
def cadWord (s : State) (pg c : Nat) : Nat :=
  let x := cadGet s pg c
  if caddyValid (caddyWord s (pg + 2) c) then cadFree x + cadFull x * 2 ^ 16 + x.head * 2 ^ 32 + x.tail * 2 ^ 48 else 0

/-- Cabinet offset of slot n of a caddy. -/
def slotBase (s : State) (pg c n : Nat) : Nat := caddyBase (caddyWord s (pg + 2) c) + n * slotSize (caddyWord s (pg + 2) c)

/-- A FREE slot taken by a producer at HEAD for a command (R232): its number and the state. -/
def slotTake (s : State) (pg c : Nat) (owner : Nat × Nat) : Option (State × Nat) :=
  let x := cadGet s pg c
  if x.count ≤ x.slots.length ∨ (tfind x.slots x.head).isSome then none
  else some (cadPut s pg c { x with head := (x.head + 1) % x.count, slots := tins x.slots x.head ⟨.filling, 0, 0, 0, owner⟩ }, x.head)

/-- A slot made FULL with its bytes, its remainder zero (R232). -/
def slotFull (s : State) (pg c n bytes : Nat) : State :=
  let w := caddyWord s (pg + 2) c
  let x := cadGet s pg c
  let old := (tfind x.slots n).getD ⟨.filling, 0, 0, 0, (4, 0)⟩
  let bays := if caddyRole w = 1 ∨ caddyRole w = 4 then caddyBays w else 0
  let s1 := cadPut s pg c { x with slots := tins x.slots n { old with phase := .full, bytes := bytes, bays := bays } }
  (store s1 (cabAddr s pg (slotBase s pg c n + bytes)) (List.replicate (slotSize w - bytes) 0)).1

/-- The slab number that a resident slot carries (R240). -/
def slotSlab (s : State) (pg c n v : Nat) : State :=
  let x := cadGet s pg c
  match tfind x.slots n with
  | some k => cadPut s pg c { x with slots := tins x.slots n { k with slab := v } }
  | none => s

/-- The FULL slot at TAIL taken by a consumer (R232). -/
def slotConsume (s : State) (pg c : Nat) : Option (State × Nat) :=
  let x := cadGet s pg c
  match tfind x.slots x.tail with
  | some k =>
    if k.phase = .full then
      some (cadPut s pg c { x with tail := (x.tail + 1) % x.count, slots := tins x.slots x.tail { k with phase := .consuming } }, x.tail)
    else none
  | none => none

/-- A slot returned FREE in its place in the ring (R232). -/
def slotFree (s : State) (pg c n : Nat) : State :=
  let x := cadGet s pg c
  cadPut s pg c { x with slots := tdel x.slots n }

/-- A slot a producer gives back unfilled: HEAD steps back over it (R259). -/
def slotBack (s : State) (pg c n : Nat) : State :=
  let x := cadGet s pg c
  cadPut s pg c { x with head := n, slots := tdel x.slots n }

/-- Bytes read, and the state in which their correctable errors are counted and written back (R229). -/
def loadHeal (s : State) (a n : Nat) : Except Nat (State × List Byte) :=
  match load s a n with
  | .error e => .error e
  | .ok b => .ok (healRange s a n, b)

/-- TAIL moved over slots that are FREE. -/
def skipFree (x : Caddy) (fuel : Nat) : Caddy :=
  match fuel with
  | 0 => x
  | f + 1 => if x.tail ≠ x.head ∧ (tfind x.slots x.tail).isNone then skipFree { x with tail := (x.tail + 1) % x.count } f else x

/-- A slot read by the bays of a list for the last time: FREE once no bay of BAYS is left (R232, R234). -/
def slotRelease (s : State) (pg c n : Nat) (bays : List Nat) : State :=
  let x := cadGet s pg c
  match tfind x.slots n with
  | none => s
  | some k =>
    let left := (List.range 4).filter (fun i => bit k.bays i && !bays.contains i)
    let x1 := if n = x.tail then { x with tail := (x.tail + 1) % x.count } else x
    let slots := if left = [] then tdel x.slots n else tins x.slots n { k with phase := .consuming, bays := maskOf left }
    cadPut s pg c (skipFree { x1 with slots := slots } x.count)

/-- The bay mode of a gallery (R148). -/
def bayMode (s : State) (g : Nat) : Nat := rd s (arrPage g) ⟨0x100, 0, 2⟩
/-- The bay that keeps the stream which bay b belongs to: itself in split mode, else bay 0 (R135). -/
def streamBay (s : State) (g b : Nat) : Nat := if bayMode s g = 1 then b else 0
/-- The bays of a stream. -/
def streamBays (s : State) (g b : Nat) : List Nat := if bayMode s g = 1 then [b] else [0, 1, 2, 3]

/-- The slots of a caddy that a command's transfers or results filled, given back: an accumulator slot that it still fills as by a
producer; the others read to the end by the command's bays, with their contents discarded (R64, R143, R234, R259). -/
def releaseCaddy (s : State) (g : Nat) (c : Begun) (k : Nat) : State :=
  let pg := galPage g
  let role := caddyRole (caddyWord s (pg + 2) k)
  let mine := ((cadGet s pg k).slots.filter (fun e => e.2.owner == (c.queue, c.index))).map (·.1)
  if role = 2 then
    c.accSlots.reverse.foldl (fun t n =>
      match tfind (cadGet t pg k).slots n with
      | some y => if y.phase = .filling ∧ y.owner = (c.queue, c.index) then slotBack t pg k n else t
      | none => t) s
  else mine.foldl (fun t n => slotRelease t pg k n (streamBays s g c.queue)) s

/-- Every slot of an ARRAY, ATTENTION or SKETCH command given back. -/
def releaseSlots (s : State) (g : Nat) (c : Begun) : State :=
  if cmdOp c.bytes = 1 ∨ cmdOp c.bytes = 4 ∨ cmdOp c.bytes = 6 then
    ((galGet s (galPage g)).caddies.map (·.1)).foldl (fun t k => releaseCaddy t g c k) s
  else s

/-- Bytes of an element by ESIZE (R235). -/
def elemSize (e : Nat) : Nat := match e with | 0 => 2 | 1 => 4 | _ => 32

/-- The fields of a transfer descriptor (R235). -/
def parseTransfer (b : List Byte) : Transfer :=
  { vbase := leAt b 0 6, ndim := leAt b 6 1, kdims := leAt b 7 1, esize := leAt b 8 1, dir := leAt b 9 1, caddy := leAt b 10 1
    dims := (List.range 6).map (fun i => ⟨leAt b (16 + 8 * i) 4, sext 16 (leAt b (20 + 8 * i) 2), leAt b (22 + 8 * i) 1⟩)
    axes := (List.range 6).map (fun a => ⟨sext 64 (leAt b (64 + 16 * a) 8), leAt b (72 + 16 * a) 4, sext 32 (leAt b (76 + 16 * a) 4)⟩) }

/-- The product of the counts of some dimensions. -/
def countProduct (ds : List Dim) : Nat := ds.foldl (fun n d => n * d.count) 1

/-- Elements of a transfer. -/
def transferCount (t : Transfer) : Nat := countProduct (t.dims.take t.ndim)
/-- Its K index count (R238). -/
def kCount (t : Transfer) : Nat := countProduct (t.dims.take t.kdims)
/-- Its M index count (R238). -/
def mCount (t : Transfer) : Nat := countProduct ((t.dims.take t.ndim).drop t.kdims)

/-- The bytes of a descriptor that hold a fault by themselves (R235). -/
def transferFaults (b : List Byte) : List Nat :=
  let t := parseTransfer b
  let e : Nat := elemSize t.esize
  let at_ := fun (c : Bool) (n : Nat) => if c then [n] else []
  at_ (decide (t.esize ≤ 2) && t.vbase % e != 0) 0 ++ at_ (t.ndim == 0 || decide (6 < t.ndim)) 6 ++
    at_ (decide (t.ndim < t.kdims)) 7 ++ at_ (decide (2 < t.esize)) 8 ++ at_ (decide (1 < t.dir)) 9 ++
    at_ (decide (63 < t.caddy)) 10 ++ (firstSet b 11 5).toList ++
    (List.range 6).flatMap (fun i =>
      if i < t.ndim then
        at_ (leAt b (16 + 8 * i) 4 == 0) (16 + 8 * i) ++ at_ (decide (5 < leAt b (22 + 8 * i) 1)) (22 + 8 * i) ++
          (firstSet b (23 + 8 * i) 1).toList
      else (firstSet b (16 + 8 * i) 8).toList) ++
    at_ (decide (2 ^ 48 ≤ transferCount t)) 16 ++
    (List.range 6).flatMap (fun a =>
      let d := (t.axes.getD a ⟨0, 0, 0⟩).stride
      at_ ((decide (t.esize ≤ 2) && d % (e : Int) != 0) || decide (2 ^ 47 ≤ d.natAbs)) (64 + 16 * a))

/-- Whether a caddy's role fits a direction (R231, R235). -/
def roleFits (role dir : Nat) : Bool := if dir = 0 then role == 1 || role == 4 || role == 5 else role == 3

/-- The lowest offending byte of a descriptor for a gallery (R235). -/
def descFault (s : State) (pg : Nat) (b : List Byte) : Option Nat :=
  let t := parseTransfer b
  let w := caddyWord s (pg + 2) t.caddy
  let c := if caddyValid w = false ∨ roleFits (caddyRole w) t.dir = false then [10] else []
  (transferFaults b ++ c).foldl (fun m n => match m with | some k => some (min k n) | none => some n) none

/-- The index vector of element e, dimension 0 fastest (R236). -/
def indexVector (ds : List Dim) (e : Nat) : List Nat :=
  match ds with
  | [] => []
  | d :: r => e % d.count :: indexVector r (e / d.count)

/-- The coordinate of an axis (R236). -/
def coordOf (t : Transfer) (idx : List Nat) (a : Nat) : Int :=
  (((t.dims.take t.ndim).zip idx).foldl (fun (z : Int) di => if di.1.axis = a then z + di.2 * di.1.mult else z) 0) -
    (t.axes.getD a ⟨0, 0, 0⟩).pad

/-- The address of an element, or that it is a padding element (R236). -/
def elementAt (t : Transfer) (e : Nat) : Option Int :=
  let idx := indexVector (t.dims.take t.ndim) e
  let pad := (List.range 6).any (fun a =>
    let x := t.axes.getD a ⟨0, 0, 0⟩
    x.extent != 0 && (decide (coordOf t idx a < 0) || decide ((x.extent : Int) ≤ coordOf t idx a)))
  if pad then none
  else some ((t.vbase : Int) + (List.range 6).foldl (fun (z : Int) a => z + coordOf t idx a * (t.axes.getD a ⟨0, 0, 0⟩).stride) 0)

/-- A field of mover m's registers on the movers page (R261). -/
def fMSTATE (m : Nat) : FRef := ⟨0x108 + 8 * m, 0, 2⟩
/-- MOVm_STATUS as a whole. -/
def fMSTATUS (m : Nat) : FRef := ⟨0x108 + 8 * m, 0, 64⟩
/-- MOV_CFG.Mm_EN. -/
def fMEN (m : Nat) : FRef := ⟨0x100, m, 1⟩
/-- MOV_CFG.RUNAHEAD. -/
def fRUNAHEAD : FRef := ⟨0x100, 8, 8⟩

/-- The transfers given to mover m, the current one first. -/
def moverJobs (s : State) (pg m : Nat) : List MovJob := ((galGet s pg).movers.getD m ⟨[]⟩).jobs

/-- The state with those transfers replaced. -/
def putJobs (s : State) (pg m : Nat) (js : List MovJob) : State :=
  galPut s pg { galGet s pg with movers := setAt (galGet s pg).movers m ⟨js⟩ }

/-- The resume cursor of a mover (R257, R261). -/
def showCursor (s : State) (pg m : Nat) (j : MovJob) : State :=
  let i := indexVector (j.desc.dims.take j.desc.ndim) j.done
  let a := (pg + 2) * 4096 + 0x600 + 0x20 * m
  let two := fun (k : Nat) => i.getD k 0 + i.getD (k + 1) 0 * 2 ^ 32
  regPut (regPut (regPut (regPut s a (two 0)) (a + 8) (two 2)) (a + 16) (two 4)) (a + 24) (j.done % 2 ^ 48)

/-- The TAG of a transfer's command. -/
def jobTag (s : State) (pg : Nat) (j : MovJob) : Nat :=
  match (galGet s pg).begun.find? (fun c => c.queue == j.queue && c.index == j.index) with
  | some c => cmdTag c.bytes
  | none => 0

/-- MOVm_STATUS for the transfers given to the mover: the current one begins and is ACTIVE, or the mover is IDLE (R261); the first
of a command on the mover begins a run (R523). -/
def showMover (s : State) (pg m : Nat) : State :=
  match moverJobs s pg m with
  | [] => wr s (pg + 2) (fMSTATUS m) 0
  | j :: r =>
    let s1 := if j.started.isNone then
        let s0 := putJobs s pg m ({ j with started := some s.now } :: r)
        tally (if j.first then beginRun s0 (pg + 2) 40 m (jobTag s pg j) else s0) (pg + 2) (40 + 8 * m) 1
      else s
    showCursor (wr s1 (pg + 2) (fMSTATUS m) (1 + j.desc.dir * 4 + j.desc.caddy * 8 + j.descVa * 2 ^ 16)) pg m j

/-- A transfer given to mover m of a gallery, behind those it has (R235). -/
def giveJob (s : State) (g m q index descVa : Nat) (t : Transfer) : State :=
  let pg := galPage g
  let js := moverJobs s pg m
  let s1 := putJobs s pg m (js ++ [{ desc := t, descVa := descVa, queue := q, index := index, done := 0, slot := none, pos := 0,
                                     started := none, peer := .none, first := !js.any (fun j => j.queue == q && j.index == index) }])
  if js = [] then showMover s1 pg m else s1

/-- The slot a transfer holds returned: FREE, its contents discarded (R259). -/
def dropSlot (s : State) (pg : Nat) (j : MovJob) : State :=
  match j.slot with
  | none => s
  | some n => if j.desc.dir = 0 then slotBack s pg j.desc.caddy n else slotFree s pg j.desc.caddy n

/-- The transfers of a command taken from both movers; one whose current transfer is another command's keeps its state (R260). -/
def dropJobs (s : State) (pg q index : Nat) : State :=
  [0, 1].foldl (fun t m =>
    let js := moverJobs t pg m
    let mine := js.filter (fun j => j.queue == q && j.index == index)
    let s1 := mine.foldl (fun u j => dropSlot u pg j) (putJobs t pg m (js.filter (fun j => !(j.queue == q && j.index == index))))
    match js with
    | [] => t
    | j :: _ => if j.queue = q ∧ j.index = index then showMover s1 pg m else if mine = [] then t else s1) s

/-- A bay without the passes of a command (R134, R259). -/
def bayWithout (b : Bay) (q index : Nat) : Bay :=
  let keep := fun (p : Option Pass) => p.filter (fun x => !(x.queue == q && x.index == index))
  let b1 := { b with old := keep b.old, cur := keep b.cur, load := keep b.load }
  { b1 with rowsLoaded := if b1.load.isSome then b.rowsLoaded else [], rowsEntered := if b1.cur.isSome || b1.load.isSome then b.rowsEntered else [] }

/-- A begun command ended with a status and a detail, its transfers, its slots and its passes taken away (R64). -/
def abandon (s : State) (g q index status detail : Nat) : State :=
  let pg := galPage g
  let s0 := dropJobs s pg q index
  let s1 := match begunFind s0 g q index with | some c => releaseSlots s0 g c | none => s0
  let x := galGet s1 pg
  endBegun (galPut s1 pg { x with bays := x.bays.map (fun b => bayWithout b q index) }) g q index status detail

/-- A transfer that ends with EV_MOV_ABORTED; its command ends with a status (R259). -/
def abortJob (s : State) (g m : Nat) (j : MovJob) (status detail : Nat) : State :=
  abandon (tally (raise s (movPage g) (10 + m)) (movPage g) (34 + m) 1) g j.queue j.index status detail

/-- MOVm_FAULT (R261). -/
def putFault (s : State) (g m cause : Nat) (write level1 : Bool) (va : Nat) : State :=
  regPut s (movPage g * 4096 + 0x128 + 8 * m)
    (cause + b2n (1 ≤ cause ∧ cause ≤ 5) * 16 + b2n write * 32 + b2n level1 * 64 + va % 2 ^ 48 * 2 ^ 16)

/-- A failed access of element e: FAULT_WAIT with the cursor and the record, or the end of the transfer (R256-R259, R441, R448). -/
def elementFault (s0 : State) (g m : Nat) (j : MovJob) (va : Nat) (e : AccErr) : State :=
  let pg := movPage g
  let s := voidPart s0 pg
  let own := pageOwner s pg
  match e with
  | .fault 6 _ _ => abortJob (recordErr (putFault s g m 6 (j.desc.dir == 1) false va) pg 0x80 own va false (m * 2 ^ 8)) g m j cFMOVER (m * 2 ^ 8)
  | .fault c l1 cur =>
    let s1 := tally (wr (putFault s g m c (j.desc.dir == 1) l1 va) pg (fMSTATE m) 2) pg (32 + m) 1
    let s2 := showCursor s1 (galPage g) m j
    if cur then raiseZero s2 pg (8 + m) else raise s2 pg (8 + m)
  | .table a l1 => abortJob (recordBad (putFault s g m 7 (j.desc.dir == 1) l1 va) pg own a) g m j cFDATA 0
  | .owner a => abortJob (recordErr s pg 0x07 own a true 0) g m j cFMOVER 0
  | .data a => abortJob (recordBad s pg own a) g m j cFDATA 0

/-- Whether the record of a transfer's command says it is over but for its completion: a TRANSFER ends with its transfer. -/
def jobOver (s : State) (g : Nat) (j : MovJob) : State :=
  match begunFind s g j.queue j.index with
  | some c => if cmdOp c.bytes = 2 then endBegun s g j.queue j.index cDONE 0 else s
  | none => s

/-- The current transfer of a mover replaced by its progress, or done with (R232, R237). -/
def jobNext (s : State) (g m : Nat) (j : MovJob) : State :=
  let pg := galPage g
  let r := (moverJobs s pg m).tail
  if transferCount j.desc ≤ j.done then
    let s1 := match j.slot with
      | none => s
      | some n => if j.desc.dir = 0 then slotFull s pg j.desc.caddy n j.pos else slotFree s pg j.desc.caddy n
    let s2 := tally s1 (pg + 2) (16 + histBin 256 (s.now - j.started.getD s.now)) 1
    jobOver (showMover (putJobs s2 pg m r) pg m) g j
  else showCursor (putJobs s pg m (j :: r)) pg m j

/-- What the Ledger counts of an element: a padding element, or a fetched one with its bytes and its table walk (R528). -/
def countElement (s : State) (pg m : Nat) (t : Transfer) (padding : Bool) : State :=
  let c := fun (u : State) (i w : Nat) => tally u (pg + 2) (40 + 8 * m + i) w
  if padding then c s 2 1 else c (c (c s 1 1) (if t.dir = 0 then 3 else 4) (elemSize t.esize)) 5 1

/-- WATCHw_CFG.ARM (R542). -/
def fWARM (w : Nat) : FRef := ⟨0x600 + 0x40 * w, 43, 1⟩
/-- WATCHw_STAT.WRITTEN. -/
def fWRITTEN (w : Nat) : FRef := ⟨0x620 + 0x40 * w, 0, 48⟩
/-- WATCHw_STAT.STATE. -/
def fWSTATE (w : Nat) : FRef := ⟨0x620 + 0x40 * w, 48, 2⟩

/-- Whether watch w of a gallery is armed for a command on mover m (R540). -/
def watchHit (s : State) (pg w m : Nat) (b : List Byte) : Bool :=
  let side := rd s pg ⟨0x600 + 0x40 * w, 41, 2⟩
  watchMatch s pg w b && (side == m || side == 2)

/-- The bytes of an element appended by watch w to what it has captured of command c (R540, R541). -/
def captureOne (s : State) (g m : Nat) (j : MovJob) (bs : List Byte) (w : Nat) : State :=
  let pg := galPage g
  match begunFind s g j.queue j.index with
  | none => s
  | some c =>
    if watchHit s pg w m c.bytes then
      let n := rd s pg (fWRITTEN w)
      let s1 := if (tfind c.watchAt w).isSome then s else begunPut s g { c with watchAt := tins c.watchAt w n }
      if rd s pg ⟨0x618 + 0x40 * w, 0, 48⟩ < n + bs.length then wr (wr s1 pg (fWSTATE w) 2) pg (fWARM w) 0
      else
        match vstore s1 ((pageOwner s pg).getD 0) (rd s pg ⟨0x610 + 0x40 * w, 0, 48⟩ + n) bs with
        | (s2, some _) => tally (wr (wr s2 pg (fWSTATE w) 3) pg (fWARM w) 0) (pg + 2) 39 1
        | (s2, none) => tally (wr s2 pg (fWRITTEN w) (n + bs.length)) (pg + 2) 38 bs.length
    else s

/-- An element captured by the tensor watches of its gallery (R540). -/
def capture (s : State) (g m : Nat) (j : MovJob) (bs : List Byte) : State :=
  (List.range 4).foldl (fun t w => captureOne t g m j bs w) s

/-- What the watches captured of an abandoned run taken back: WRITTEN rewinds to its value at the run's start (R541). -/
def rewindWatches (s : State) (g : Nat) (c : Begun) : State :=
  let pg := galPage g
  let s1 := c.watchAt.foldl (fun t e => wr t pg (fWRITTEN e.1) (min e.2 (rd t pg (fWRITTEN e.1)))) s
  begunPut s1 g { c with watchAt := [] }

/-- One element delivered into the slot a transfer of direction 0 holds (R237). -/
def elementIn (s : State) (g m : Nat) (j : MovJob) (n : Nat) (bs : List Byte) : State :=
  let pg := galPage g
  let s0 := capture s g m j bs
  let s1 := (store s0 (cabAddr s pg (slotBase s pg j.desc.caddy n + j.pos)) bs).1
  let j1 := { j with done := j.done + 1, pos := j.pos + bs.length, peer := .none }
  if slotSize (caddyWord s (pg + 2) j.desc.caddy) ≤ j1.pos then
    jobNext (slotFull s1 pg j.desc.caddy n j1.pos) g m { j1 with slot := none, pos := 0 }
  else jobNext s1 g m j1

/-- A transfer of direction 1 past one element of the slot it holds (R237). -/
def elementOut (s : State) (g m : Nat) (j : MovJob) (n size : Nat) : State :=
  let pg := galPage g
  let j1 := { j with done := j.done + 1, pos := j.pos + size, peer := .none }
  let full := ((tfind (cadGet s pg j.desc.caddy).slots n).getD ⟨.full, 0, 0, 0, (4, 0)⟩).bytes
  if full ≤ j1.pos then jobNext (slotFree s pg j.desc.caddy n) g m { j1 with slot := none, pos := 0 } else jobNext s g m j1

/-- The wait on a peer that a transfer's current element needs, if it has none (R254, R361); `cur` is FAULT_TO of its page (R257). -/
def peerAsk (s : State) (g m : Nat) (j : MovJob) (index rpage va size : Nat) (cur : Bool) (out : Option (List Byte)) : State :=
  let pg := galPage g
  let p := (pageOwner s pg).getD 0
  let r := (moverJobs s pg m).tail
  match peerEntry s 0 p index with
  | none => elementFault (putJobs s pg m (j :: r)) g m j va (.fault 5 false cur)
  | some (i, epoch) =>
    let addr := frameSize * rpage + va % frameSize
    let seq := nextSeq s i
    let j1 := { j with peer := .waiting (BitVec.ofNat 16 i) seq.toNat seq }
    let s1 := putJobs s pg m (j1 :: r)
    match out with
    | none => sendRead s1 i epoch addr size 1 (.mover pg m)
    | some bs => sendWrite s1 i epoch addr bs 1

/-- The part of an element's fetch that reads physical memory: the owner check of R448, then the read. -/
def fetchPhys (s0 : State) (p g m : Nat) (j : MovJob) (n va pa : Nat) : State :=
  match ownerCheck s0 p pa with
  | .error e => elementFault s0 g m j va e
  | .ok _ =>
    match load s0 pa (elemSize j.desc.esize) with
    | .error d => elementFault s0 g m j va (.data d)
    | .ok bs => elementIn (countElement (healRange s0 pa (elemSize j.desc.esize)) (galPage g) m j.desc false) g m j n bs

/-- The part of an element's fetch that reads a peer's memory: the answer where it has come, the message where it has not been sent;
s is the state before this row, which a wait for the answer leaves. -/
def fetchPeer (s s0 : State) (g m : Nat) (j : MovJob) (n va index rpage : Nat) (cur : Bool) : State :=
  let size : Nat := elemSize j.desc.esize
  match j.peer with
  | .data bs => elementIn (countElement s0 (galPage g) m j.desc false) g m j n (padTo size (bs.take size))
  | .failed => elementFault s0 g m { j with peer := .none } va (.fault 5 false cur)
  | .waiting _ _ _ => s
  | .none => peerAsk s0 g m j index rpage va size cur none

/-- An access to a flash or a peer page breaks the frames of the partition (R328); that the frames in flight are those that use the page
is DESIGN CHOICE, notes/assumptions/16. -/
def voidFar (s : State) (g : Nat) (place : Except AccErr Place) : State :=
  match place with
  | .ok (.phys b) => if flashBase ≤ b ∧ b < flashTop then voidPart s (galPage g) else s
  | .ok (.peer _ _ _) => voidPart s (galPage g)
  | .error _ => s

/-- Element e read from memory or a peer and delivered, the slot held (R236, R237, R254, R256). -/
def elementFetch (s : State) (g m : Nat) (j : MovJob) (n : Nat) : State :=
  let pg := galPage g
  let p := (pageOwner s pg).getD 0
  let s0 := putJobs s pg m (j :: (moverJobs s pg m).tail)
  match elementAt j.desc j.done with
  | none => elementIn (countElement s0 pg m j.desc true) g m j n (List.replicate (elemSize j.desc.esize) 0)
  | some a =>
    if a < 0 ∨ (2 : Int) ^ 48 ≤ a then elementFault s0 g m j (toField 63 a) (.fault 6 false false)
    else
      let place := translate s0 p a.toNat false
      let s1 := voidFar s0 g place
      match place with
      | .error e => elementFault s1 g m j a.toNat e
      | .ok (.peer index rpage cur) => fetchPeer s s1 g m j n a.toNat index rpage cur
      | .ok (.phys b) => fetchPhys s1 p g m j n a.toNat (b + a.toNat % frameSize)

/-- The part of an element's store that writes physical memory: the owner check of R448, then the write. -/
def storePhys (s1 : State) (p g m : Nat) (j : MovJob) (n va pa : Nat) (bs : List Byte) : State :=
  match ownerCheck s1 p pa with
  | .error e => elementFault s1 g m j va e
  | .ok _ =>
    match store s1 pa bs with
    | (s2, some d) => elementFault s2 g m j va (.data d)
    | (s2, none) =>
      elementOut (capture (countElement s2 (galPage g) m j.desc false) g m j bs) g m j n (elemSize j.desc.esize)

/-- The part of an element's store that writes a peer's memory; s is the state before this row. -/
def storePeer (s s1 : State) (g m : Nat) (j : MovJob) (n va index rpage : Nat) (cur : Bool) (bs : List Byte) : State :=
  match j.peer with
  | .data _ => elementOut (capture (countElement s1 (galPage g) m j.desc false) g m j bs) g m j n (elemSize j.desc.esize)
  | .failed => elementFault s1 g m { j with peer := .none } va (.fault 5 false cur)
  | .waiting _ _ _ => s
  | .none => peerAsk s1 g m j index rpage va (elemSize j.desc.esize) cur (some bs)

/-- Element e taken from the slot held and written to memory or a peer (R236, R237, R254, R256). -/
def elementStore (s : State) (g m : Nat) (j : MovJob) (n : Nat) : State :=
  let pg := galPage g
  let p := (pageOwner s pg).getD 0
  let size : Nat := elemSize j.desc.esize
  let s1 := putJobs s pg m (j :: (moverJobs s pg m).tail)
  let s0 := match elementAt j.desc j.done with | some a => voidFar s1 g (translate s1 p a.toNat true) | none => s1
  let ca := cabAddr s pg (slotBase s pg j.desc.caddy n + j.pos)
  match elementAt j.desc j.done with
  | none => elementOut (countElement s0 pg m j.desc true) g m j n size
  | some a =>
    if a < 0 ∨ (2 : Int) ^ 48 ≤ a then elementFault s0 g m j (toField 63 a) (.fault 6 false false)
    else
      match translate s0 p a.toNat true with
      | .error e => elementFault s0 g m j a.toNat e
      | .ok place =>
        match load s0 ca size with
        | .error d => elementFault s0 g m j a.toNat (.data d)
        | .ok bs =>
          match place with
          | .peer index rpage cur => storePeer s (healRange s0 ca size) g m j n a.toNat index rpage cur bs
          | .phys b => storePhys (healRange s0 ca size) p g m j n a.toNat (b + a.toNat % frameSize) bs

/-- The place of a command in the order a gallery accepted its commands. -/
def begunPlace (s : State) (g q index : Nat) : Nat := (galGet s (galPage g)).begun.findIdx (fun c => c.queue == q && c.index == index)

/-- Whether a ROTATE accepted before a command still holds mover 1 (R241). -/
def rotateAhead (s : State) (g q index : Nat) : Bool :=
  ((galGet s (galPage g)).begun.take (begunPlace s g q index)).any (fun c => cmdOp c.bytes == 7 && c.phase == .running)

/-- Whether the movers page lets a transfer go on: while it is STOPPING, the element that has begun alone (R239). -/
def moverRuns (s : State) (pg : Nat) (j : MovJob) : Bool :=
  running s (pg + 2) || (blkState s (pg + 2) == stStopping && decide (j.peer ≠ .none))

/-- An element whose address generation fails its check: an uncorrectable word where the element would have been written (R443), in the
cabinet for direction 0, else at its destination. -/
def badElement (s : State) (g m : Nat) (j : MovJob) (n : Nat) : State :=
  let pg := galPage g
  let a := ((elementAt j.desc j.done).getD 0).toNat
  let s0 := putJobs s pg m (j :: (moverJobs s pg m).tail)
  if j.desc.dir = 0 then elementFault s0 g m j a (.data (cabAddr s pg (slotBase s pg j.desc.caddy n + j.pos)))
  else
    match translate s0 ((pageOwner s pg).getD 0) a true with
    | .error e => elementFault s0 g m j a e
    | .ok (.phys b) => elementFault s0 g m j a (.data (b + a % frameSize))
    | .ok (.peer _ _ cur) => elementFault s0 g m j a (.fault 5 false cur)

/-- Whether the access of a transfer's current element is to a stack whose controller is STOPPED, which holds it (R246). -/
def elementHeld (s : State) (pg : Nat) (j : MovJob) : Bool :=
  match elementAt j.desc j.done with
  | some a => heldVa s ((pageOwner s pg).getD 0) a.toNat (j.desc.dir == 1)
  | none => false

/-- MOVER_ELEMENT: one element of the current transfer of mover m (R235-R239, R256-R259, R261); `fails`: its address generation fails its
check (R443). -/
def moverElement (s : State) (g m : Nat) (fails : Bool) : State :=
  let fetch := if fails then badElement else elementFetch
  let put := if fails then badElement else elementStore
  let pg := galPage g
  match moverJobs s pg m with
  | [] => s
  | j :: _ =>
    if moverRuns s pg j = false ∨ elementHeld s pg j = true ∨ rd s (pg + 2) (fMSTATE m) = 2 ∨ (m = 1 ∧ rotateAhead s g j.queue j.index = true) then s
    else if rd s (pg + 2) (fMEN m) = 0 then abortJob s g m j cFMOVER 0
    else
      let c := j.desc.caddy
      if j.desc.dir = 0 then
        match j.slot with
        | some n => fetch s g m j n
        | none =>
          let ahead := rd s (pg + 2) fRUNAHEAD
          if ahead ≠ 0 ∧ ahead ≤ cadFull (cadGet s pg c) then s
          else
            match slotTake s pg c (j.queue, j.index) with
            | none => s
            | some (s1, n) => fetch s1 g m { j with slot := some n, pos := 0 } n
      else
        match j.slot with
        | some n => put s g m j n
        | none =>
          match slotConsume s pg c with
          | none => s
          | some (s1, n) => put s1 g m { j with slot := some n, pos := 0 } n

/-- RESUME in FAULT_WAIT (R258). -/
def moverResume (s : State) (g m : Nat) : State :=
  let pg := galPage g
  match moverJobs s pg m with
  | [] => s
  | j :: r => wr (putJobs s pg m ({ j with peer := .none } :: r)) (pg + 2) (fMSTATE m) 1

/-- ABORT in FAULT_WAIT (R259). -/
def moverAbort (s : State) (g m : Nat) : State :=
  match moverJobs s (galPage g) m with
  | [] => s
  | j :: _ => abortJob s g m j cFMOVER 0

/-- The rotation descriptor of a ROTATE, read at its acceptance and kept behind the command's bytes (R241, R571). -/
def rotationOf (b : List Byte) : List Byte := b.drop 128

/-- The members of a ring (R241). -/
def ringMembers (d : List Byte) : List Nat := (List.range (min (leAt d 0 1) 64)).map (fun r => leAt d (16 + 2 * r) 2)

/-- Whether a begun command is a ROTATE that is not over. -/
def isRotate (c : Begun) : Bool := cmdOp c.bytes == 7 && c.phase == .running

/-- The ROTATE a gallery runs: the first accepted that is not over. -/
def rotateOf (s : State) (g : Nat) : Option Begun := (galGet s (galPage g)).begun.find? isRotate

/-- A ROTATE that has sent and received every hop is over (R240, R241). -/
def rotateDone (s : State) (g : Nat) (c : Begun) : State :=
  let s1 := begunPut s g c
  if leAt c.bytes 38 1 ≤ c.hops ∧ leAt c.bytes 38 1 ≤ c.cursor then endBegun s1 g c.queue c.index cDONE 0 else s1

/-- The slab number that hop number n of ring position r carries, slabs being numbered by the position they started at (R240;
notes/assumptions/153). -/
def hopSlab (ms : List Nat) (r n : Nat) : Nat := (r + n * (ms.length - 1)) % ms.length

/-- Whether a gallery refuses a hop for its epoch or because it is stale (R301, R303). -/
def hopStale (s : State) (g next : Nat) : Bool :=
  rd s (galPage next) fSTALE == 1 || rd s (movPage next) fEPOCH != rd s (movPage g) fEPOCH

/-- A refused hop: CODE 0x05 at the receiver; the sender's rotation ends (R301, R303; notes/assumptions/152). -/
def hopRefused (s : State) (g next : Nat) (c : Begun) : State :=
  abandon (recordErr s (movPage next) 0x05 (pageOwner s (movPage g)) 0 false 0) g c.queue c.index cFRING 0

/-- One hop sent by gallery g (R240-R242): hop n sends the slab of the n-th slot after the one that was newest when the rotation began,
which is its own for hop 0 and else the one hop n-1 of its predecessor brought; it goes into the slot at HEAD of the next member, which
has begun the rotation, has sent all it received before, and has a FREE slot. -/
def hopOnce (s : State) (g : Nat) (c : Begun) (d : List Byte) : State :=
  let ms := ringMembers d
  let next := ms.getD ((ms.findIdx (· == g) + 1) % ms.length) g
  let cad := leAt d 1 1
  let x := cadGet s (galPage g) cad
  if hopStale s g next then hopRefused s g next c
  else match rotateOf s next with
  | none => s
  | some r =>
    let starts := fun (t : State) (h : Nat) (k : Begun) =>
      if k.hops = 0 ∧ k.cursor = 0 then beginRun t (movPage h) 40 1 (cmdTag k.bytes) else t
    if running s (movPage next) = false ∨ leAt r.bytes 38 1 ≤ r.cursor ∨ r.hops < r.cursor ∨ c.cursor < c.hops ∨ x.count = 0 then s
    else
      let from_ := (x.head + x.count * 256 - 1 - c.cursor + c.hops) % x.count
      if (tfind x.slots from_).any (fun k => k.phase == .filling) then s
      else
        let ca := cabAddr s (galPage g) (slotBase s (galPage g) cad from_)
        match loadHeal s ca (leAt d 4 4) with
        | .error a =>
          abandon (recordBad s (movPage g) (pageOwner s (galPage g)) a) g c.queue c.index cFDATA 0
        | .ok (s0, bs) =>
          match slotTake s0 (galPage next) cad (r.queue, r.index) with
          | none => s
          | some (s1, n) =>
            let s2 := (store s1 (cabAddr s1 (galPage next) (slotBase s1 (galPage next) cad n)) bs).1
            let s3 := slotSlab (slotFull s2 (galPage next) cad n bs.length) (galPage next) cad n (hopSlab ms (ms.findIdx (· == g)) c.hops)
            let s4 := tally (tally (starts (starts s3 g c) next r) (movPage g) 36 1) (movPage next) 37 1
            let s5 := rotateDone s4 next { r with cursor := r.cursor + 1 }
            match begunFind s5 g c.queue c.index with
            | some c1 => rotateDone s5 g { c1 with hops := c1.hops + 1 }
            | none => s5

/-- HOP: a hop of the rotation that gallery g runs, as mover 1's work (R241). -/
def hopGallery (s : State) (g : Nat) : State :=
  match rotateOf s g with
  | none => s
  | some c =>
    let earlier := (moverJobs s (galPage g) 1).any (fun j => decide (begunPlace s g j.queue j.index < begunPlace s g c.queue c.index))
    if running s (movPage g) = false ∨ earlier = true ∨ leAt c.bytes 38 1 ≤ c.hops then s
    else if rd s (movPage g) (fMEN 1) = 0 then abandon s g c.queue c.index cFMOVER 0
    else hopOnce s g c (rotationOf c.bytes)

/-- The rotations that name a gallery: each ROTATE not over, with the gallery that runs it (R241, R242). -/
def ringsOf (s : State) (g : Nat) : List (Nat × Begun) :=
  (List.range 256).flatMap (fun h =>
    ((galGet s (galPage h)).begun.filter (fun c => isRotate c && (ringMembers (rotationOf c.bytes)).contains g)).map (fun c => (h, c)))

/-- The commands of gallery h that use a rotation: its ROTATE, and the ARRAY commands with resident weights in its caddy (R240, R311). -/
def ringUsers (s : State) (h : Nat) (c : Begun) : List Begun :=
  (galGet s (galPage h)).begun.filter (fun b =>
    (b.queue == c.queue && b.index == c.index) ||
      (cmdOp b.bytes == 1 && leAt b.bytes 47 1 / 2 % 2 == 1 && leAt b.bytes 45 1 == leAt (rotationOf c.bytes) 1 1))

/-- A G reset of gallery g, a member of rotations: the pending hop of every member ends, the movers pages of all members raise
EV_MOV_RING, and the commands that use the rotation fail (R242); those of g itself go with its reset. -/
def breakRings (s : State) (g : Nat) : State :=
  (ringsOf s g).foldl (fun t e =>
    let t1 := (ringMembers (rotationOf e.2.bytes)).foldl (fun u h => raise u (movPage h) 13) t
    if e.1 = g then t1 else (ringUsers t1 e.1 e.2).foldl (fun u b => abandon u e.1 b.queue b.index cFRING 0) t1) s

/-- MOVER_ELEMENT (R239). -/
def execMoverElement (g : Fin 256) (run : MovRun) (s : State) : Host.Outcome State Fault Refusal :=
  .next (alive s (fun t => moverElement t g.val run.mover.val run.fails))
/-- HOP (R241). -/
def execHop (g : Fin 256) (s : State) : Host.Outcome State Fault Refusal := .next (alive s (fun t => hopGallery t g.val))

end Sys2Proof.Machine
end

