-- ==== Sys2Proof/Machine/Lookup.lean ====
section
/-! DEFINITION. What a command names and the gallery reads at acceptance (R202, R235, R312, R313, R315): layer descriptors of the
snapshot, transfer descriptors and census entries; and the counts a command adds to the census (R203, R204). -/

namespace Sys2Proof.Machine

/-- GC_CFG.RERUN_MAX (R330). -/
def fRERUN : FRef := ⟨0x100, 2, 2⟩
/-- CEN_CFG.SHADOW_EN (R222). -/
def fSHEN : FRef := ⟨0x100, 1, 1⟩
/-- CEN_CFG.SHADOW_K. -/
def fSHK : FRef := ⟨0x100, 4, 4⟩

/-- The layer descriptor of the snapshot with an index (R313); none where the snapshot is not valid or has no such place. -/
def layerAt (s : State) (p index : Nat) : Option (Except (Nat × AccErr) (List Byte)) :=
  match leadOf s p with
  | none => none
  | some g =>
    if (partGet s p).stp.snapOk = false then none
    else some (vload s p (rd s (galPage g) fSNAPBASE + 16 * index) 16)

/-- COUNT of the catalogue copied (R313). -/
def snapCount (s : State) (p : Nat) : Nat := match leadOf s p with | some g => rd s (galPage g) fSNAPCOUNT | none => 0

/-- Orders 6 and 7 of R315 for a command of gallery g that names a layer. -/
def checkLayer (s : State) (g : Nat) (b : List Byte) : Check :=
  match pageOwner s (galPage g) with
  | none => .refuse cREFOWNER 0x07 0xFF
  | some p =>
    match leadOf s p with
    | none => .refuse cREFDESC 0x81 0xFF
    | some _ =>
      if (partGet s p).stp.snapOk = false then .refuse cREFDESC 0x81 0xFF
      else if snapCount s p ≤ cmdCat b then .refuse cREFDESC 0x81 2
      else
        match layerAt s p (cmdCat b) with
        | none => .refuse cREFDESC 0x81 0xFF
        | some (.error (va, e)) => .unreadable va e
        | some (.ok d) =>
          if bit (leAt d 0 4) 31 = false then .refuse cREFDESC 0x81 0xFF
          else if leAt d 0 4 % 2 ^ 20 ≠ cmdTag b / 2 ^ 20 then .refuse cREFDESC 0x81 8
          else
            let w := leAt d 8 8
            if pwConsistent w = false ∨ (pwRank w ≠ 0 ∧ bayMode s g ≠ 0) then .refuse cREFDESC 0x81 0xFF else .pass

/-- The precision word of the layer a command names, from the snapshot (R160). -/
def layerWord (s : State) (g : Nat) (b : List Byte) : Nat :=
  match pageOwner s (galPage g) with
  | none => 0
  | some p => match layerAt s p (cmdCat b) with | some (.ok d) => leAt d 8 8 | _ => 0

/-- A transfer descriptor named at a byte of a command for mover m (R235, R261): its enable, its bytes, its own checks. -/
def checkDesc (s : State) (g m va byte : Nat) : Except Check Transfer :=
  if rd s (movPage g) (fMEN m) = 0 then .error (.refuse cREFDESC 0x81 byte)
  else if va % 32 ≠ 0 then .error (.refuse cREFDESC 0x81 byte)
  else
    match vload s ((pageOwner s (galPage g)).getD 0) va 160 with
    | .error (a, e) => .error (.unreadable a e)
    | .ok b => match descFault s (galPage g) b with | some k => .error (.movDesc m k) | none => .ok (parseTransfer b)

/-- A census entry by index, of a gallery's table. -/
def censusEntry (s : State) (g index : Nat) : Except (Nat × AccErr) (List Byte) :=
  vload s ((pageOwner s (galPage g)).getD 0) (rd s (cenPage g) fCENBASE + 256 * index) 256

/-- A census entry named at a byte of a command: below COUNT, VALID, of a KIND (R202); 0xFFFF names none. -/
def checkEntry (s : State) (g index kind byte : Nat) : Check :=
  if index = 0xFFFF then .pass
  else if rd s (cenPage g) fCENCOUNT ≤ index then .cenIndex index byte
  else
    match censusEntry s g index with
    | .error (va, e) => .unreadable va e
    | .ok b => if leAt b 5 1 % 2 = 0 ∨ leAt b 5 1 / 4 % 2 ≠ kind then .cenIndex index byte else .pass

/-- Whether a caddy index names a valid caddy of a role. -/
def caddyIs (s : State) (g c role : Nat) : Bool :=
  decide (c < 64) && caddyValid (caddyWord s (movPage g) c) && caddyRole (caddyWord s (movPage g) c) == role

/-- The counts of a run of conversions (R97, R98). -/
structure Counts where
  elements : Nat
  zeros : Nat
  sats : Nat
  nonfinite : Nat
  peak : Nat
  deriving DecidableEq, Repr

/-- No conversion. -/
def noCounts : Counts := ⟨0, 0, 0, 0, 0⟩

/-- Counts with one conversion added n times: its maximum counts once. -/
def Counts.plus (c : Counts) (x : ConvCount) (n : Nat) : Counts :=
  ⟨c.elements + n, c.zeros + n * b2n x.zero, c.sats + n * b2n x.sat, c.nonfinite + n * b2n x.nonfinite, max c.peak x.mag⟩

/-- A statistics record with counts added and its STEP written (R199, R203). -/
def recordPlus (r : List Byte) (c : Counts) (step : Nat) : List Byte :=
  leBytes 8 (satAdd 64 (leAt r 0 8) c.elements) ++ leBytes 8 (satAdd 64 (leAt r 8 8) c.zeros) ++
    leBytes 8 (satAdd 64 (leAt r 16 8) c.sats) ++ leBytes 8 (satAdd 64 (leAt r 24 8) c.nonfinite) ++
    leBytes 4 (max (leAt r 32 4) c.peak) ++ leBytes 4 step

/-- An update of a working record of the census by gallery g (R203-R205): `size` bytes at `off` of W0 and W1, which lie side by
side behind the header. Counts of a step other than s and s + 1 are discarded with EV_CEN_STEP_RANGE. The reason of a record that
cannot be read or written. -/
def censusUpdate (s : State) (g index step size : Nat) (f : List Byte → List Byte) : State × Option (Nat × AccErr) :=
  let pg := cenPage g
  let cur := rd s pg fCENSTEP
  if rd s pg fCENEN = 0 ∨ index = 0xFFFF then (s, none)
  else if step ≠ cur ∧ step ≠ (cur + 1) % 2 ^ 32 then
    (tally (raise (recordErr s pg 0x81 (pageOwner s pg) 0 false step) pg 9) pg 1 1, none)
  else
    let p := (pageOwner s pg).getD 0
    let a := rd s pg fCENBASE + 256 * index + 16 + size * (step % 2)
    match vload s p a size with
    | .error e => (s, some e)
    | .ok r => match vstore s p a (f r) with | (s1, e) => (tally s1 pg 0 1, e)

/-- Statistics counts of one entry (R203). -/
def addCounts (s : State) (g index step : Nat) (c : Counts) : State × Option (Nat × AccErr) :=
  if c = noCounts then (s, none) else censusUpdate s g index step 40 (fun r => recordPlus r c step)

/-- A shadow record with counts added: BIN[0] to BIN[15] and NF_MISMATCH (R200, R213). -/
def shadowPlus (r : List Byte) (bins : List Nat) : List Byte :=
  (List.range 17).flatMap (fun i => leBytes 4 (satAdd 32 (leAt r (4 * i) 4) (bins.getD i 0)))

end Sys2Proof.Machine
end

