-- ==== Sys2Proof/Machine/Plan.lean ====
section
/-! DEFINITION. What an ARRAY command computes (R108-R126, R135, R136, R139, R165-R171, R187-R190, R311): its passes, the rows of weight
registers that its loads write, and the chunk results that its drains read from them. -/

namespace Sys2Proof.Machine

/-- What an ARRAY command computes and how it is cut into passes (R111, R115, R135, R165-R167, R189, R311). -/
structure Plan where
  fa : OpFmt
  fw : OpFmt
  sa : Nat
  sw : Nat
  ea : Int
  ew : Int
  m : Nat
  k : Nat
  n : Nat
  tile0 : Nat
  per : Nat
  rank : Nat
  reference : Bool
  steep : Bool
  len : Nat
  rowsMax : Nat
  deriving DecidableEq, Repr

/-- AFLAGS bit i of an ARRAY command (R311): CONTINUE, W_RES, EA_CEN, EW_CEN. -/
def aflag (b : List Byte) (i : Nat) : Bool := (leAt b 47 1).testBit i

/-- The plan of a command with its precision word and exponents under a bay mode. A command in mid-run whose array page is stopped and
whose BAY_MODE is changed goes on, at the pass it had reached, by the plan of the new mode: R326 covers only the full procedure (DESIGN
CHOICE, notes/assumptions/147). -/
def planOf (mode : Nat) (c : Begun) : Plan :=
  let w := c.word.toNat
  let b := c.bytes
  let fw := weightFmt w
  let n := bricksOf fw
  let width := if mode = 0 then 1024 else 256
  let r := pwRank w
  { fa := activationFmt w, fw := fw, sa := leAt b 67 1 % 2, sw := leAt b 67 1 / 2 % 2, ea := c.expA, ew := c.expW
    m := leAt b 68 4, k := leAt b 72 4, n := leAt b 76 4, tile0 := (width - 4 * r) / n, per := width / n, rank := r
    reference := pwMode w == 2, steep := pwMode w == 1, len := pwLen w, rowsMax := if mode = 2 then 4096 else 1024 }

/-- How many output tiles a command has (R169). -/
def Plan.tiles (p : Plan) : Nat := 1 + (p.n - p.tile0 + p.per - 1) / p.per
/-- The first output column of a tile. -/
def Plan.start (p : Plan) (t : Nat) : Nat := if t = 0 then 0 else p.tile0 + (t - 1) * p.per
/-- The output columns of a tile (R139). -/
def Plan.cols (p : Plan) (t : Nat) : Nat := min (if t = 0 then p.tile0 else p.per) (p.n - p.start t)
/-- The K chunk sets of a tile (R115). -/
def Plan.sets (p : Plan) : Nat := (p.k + p.rowsMax - 1) / p.rowsMax
/-- Passes of one chunk set: the phases of a steep chunk, else one (R189). -/
def Plan.phases (p : Plan) : Nat := if p.steep then p.len / 2 else 1
/-- Side B passes of a tile (R167). -/
def Plan.sides (p : Plan) (t : Nat) : Nat := if p.rank = 0 then 0 else (p.cols t + 255) / 256
/-- Passes of a tile. -/
def Plan.ofTile (p : Plan) (t : Nat) : Nat := p.sets * p.phases + p.sides t
/-- Passes of the command. -/
def Plan.total (p : Plan) : Nat := (List.range p.tiles).foldl (fun a t => a + p.ofTile t) 0

/-- The tile of a pass and the pass's number within it. -/
def Plan.locate (p : Plan) (fuel t x : Nat) : Nat × Nat :=
  match fuel with
  | 0 => (t, x)
  | f + 1 => if x < p.ofTile t then (t, x) else p.locate f (t + 1) (x - p.ofTile t)

/-- Whether a pass of a tile is a side B pass. -/
def Plan.isSide (p : Plan) (x : Nat) : Bool := decide (p.sets * p.phases ≤ x)
/-- Unmasked rows of a pass (R139, R167). -/
def Plan.rows (p : Plan) (x : Nat) : Nat := if p.isSide x then p.rank else min p.rowsMax (p.k - x / p.phases * p.rowsMax)

/-- The streamed operands of output row i, converted. -/
def rowOf (p : Plan) (c : Begun) (i : Nat) : List Val := ((c.bufA.drop (i * p.k)).take p.k).map (fun w => (convert p.fa p.sa p.ea w).1)
/-- The stationary operands of output column j, converted. -/
def colOf (p : Plan) (c : Begun) (j : Nat) : List Val := ((c.bufW.drop (j * p.k)).take p.k).map (fun w => (convert p.fw p.sw p.ew w).1)

/-- Chunk i of a list. -/
def chunkOf (l : List Val) (i : Nat) : List Val := (l.drop (1024 * i)).take 1024

/-- K chunks of a reduction. -/
def chunksOf (k : Nat) : Nat := (k + 1023) / 1024

/-- The sum of every chunk of a row and a column in ascending order, with the substitution of R120 (R119). -/
def fullDot (fa fw : OpFmt) (ea ew : Int) (reference : Bool) (a w : List Val) : Nat :=
  match nonfiniteResult fa fw a w with
  | some r => r
  | none =>
    let f := fun x => chunkResult fa fw ea ew reference (chunkOf a x) (chunkOf w x)
    ((List.range (chunksOf a.length)).drop 1).foldl (fun z x => faddAcc z (f x)) (f 0)

/-- BF16 encodings as multiplier operands at g = 0. -/
def bfVals (l : List Nat) : List Val := l.map (fun w => (convert (.flt 0 0) 0 0 w).1)

/-- The Kettle key of a gallery for the current step (R224). -/
def keyFor (s : State) (g : Nat) : Quad := keyOf (snapOf s g).seedLo.toNat (snapOf s g).seedHi.toNat

/-- The first brick-column of the main multipliers of a tile: the U multipliers of a correction stand before those of tile 0 (R166). -/
def Plan.base (p : Plan) (t : Nat) : Nat := if t = 0 then 4 * p.rank else 0
/-- The brick-column where main multiplier i of a tile begins (R109, R139). -/
def Plan.column (p : Plan) (t i : Nat) : Nat := p.base t + bricksOf p.fw * i
/-- The tile of an output column. -/
def Plan.tileOf (p : Plan) (j : Nat) : Nat := if j < p.tile0 then 0 else 1 + (j - p.tile0) / max 1 p.per
/-- The place of an output within its tile: row by row. -/
def Plan.place (p : Plan) (t i j : Nat) : Nat := i * p.cols t + (j - p.start t)

/-- A weight register row that holds nothing. -/
def noRow : WRow := ⟨0, 0, []⟩

/-- The stationary operand of row kk of a column whose operands are `get`, as integer and unit exponent: aligned within its group of 16
rows, or of one in reference mode, below row k (R117, R122, R123, R125). -/
def stationary (f : OpFmt) (e : Int) (reference : Bool) (get : Nat → Val) (k kk : Nat) : Int × Int :=
  let lo := if reference then kk else kk / 16 * 16
  let hi := if reference then kk + 1 else min (lo + 16) k
  match alignSide f e ((List.range (hi - lo)).map (fun i => get (lo + i))) with
  | some (l, u) => (l.getD (kk - lo) 0, u)
  | none => (0, 0)

/-- The register row of multipliers of n bricks side by side from a brick-column on: floating-point fields are magnitudes with their signs
apart, the others two's complement (R109). -/
def packRow (flt : Bool) (base n : Nat) (l : List (Int × Int)) : WRow :=
  let at_ := fun (i : Nat) => base + n * i
  { segs := l.zipIdx.foldl (fun z e => z + (if flt then e.1.1.natAbs else toField (2 * n) e.1.1) * 4 ^ at_ e.2) 0
    signs := if flt then maskOf ((l.zipIdx.filter (fun e => decide (e.1.1 < 0))).map (fun e => at_ e.2)) else 0
    units := l.zipIdx.map (fun e => (at_ e.2, e.1.2)) }

/-- Two register rows over different brick-columns as one. -/
def WRow.join (a b : WRow) : WRow := ⟨a.segs + b.segs, a.signs + b.signs, a.units ++ b.units⟩

/-- The brick-columns of bay b of a row over four bays (R135). -/
def WRow.cut (a : WRow) (b : Nat) : WRow :=
  ⟨a.segs / 4 ^ (256 * b) % 4 ^ 256, a.signs / 2 ^ (256 * b) % 2 ^ 256,
    (a.units.filter (fun e => e.1 / 256 == b)).map (fun e => (e.1 % 256, e.2))⟩

/-- A bay's row put back at its brick-columns among four bays. -/
def WRow.lift (a : WRow) (b : Nat) : WRow :=
  ⟨a.segs * 4 ^ (256 * b), a.signs * 2 ^ (256 * b), a.units.map (fun e => (e.1 + 256 * b, e.2))⟩

/-- The value of the multiplier of n bricks at a brick-column (R109). -/
def WRow.value (a : WRow) (flt : Bool) (col n : Nat) : Int :=
  let f := a.segs / 4 ^ col % 4 ^ n
  if flt then (if a.signs.testBit col then -(f : Int) else f) else sext (2 * n) f

/-- Whether a format is a floating-point one. -/
def isFlt (f : OpFmt) : Bool := match f with | .flt _ _ => true | _ => false

/-- The two stream bits of a steep element for phase j of K index kk: bits 2j and 2j + 1 (R188, R189). -/
def steepBits (key : Quad) (purpose tensor step kk j m : Nat) : Nat :=
  b2n (decide (streamByte key purpose tensor step kk (2 * j) < m)) + 2 * b2n (decide (streamByte key purpose tensor step kk (2 * j + 1) < m))

/-- Purpose code, tensor number and step of the streamed operand's stream, or of the stationary operand's (R188, R311). -/
def streamIds (b : List Byte) (stationary : Bool) : Nat × Nat × Nat :=
  if stationary then (leAt b 66 1, leAt b 59 3, cmdStep b) else (leAt b 65 1, leAt b 56 3, cmdStep b)

/-- The register row of the main multipliers of tile t at K index kk in phase j (R109, R130, R189). -/
def mainRow (p : Plan) (c : Begun) (key : Quad) (t j kk : Nat) : WRow :=
  let get := fun (n k : Nat) => (convert p.fw p.sw p.ew (c.bufW.getD (n * p.k + k) 0)).1
  let ns := (List.range (p.cols t)).map (p.start t + ·)
  if p.steep then
    let (pb, tb, st) := streamIds c.bytes true
    let vals := ns.map (fun n => match get n kk with | .fin neg m _ => (neg, steepBits key pb tb st kk j m) | _ => (false, 0))
    { segs := vals.zipIdx.foldl (fun z e => z + e.1.2 * 4 ^ e.2) 0
      signs := maskOf ((vals.zipIdx.filter (fun e => e.1.1)).map (·.2))
      units := [] }
  else packRow (isFlt p.fw) (p.base t) (bricksOf p.fw) (ns.map (fun n => stationary p.fw p.ew p.reference (get n) p.k kk))

/-- The register row of r BF16 multipliers at g_w = 0 at row kk, of k rows; `code j i` is the operand of multiplier j at row i (R166, R167). -/
def lowRow (reference : Bool) (r k kk : Nat) (code : Nat → Nat → Nat) : WRow :=
  packRow true 0 4 ((List.range r).map (fun j => stationary (.flt 0 0) 0 reference (fun i => (convert (.flt 0 0) 0 0 (code j i)).1) k kk))

/-- The group sum of one alignment group from its register rows, for the multiplier of n bricks at a brick-column (R116). -/
def regGroup (fa : OpFmt) (ea : Int) (flt : Bool) (col n : Nat) (a : List Val) (w : List WRow) : Nat :=
  match alignSide fa ea a with
  | none => 0
  | some x =>
    packFtz (intVal ((x.1.zip w).foldl (fun (z : Int) e => z + e.1 * e.2.value flt col n) 0) (x.2 + tget 0 (w.headD noRow).units col))

/-- The tree result of a K chunk from its register rows (R115-R118, R125). -/
def regChunk (fa : OpFmt) (ea : Int) (flt reference : Bool) (col n : Nat) (a : List Val) (w : List WRow) : Nat :=
  let size := if reference then 1 else 16
  let sums := ((groupsOf 1024 size a).zip (groupsOf 1024 size w)).map (fun e => regGroup fa ea flt col n e.1 e.2)
  treeOf faddAcc 11 (sums ++ List.replicate ((if reference then 1024 else 64) - sums.length) 0)

/-- The signed coincidences of phase j of a steep chunk that begins at K index k0, for the brick at a brick-column (R189, R190). -/
def regCount (key : Quad) (b : List Byte) (j k0 col : Nat) (a : List Val) (w : List WRow) : Int :=
  let (pa, ta, st) := streamIds b false
  ((a.zip w).zipIdx).foldl (fun (z : Int) e =>
    match e.1.1 with
    | .fin neg m _ =>
      let n : Int := popCount 2 (steepBits key pa ta st (k0 + e.2) j m &&& (e.1.2.segs / 4 ^ col % 4))
      if neg = e.1.2.signs.testBit col then z + n else z - n
    | _ => z) 0

/-- The result of a steep chunk whose count is s (R190). -/
def countResult (p : Plan) (s : Int) : Nat :=
  match vratio s.natAbs p.len with
  | .fin _ m q => packFtz (.fin (decide (s < 0)) m (q + p.ea + p.ew))
  | v => packFtz v

end Sys2Proof.Machine
end

