-- ==== Sys2Proof/Machine/Bays.lean ====
section
/-! DEFINITION. The bays of an array (R128-R152, R234, R323, R325): their streams and ARR_STATUS, the operands they take from the caddies,
bay faults with what they abandon, and the reruns that follow CLEAR_FAULT. -/

namespace Sys2Proof.Machine

/-- BAYb_STATE of ARR_STATUS (R149). -/
def fBAY (b : Nat) : FRef := ⟨0x108, 2 * b, 2⟩
/-- ACTIVE_PARITY of bay b. -/
def fPARITY (b : Nat) : FRef := ⟨0x108, 8 + b, 1⟩
/-- PENDING_READY of bay b. -/
def fPENDING (b : Nat) : FRef := ⟨0x108, 12 + b, 1⟩

/-- The bay of a gallery. -/
def bayGet (s : State) (g b : Nat) : Bay := (galGet s (galPage g)).bays.getD b bayIdle
/-- The state with a bay replaced. -/
def bayPut (s : State) (g b : Nat) (x : Bay) : State :=
  galPut s (galPage g) { galGet s (galPage g) with bays := setAt (galGet s (galPage g)).bays b x }
/-- Whether a bay is FAULTED. -/
def bayFaulted (s : State) (g b : Nat) : Bool := rd s (arrPage g) (fBAY b) == 3

/-- The rows of a pass that bay b takes: those of its K chunk in cascade mode, else all (R115, R136). -/
def bayRows (mode : Nat) (p : Pass) (b : Nat) : Nat := if mode = 2 then min 1024 (p.rows - 1024 * b) else p.rows

/-- How many of the rows of bay b are in a list of rows of a pass. -/
def inBay (mode : Nat) (rows : List Nat) (b : Nat) : Nat := (rows.filter (fun r => mode != 2 || r / 1024 == b)).length

/-- Whether bay b of a stream has a pass: in cascade mode the bays beyond the pass's rows are idle (R136). -/
def hasPass (mode : Nat) (p : Option Pass) (b : Nat) : Bool := match p with | some x => decide (0 < bayRows mode x b) | none => false

/-- ARR_STATUS for a stream (R149): BUSY while it loads or streams, DRAINING while only a finished pass remains
(notes/assumptions/36). -/
def showBays (s : State) (g b : Nat) : State :=
  let x := bayGet s g (streamBay s g b)
  let m := bayMode s g
  (streamBays s g b).foldl (fun t i =>
    let st := if hasPass m x.cur i || hasPass m x.load i then 1 else if hasPass m x.old i then 2 else 0
    let t1 := if bayFaulted t g i then t else wr t (arrPage g) (fBAY i) st
    let t2 := match x.cur with | some p => if hasPass m x.cur i then wr t1 (arrPage g) (fPARITY i) p.parity else t1 | none => t1
    wr t2 (arrPage g) (fPENDING i)
      (match x.load with | some p => b2n (hasPass m x.load i && inBay m x.rowsLoaded i == bayRows m p i) | none => 0)) s

/-- The commands of a stream that run on the array, in the order of their acceptance (R325; notes/assumptions/37): ARRAY commands, and
ATTENTION commands until their array passes are done. -/
def streamCmds (s : State) (g b : Nat) : List Begun :=
  (galGet s (galPage g)).begun.filter (fun c =>
    (cmdOp c.bytes == 1 || (cmdOp c.bytes == 4 && c.hops == 0)) && c.phase == .running && (bayMode s g != 1 || c.queue == b))

/-- Whether no bay of a stream is FAULTED. -/
def streamWhole (s : State) (g b : Nat) : Bool := (streamBays s g b).all (fun i => !bayFaulted s g i)

/-- Whether the array takes new work on a stream. -/
def streamOpen (s : State) (g b : Nat) : Bool := running s (arrPage g) && streamWhole s g b

/-- Whether the array goes on with passes that have begun: also while its page is STOPPING (R147). -/
def arrayGoes (s : State) (g : Nat) : Bool := running s (arrPage g) || blkState s (arrPage g) == stStopping

/-- The first slot in ring order from TAIL that a consumer has still to read, if it is FULL (R232): a bay, or with `none` a consumer that
BAYS does not name. -/
def operandSlot (x : Caddy) (bay : Option Nat) : Option Nat :=
  let mine := fun (k : Slot) => match bay with | some b => bit k.bays b | none => k.phase == .full
  match ((List.range x.count).map (fun i => (x.tail + i) % x.count)).find? (fun n =>
      match tfind x.slots n with | some k => k.phase == .filling || mine k | none => false) with
  | some n => match tfind x.slots n with | some k => if k.phase = .filling then none else some n | none => none
  | none => none

/-- The operand codes of a slot, or the address that reads uncorrectable. -/
def slotCodes (s : State) (pg c n : Nat) : Except Nat (State × List Nat) :=
  let k := (tfind (cadGet s pg c).slots n).getD ⟨.full, 0, 0, 0, (4, 0)⟩
  match loadHeal s (cabAddr s pg (slotBase s pg c n)) k.bytes with
  | .error g => .error g
  | .ok (s1, b) => .ok (s1, (groupsOf (k.bytes / 2 + 1) 2 b).map leNat)

/-- Operands of one side taken from the FULL slots of a caddy, until `want` are held (R232, R238): the buffer and the
state, and the address of a granule that reads uncorrectable (notes/assumptions/38). -/
def takeOperands (s : State) (g : Nat) (bays : List Nat) (c fuel want : Nat) (buf : List Nat) : State × List Nat × Option Nat :=
  match fuel with
  | 0 => (s, buf, none)
  | f + 1 =>
    if want ≤ buf.length then (s, buf, none)
    else
      let byBay := caddyRole (caddyWord s (movPage g) c) != 5
      match operandSlot (cadGet s (galPage g) c) (if byBay then bays.head? else none) with
      | none => (s, buf, none)
      | some n =>
        match slotCodes s (galPage g) c n with
        | .error a => (s, buf, some a)
        | .ok (s1, l) => takeOperands (slotRelease s1 (galPage g) c n bays) g bays c f want ((buf ++ l).take want)

/-- Whether an ARRAY command has still operands to come from a caddy. -/
def awaits (c : Begun) (k : Nat) : Bool :=
  cmdOp c.bytes == 1 &&
    ((leAt c.bytes 44 1 == k && decide (c.bufA.length < leAt c.bytes 68 4 * leAt c.bytes 72 4)) ||
     (leAt c.bytes 45 1 == k && decide (c.bufW.length < leAt c.bytes 76 4 * leAt c.bytes 72 4)))

/-- Both operands of a command as far as they have arrived and no earlier command of its stream awaits them; the address and the element
of one that is uncorrectable, and whether it is the stationary one. -/
def absorb (s : State) (g b : Nat) (c : Begun) : State × Begun × Option (Nat × Nat × Bool) :=
  let m := leAt c.bytes 68 4
  let k := leAt c.bytes 72 4
  let n := leAt c.bytes 76 4
  let bays := streamBays s g b
  let before := (streamCmds s g b).takeWhile (fun d => !(d.queue == c.queue && d.index == c.index))
  let take := fun (t : State) (cad want : Nat) (buf : List Nat) =>
    if before.any (fun d => awaits d cad) then (t, buf, none) else takeOperands t g bays cad (want + 1) want buf
  match take s (leAt c.bytes 44 1) (m * k) c.bufA with
  | (s1, a, some e) => (begunPut s1 g { c with bufA := a }, { c with bufA := a }, some (e, a.length, false))
  | (s1, a, none) =>
    match take s1 (leAt c.bytes 45 1) (n * k) c.bufW with
    | (s2, w, e) =>
      let c1 := { c with bufA := a, bufW := w }
      (begunPut s2 g c1, c1, e.map (fun x => (x, w.length, true)))

/-- A transfer descriptor that a running command names, as it stands. -/
def descAt (s : State) (g va : Nat) : Transfer :=
  match vload s ((pageOwner s (galPage g)).getD 0) va 160 with
  | .ok b => parseTransfer b
  | .error _ => parseTransfer []

/-- A command's transfers given to a mover, by the addresses of their descriptors. -/
def giveDescs (s : State) (g m : Nat) (c : Begun) (vas : List Nat) : State :=
  vas.foldl (fun t va => giveJob t g m c.queue c.index va (descAt t g va)) s

/-- The transfers of an ARRAY command given to the movers (R311). -/
def giveOperands (s : State) (g : Nat) (c : Begun) : State :=
  let p := (pageOwner s (galPage g)).getD 0
  let give := fun (t : State) (m va : Nat) =>
    match vload t p va 160 with
    | .ok d => giveJob t g m c.queue c.index va (parseTransfer d)
    | .error (a, e) => abandon (recordAccess t (galPage g) (some p) a e) g c.queue c.index cFDATA 0
  let s1 := give s 0 (leAt c.bytes 32 6)
  if aflag c.bytes 1 then s1 else give s1 1 (leAt c.bytes 38 6)

/-- The transfers of an ARRAY or an ATTENTION command given to the movers (R274, R311). -/
def giveTransfers (s : State) (g : Nat) (c : Begun) : State :=
  if cmdOp c.bytes = 4 then
    let at_ := fun (i : Nat) => leAt c.bytes (32 + 6 * i) 6
    giveDescs (giveDescs s g 0 c [at_ 0, at_ 1, at_ 2]) g 1 c [at_ 3, at_ 4]
  else giveOperands s g c

/-- The accumulator caddy of a command. -/
def accCaddy (c : Begun) : Nat := leAt c.bytes 46 1

/-- Accumulator slots that a tile takes: one, or as many as its FP32 values fill (R231; notes/assumptions/34). -/
def slotsOfTile (s : State) (pg : Nat) (c : Begun) (p : Plan) (t : Nat) : Nat :=
  max 1 ((4 * p.m * p.cols t + slotSize (caddyWord s (pg + 2) (accCaddy c)) - 1) / slotSize (caddyWord s (pg + 2) (accCaddy c)))

/-- Accumulator slots of the tiles before t. -/
def slotsBefore (s : State) (pg : Nat) (c : Begun) (p : Plan) (t : Nat) : Nat :=
  (List.range t).foldl (fun a u => a + slotsOfTile s pg c p u) 0

/-- The physical address of the accumulator of place x of tile t. -/
def accAddr (s : State) (pg : Nat) (c : Begun) (p : Plan) (t x : Nat) : Nat :=
  let z := slotSize (caddyWord s (pg + 2) (accCaddy c))
  let n := c.accSlots.getD (slotsBefore s pg c p t + 4 * x / z) 0
  cabAddr s pg (slotBase s pg (accCaddy c) n + 4 * x % z)

/-- FP32 values written at places of a tile. -/
def putPlaces (s : State) (addr : Nat → Nat) (vs : List (Nat × Nat)) : State :=
  vs.foldl (fun t e => (store t (addr e.1) (leBytes 4 e.2)).1) s

/-- The values at places of a tile, or the first place whose value cannot be read, with its address (R119, R142, R229). -/
def getPlaces (s : State) (addr : Nat → Nat) (xs : List Nat) : Except (Nat × Nat) (State × List Nat) :=
  match xs with
  | [] => .ok (s, [])
  | x :: r =>
    match loadHeal s (addr x) 4 with
    | .error a => .error (x, a)
    | .ok (s1, b) =>
      match getPlaces s1 addr r with
      | .error e => .error e
      | .ok (s2, l) => .ok (s2, leNat b :: l)

/-- A command before its first pass, with nothing taken. -/
def fresh (c : Begun) : Begun :=
  { c with bufA := [], bufW := [], bufC := [], loaded := 0, drained := 0, accSlots := [], init := [], narrow := [], shadow := [], bins := []
           side := [], tvec := [], lowU := [], lowV := [], carry := [], reopened := false }

/-- The values that a CONTINUE command has added to put back, so that a rerun continues from them (R119, R143, R323); its slots are FULL
again where they were. -/
def restoreTile (s : State) (g : Nat) (c : Begun) : State :=
  let pg := galPage g
  let p := planOf (bayMode s g) c
  let s1 := c.init.foldl (fun t e =>
    let j := e.1 % p.n
    let u := p.tileOf j
    putPlaces t (accAddr s pg c p u) [(p.place u (e.1 / p.n) j, e.2.toNat)]) s
  if c.reopened then
    let x := cadGet s1 pg (accCaddy c)
    cadPut s1 pg (accCaddy c) { x with slots := c.accSlots.foldl (fun l n =>
      match tfind l n with | some k => tins l n { k with phase := .full } | none => l) x.slots }
  else s1

/-- The slots of a resident caddy that a command had still to read, read to the end by the bays of its stream (R234). -/
def dropResident (s : State) (g : Nat) (bays : List Nat) (c fuel want : Nat) : State :=
  match fuel with
  | 0 => s
  | f + 1 =>
    if want = 0 then s
    else
      match operandSlot (cadGet s (galPage g) c) bays.head? with
      | none => s
      | some n =>
        let k := (tfind (cadGet s (galPage g) c).slots n).getD ⟨.full, 0, 0, 0, (4, 0)⟩
        dropResident (slotRelease s (galPage g) c n bays) g bays c f (want - k.bytes / 2)

/-- A command taken back to its start: transfers, slots and passes gone (R143); one that had a pass awaits its outcome until CLEAR_FAULT
(R323). -/
def takeBack (s : State) (g : Nat) (c : Begun) : State :=
  let s1 := restoreTile (dropJobs s (galPage g) c.queue c.index) g c
  let s2 := releaseSlots s1 g c
  let want := leAt c.bytes 76 4 * leAt c.bytes 72 4 - c.bufW.length
  let s3 := if cmdOp c.bytes = 1 ∧ aflag c.bytes 1 = true ∧ c.loaded ≠ 0 then
      dropResident s2 g (streamBays s g c.queue) (leAt c.bytes 45 1) want want
    else s2
  begunPut s3 g { fresh c with phase := if c.loaded = 0 then .running else .waiting }

/-- What ARR_BAY_FAULTb and ERR_INFO record of a fault (R151, R152). -/
structure FaultAt where
  row : Option Nat
  column : Nat
  parity : Nat
  addr : Nat
  phys : Bool
  detail : Nat
  deriving DecidableEq, Repr

/-- The record of bay b's own fault: ARR_BAY_FAULTb, and ERR_INFO, which of faults of one cycle holds that of the lowest bay
(R143, R146). -/
def bayRecord (s : State) (g b cause : Nat) (f : FaultAt) : State :=
  let pg := arrPage g
  let w := cause + b2n f.row.isSome * 16 + (f.row.getD 0) % 4096 * 32 + f.column % 1024 * 2 ^ 17 + f.parity * 2 ^ 27
  let code := if cause = 1 then 0x80 else if cause = 4 then 0x81 else 0x06
  let s1 := regPut s (pg * 4096 + 0x118 + 8 * b) w
  let put := fun (t : State) => recordErr t pg code (pageOwner s pg) f.addr f.phys (b + f.detail)
  let held := fun (t : State) (i : Nat) (h : Bool) => bayPut t g i { bayGet t g i with errHeld := h }
  if rd s pg fERRVALID = 0 then held (put s1) b true
  else
    match (List.range 4).find? (fun i => decide (b < i) && (bayGet s g i).errHeld && (bayGet s g i).faultAt == s.now && bayFaulted s g i) with
    | some i => held (held (wr (put (wr s1 pg fERRVALID 0)) pg fERROVF 1) i false) b true
    | none => held (put s1) b false

/-- A bay fault of a cause in bay b (R142-R146): `keep` says that the passes of earlier commands drain (R134, R196); `tag` is the
abandoned command's. A bay that is FAULTED without a cause of its own records one of the same cycle; any other fault of a FAULTED
bay is counted. -/
def bayFault (s : State) (g b cause : Nat) (f : FaultAt) (tag : Nat) (keep : Option (Nat × Nat)) : State :=
  let pg := arrPage g
  let y := bayGet s g b
  if bayFaulted s g b = true ∧ y.cause = 0 ∧ y.faultAt = s.now then
    let s1 := bayRecord s g b cause f
    bayPut s1 g b { bayGet s1 g b with cause := cause }
  else if bayFaulted s g b then tally s pg (4 + b) 1
  else
    let bs := streamBays s g b
    let s2 := voidPart (bayRecord s g b cause f) pg
    let s3 := bs.foldl (fun t i =>
      tally (raise (wr (wr (regPut t (pg * 4096 + 0x138 + 8 * i) tag) pg (fBAY i) 3) pg (fPENDING i) 0) pg (8 + i)) pg i 1) s2
    let sb := streamBay s g b
    let x := bayGet s3 g sb
    let stay := fun (p : Option Pass) => p.filter (fun y => match keep with | some k => (y.queue, y.index) != k | none => false)
    let lost := match x.cur, x.old with | some p, _ => some p | none, some p => some p | none, none => x.load
    let s4 := bayPut s3 g sb { x with old := stay x.old, cur := stay x.cur, load := none, rowsLoaded := [], rowsEntered := [], lost := lost }
    let s5 := bs.foldl (fun t i => bayPut t g i { bayGet t g i with faultDrained := false, cause := if i = b then cause else 0, faultAt := s.now }) s4
    let kept := fun (c : Begun) => ((bayGet s5 g sb).old.toList ++ (bayGet s5 g sb).cur.toList).any (fun p => p.queue == c.queue && p.index == c.index)
    let s6 := ((streamCmds s5 g b).filter (fun c => !kept c)).foldl (fun t c => takeBack t g c) s5
    (if bayMode s g = 1 then [b] else [0, 1, 2, 3]).foldl (fun t q =>
      qauxPut t g q { qaux t g q with heldBy := (qaux t g q).heldBy ++ bs }) s6

/-- The bay and the brick-column, among the 1024 of the array, of column `col` of the brick-columns of a pass that bay b streams, for a row
of the pass (R135). -/
def faultPlace (s : State) (g b row col : Nat) : Nat × Nat :=
  match bayMode s g with
  | 0 => (col / 256, col)
  | 1 => (b, 256 * b + col)
  | _ => (row / 1024, 256 * (row / 1024) + col)

/-- The parity of the pass that a fault of the stream concerns: the pass being loaded for stationary operands, the streaming one, if any, for
streamed operands (R151). -/
def faultParity (s : State) (g b : Nat) (stationary : Bool) : Nat :=
  let x := bayGet s g (streamBay s g b)
  match (if stationary then none else x.cur), x.load with
  | some p, _ => p.parity
  | none, some p => p.parity
  | none, none => rd s (arrPage g) (fPARITY b)

/-- A fault while operands arrive (R134, R142): cause 0x2 with the row of the element, and the column of a stationary one. -/
def operandFault (s : State) (g b : Nat) (c : Begun) (p : Plan) (e : Nat × Nat × Bool) : State :=
  let row := e.2.1 % p.k % p.rowsMax
  let j := e.2.1 / p.k
  let t := p.tileOf j
  let at_ := faultPlace s g b row (if e.2.2 then p.column t (j - p.start t) else 0)
  bayFault s g at_.1 2 ⟨some row, at_.2, faultParity s g b e.2.2, e.1, true, 0⟩ (cmdTag c.bytes)
    (if e.2.2 then some (c.queue, c.index) else none)

/-- The fault of a residue mismatch (R142, R445): outside split mode the bay is that of the column. -/
def residueFault (s : State) (g b : Nat) (ps : Pass) (row : Option (Fin 4096)) (column : Fin 1024) : State :=
  let bay := if bayMode s g = 1 then b else column.val / 256
  let tag := match begunFind s g ps.queue ps.index with | some c => cmdTag c.bytes | none => bits (regGet s (arrPage g * 4096 + 0x138 + 8 * bay)) 0 40
  bayFault s g bay 1 ⟨row.map (·.val), column.val, ps.parity, 0, false, 0⟩ tag none

/-- BAY_DRAINED: the drain after a bay fault is complete (R143, R144). -/
def bayDrained (s : State) (g b : Nat) : State :=
  let x := bayGet s g (streamBay s g b)
  if bayFaulted s g b = true ∧ (bayGet s g b).faultDrained = false ∧ x.old.isNone = true ∧ x.cur.isNone = true then
    raise (bayPut s g b { bayGet s g b with faultDrained := true }) (arrPage g) (12 + b)
  else s

/-- The outcome of a command abandoned by a bay fault (R323): rerun, or a status with the bay that decides it. -/
def faultOutcome (causes : List (Nat × Nat)) (cont : Bool) : Option (Nat × Nat) :=
  let by_ := fun (c : Nat) => (causes.find? (fun e => e.2 == c)).map (·.1)
  match by_ 4, by_ 2, by_ 3 with
  | some b, _, _ => some (cFCORR, b)
  | none, some b, _ => some (cFDATA, b)
  | none, none, some b => if cont then some (cFDATA, b) else none
  | _, _, _ => none

/-- What becomes of one command of a stream once its bays are cleared (R323): an abandoned one reruns or fails; one that had not
begun gets its transfers again. -/
def settleCmd (s : State) (g : Nat) (causes : List (Nat × Nat)) (c : Begun) : State :=
  match c.phase with
  | .waiting =>
    match faultOutcome causes (cmdOp c.bytes == 1 && aflag c.bytes 0) with
    | some (st, b) => begunPut s g { c with phase := .ended st (b + (if st = cFCORR then leAt c.bytes 65 1 * 4 else 0)) }
    | none =>
      if c.attempts ≤ rd s (galPage g) fRERUN then
        let c1 := { fresh c with phase := .running, attempts := c.attempts + 1, watchAt := [] }
        giveTransfers (tally (begunPut (rewindWatches s g c) g c1) (galPage g) 24 1) g c1
      else begunPut s g { c with phase := .ended cFDATA ((causes.headD (0, 0)).1) }
  | .running =>
    if c.bufA = [] ∧ c.loaded = 0 then
      let c1 := { c with watchAt := [] }
      giveTransfers (releaseSlots (dropJobs (rewindWatches s g c) (galPage g) c.queue c.index) g c1) g c1
    else s
  | _ => s

/-- CLEAR_FAULT accepted for bays (R145, R323): they are IDLE; once every bay that a command fed from is clear, its outcome is
decided and its queues go on. -/
def clearBays (s : State) (g mask : Nat) : State :=
  let hit := (setOf 4 mask).filter (bayFaulted s g)
  let s1 := hit.foldl (fun t b => regPut (wr t (arrPage g) (fBAY b) 0) (arrPage g * 4096 + 0x118 + 8 * b) 0) s
  let groups := if bayMode s g = 1 then hit.map (fun b => [b]) else if hit = [] then [] else [[0, 1, 2, 3]]
  groups.foldl (fun t bs =>
    if bs.any (bayFaulted t g) then t
    else
      let causes := (bs.map (fun b => (b, (bayGet t g b).cause))).filter (fun e => e.2 != 0)
      let mine := (galGet t (galPage g)).begun.filter (fun c =>
        (cmdOp c.bytes == 1 || (cmdOp c.bytes == 4 && c.hops == 0)) && (bayMode t g != 1 || bs.contains c.queue))
      let t1 := mine.foldl (fun u c => settleCmd u g causes c) t
      let t2 := bs.foldl (fun u b => bayPut u g b { bayGet u g b with cause := 0, faultDrained := false, lost := none }) t1
      [0, 1, 2, 3].foldl (fun u q => qauxPut u g q { qaux u g q with heldBy := (qaux u g q).heldBy.filter (fun b => !bs.contains b) }) t2) s1

/-- The pass of a stream that a residue mismatch concerns: the one named, or the one lost in the
same cycle to another bay's fault (R146). -/
def faultPass (x : Bay) (p : Option Pass) : Option Pass := match p with | some y => some y | none => x.lost

/-- BAY_DRAINED (R143). -/
def execBayDrained (g : Fin 256) (b : Fin 4) (s : State) : Host.Outcome State Fault Refusal :=
  .next (alive s (fun t => bayDrained t g.val b.val))

end Sys2Proof.Machine
end

