-- ==== Sys2Proof/Machine/Array.lean ====
section
/-! DEFINITION. The rows of the array (R119, R128-R134, R142-R147, R165-R168, R187-R196, R210-R214, R311): loads, streaming and drains of
passes, shadow tiles, and the acceptance of ARRAY. -/

namespace Sys2Proof.Machine

/-- The accumulator slots of tile t taken (R119, R231): with CONTINUE, the slots last filled if they are FULL, else new ones at HEAD
(DESIGN CHOICE, notes/assumptions/148), with the values they hold; else new ones, filled with zeros. None while a credit is wanting. -/
def takeAcc (s : State) (g : Nat) (c : Begun) (p : Plan) (t : Nat) : Option (State × Begun) :=
  let pg := galPage g
  let k := accCaddy c
  let n := slotsOfTile s pg c p t
  let x := cadGet s pg k
  let cont := aflag c.bytes 0
  let all := slotsBefore s pg c p p.tiles
  let old := (List.range all).map (fun i => (x.head + 2 * x.count - all + i) % x.count)
  let reopen := cont && t == 0 && decide (all ≤ x.count) && old.all (fun i =>
    match tfind x.slots i with | some y => y.phase == .full | none => false)
  let grab := fun (u : Option (State × List Nat)) (_ : Nat) =>
    match u with
    | none => none
    | some (v, l) =>
      match slotTake v pg k (c.queue, c.index) with
      | none => none
      | some (v1, i) =>
        some (if cont then v1 else zeroFill v1 (cabAddr v1 pg (slotBase v1 pg k i)) (slotSize (caddyWord s (pg + 2) k)), l ++ [i])
  let taken :=
    if reopen then
      some (cadPut s pg k { x with slots := old.foldl (fun l i =>
        match tfind l i with | some y => tins l i { y with phase := .filling, owner := (c.queue, c.index) } | none => l) x.slots }, old)
    else if slotsBefore s pg c p (t + 1) ≤ c.accSlots.length then some (s, [])
    else (List.range n).foldl grab (some (s, []))
  match taken with
  | none => none
  | some (s1, l) =>
    let c1 := { c with accSlots := c.accSlots ++ l, reopened := c.reopened || reopen }
    some (begunPut s1 g c1, c1)

/-- The check for correlated streams at the setup of a steep command's first phase (R194-R196): passes of earlier commands drain. -/
def correlated (p : Plan) (c : Begun) : Bool :=
  c.loaded == 0 && p.steep && leAt c.bytes 65 1 == leAt c.bytes 66 1 && leAt c.bytes 56 3 == leAt c.bytes 59 3

/-- The parity of the next pass of a stream: the other one than that of the pass streaming or last streamed, so that the first pass after a
reset has parity 1 (R130, R149; DESIGN CHOICE, notes/assumptions/146). -/
def nextParity (s : State) (g sb : Nat) : Nat := 1 - rd s (arrPage g) (fPARITY sb)

/-- The next pass of a command set up for loading (R130, R133); its first begins a run (R523). -/
def setUpPass (s : State) (g b : Nat) (c : Begun) (p : Plan) : State :=
  let sb := streamBay s g b
  let tx := p.locate p.tiles 0 c.loaded
  match (if tx.2 = 0 then takeAcc s g c p tx.1 else some (s, c)) with
  | none => s
  | some (s1, c1) =>
    let pass : Pass := ⟨c.queue, c.index, c.loaded, p.rows tx.2, nextParity s g sb, 0⟩
    let s0 := if c.loaded = 0 then beginRun s1 (arrPage g) 16 sb (cmdTag c.bytes) else s1
    let s2 := begunPut s0 g { c1 with loaded := c1.loaded + 1 }
    showBays (bayPut s2 g sb { bayGet s2 g sb with load := some pass, rowsLoaded := [], rowsEntered := [] }) g b

/-- RELOAD_START: the loader begins the next pass of a stream (R130-R134, R189, R195); the check for correlated streams comes first, also
while the page is STOPPING (R196). An ATTENTION command whose turn it is holds the array (R325). -/
def reloadStart (s : State) (g b : Nat) : State :=
  let sb := streamBay s g b
  let x := bayGet s g sb
  if arrayGoes s g = false ∨ streamWhole s g b = false ∨ x.load.isSome = true ∨ x.old.isSome = true then s
  else
    match (streamCmds s g b).find? (fun c => cmdOp c.bytes == 4 || decide (c.loaded < (planOf (bayMode s g) c).total)) with
    | none => s
    | some c =>
      let p := planOf (bayMode s g) c
      let bs := c.bytes
      if cmdOp bs = 4 then s
      else if correlated p c then
        bayFault (begunPut s g { c with loaded := 1 }) g b 4 ⟨none, 0, nextParity s g sb, 0, false, leAt bs 65 1 * 4⟩ (cmdTag bs)
          (some (c.queue, c.index))
      else if running s (arrPage g) then setUpPass s g b c p
      else s

/-- A register row read back (R108): the brick-columns of every bay that a row of the pass spans, which in joined mode is all four. -/
def regRow (s : State) (g b parity row : Nat) : WRow :=
  let at_ := fun (i r : Nat) => tget noRow (bayGet s g i).weights (1024 * parity + r)
  match bayMode s g with
  | 0 => [0, 1, 2, 3].foldl (fun z i => z.join ((at_ i row).lift i)) noRow
  | 1 => at_ b row
  | _ => at_ (row / 1024) (row % 1024)

/-- A register row written into the bays that hold it (R130, R135). -/
def putRow (s : State) (g b parity row : Nat) (w : WRow) : State :=
  let put := fun (t : State) (i r : Nat) (v : WRow) => bayPut t g i { bayGet t g i with weights := tput noRow (bayGet t g i).weights (1024 * parity + r) v }
  match bayMode s g with
  | 0 => [0, 1, 2, 3].foldl (fun t i => put t i row (w.cut i)) s
  | 1 => put s b row w
  | _ => put s (row / 1024) (row % 1024) w

/-- Whether the stationary operands of a row of a main pass have arrived, with the rest of its alignment group (R122). -/
def rowReady (p : Plan) (c : Begun) (t x row : Nat) : Bool :=
  let kk := x / p.phases * p.rowsMax + row
  decide ((p.start t + p.cols t - 1) * p.k + min (kk / 16 * 16 + 16) p.k ≤ c.bufW.length)

/-- BF16 encodings read from partition memory (R165). -/
def lowCodes (s : State) (g va n : Nat) : Except (Nat × AccErr) (List Nat) :=
  match vload s ((pageOwner s (galPage g)).getD 0) va (2 * n) with
  | .error e => .error e
  | .ok b => .ok ((groupsOf n 2 b).map leNat)

/-- U for a row of a main pass of tile 0 (R166): the register row of its multipliers and the row's codes. U is K × r, row by row
(notes/assumptions/35). -/
def loadU (s : State) (g : Nat) (p : Plan) (c : Begun) (kk : Nat) : Except (Nat × AccErr) (WRow × Begun) :=
  let lo := kk / 16 * 16
  match lowCodes s g (leAt c.bytes 80 6 + 2 * p.rank * lo) (p.rank * (min (lo + 16) p.k - lo)) with
  | .error e => .error e
  | .ok l =>
    let code := fun (j i : Nat) => l.getD ((i - lo) * p.rank + j) 0
    .ok (lowRow p.reference p.rank p.k kk code,
      { c with lowU := (List.range p.rank).foldl (fun z j => tput 0 z (kk * p.rank + j) (code j kk)) c.lowU })

/-- Vᵀ for a row of a side B pass over the outputs from `first` on, `n` of them (R167). V is N × r, row by row
(notes/assumptions/35). -/
def loadV (s : State) (g : Nat) (p : Plan) (c : Begun) (first n kk : Nat) : Except (Nat × AccErr) (WRow × Begun) :=
  match lowCodes s g (leAt c.bytes 86 6 + 2 * p.rank * first) (p.rank * n) with
  | .error e => .error e
  | .ok l =>
    let code := fun (j i : Nat) => l.getD (j * p.rank + i) 0
    .ok (lowRow p.reference n p.rank kk code,
      { c with lowV := (List.range n).foldl (fun z j => tput 0 z ((first + j) * p.rank + kk) (code j kk)) c.lowV })

/-- Outputs of a side B pass: the first, counted in the tile, and how many (R167). -/
def sideSpan (p : Plan) (t x : Nat) : Nat × Nat :=
  let lo := 256 * (x - p.sets * p.phases)
  (lo, min 256 (p.cols t - lo))

/-- What the loader writes for a row of pass x of tile t; or that its data are not all there; or why U or V cannot be read. -/
def loadedRow (s : State) (g : Nat) (p : Plan) (c : Begun) (t x row : Nat) : Option (Except (Nat × AccErr) (WRow × Begun)) :=
  if p.isSide x then some (loadV s g p c (p.start t + (sideSpan p t x).1) (sideSpan p t x).2 row)
  else if rowReady p c t x row then
    let kk := x / p.phases * p.rowsMax + row
    let w := mainRow p c (keyFor s g) t (x % p.phases) kk
    if t = 0 ∧ p.rank ≠ 0 then
      match loadU s g p c kk with
      | .error e => some (.error e)
      | .ok (u, c1) => some (.ok (u.join w, c1))
    else some (.ok (w, c))
  else none

/-- The row of a pass written into the registers and its load signalled complete (R133), or the fault that U or V cannot be read (R134,
R142). -/
def loadRow (s : State) (g b : Nat) (ps : Pass) (p : Plan) (c : Begun) (row : Nat) : State :=
  let sb := streamBay s g b
  let tx := p.locate p.tiles 0 ps.number
  match loadedRow s g p c tx.1 tx.2 row with
  | none => s
  | some (.error (va, e)) =>
    let at_ := faultPlace s g sb row 0
    bayFault s g at_.1 2 ⟨some row, at_.2, ps.parity, (errPlace va e).1, (errPlace va e).2, 0⟩ (cmdTag c.bytes) (some (c.queue, c.index))
  | some (.ok (w, c1)) =>
    let s1 := putRow (begunPut s g c1) g sb ps.parity row w
    showBays (bayPut s1 g sb { bayGet s1 g sb with rowsLoaded := row :: (bayGet s1 g sb).rowsLoaded }) g b

/-- ROW_LOAD_COMPLETE (R130, R133, R134): while the page is STOPPING only for a pass that has begun (R147). -/
def rowLoad (s : State) (g b row : Nat) : State :=
  let sb := streamBay s g b
  let x := bayGet s g sb
  match x.load with
  | none => s
  | some ps =>
    if ps.rows ≤ row ∨ x.rowsLoaded.contains row = true ∨ arrayGoes s g = false ∨
        (running s (arrPage g) = false ∧ x.rowsEntered = []) then s
    else
      match begunFind s g ps.queue ps.index with
      | none => s
      | some c =>
        let p := planOf (bayMode s g) c
        match absorb s g b c with
        | (s1, c1, some e) => operandFault s1 g sb c1 p e
        | (s1, c1, none) => loadRow s1 g b ps p c1 row

/-- The pass being loaded becomes the streaming pass once every row has entered it and no other streams (R131). -/
def promote (x : Bay) : Bay :=
  match x.cur, x.load with
  | none, some p => if x.rowsEntered.length = p.rows then { x with cur := some p, load := none, rowsLoaded := [], rowsEntered := [] } else x
  | _, _ => x

/-- M of the command a pass belongs to. -/
def passElements (s : State) (g : Nat) (ps : Pass) : Nat :=
  match begunFind s g ps.queue ps.index with | some c => leAt c.bytes 68 4 | none => 0

/-- ROW_ENTERS_PASS: a row whose load is complete takes the first element of the new pass (R128, R131): while the page is STOPPING only
of a pass that has begun or that has a completed load (R147). -/
def rowEnters (s : State) (g b row : Nat) : State :=
  let sb := streamBay s g b
  let x := bayGet s g sb
  let near := match x.cur with | none => true | some ps => decide (passElements s g ps - ps.emitted ≤ 4)
  let begun := running s (arrPage g) ||
    (arrayGoes s g && (x.rowsEntered != [] || (match x.load with | some p => x.rowsLoaded.length == p.rows | none => false)))
  if x.load.isSome = true ∧ x.rowsLoaded.contains row = true ∧ x.rowsEntered.contains row = false ∧ near = true ∧ begun = true ∧
      streamWhole s g b = true then
    showBays (bayPut s g sb (promote { x with rowsEntered := row :: x.rowsEntered })) g b
  else s

/-- Whether the streamed operands of the next element of a pass have arrived; a side B pass streams t, which tile 0 forms (R167). -/
def elementReady (p : Plan) (c : Begun) (ps : Pass) : Bool :=
  let tx := p.locate p.tiles 0 ps.number
  if p.isSide tx.2 then c.tvec.length == p.m * p.rank
  else decide (ps.emitted * p.k + tx.2 / p.phases * p.rowsMax + ps.rows ≤ c.bufA.length)

/-- ELEMENT_EMIT: the columns emit the group sums of the next element (R116, R128, R133); a mismatch of a pass that another bay's fault of the
same cycle has taken away is that bay's own (R144, R146). -/
def elementEmit (s : State) (g b : Nat) (check : Residue) : State :=
  let sb := streamBay s g b
  let x := bayGet s g sb
  match check, x.cur with
  | .mismatch row column, none => match x.lost with | some ps => residueFault s g sb ps row column | none => s
  | .agree, none => s
  | _, some ps =>
    match begunFind s g ps.queue ps.index with
    | none => s
    | some c =>
      let p := planOf (bayMode s g) c
      match absorb s g b c with
      | (s1, c1, some e) => operandFault s1 g sb c1 p e
      | (s1, c1, none) =>
        if elementReady p c1 ps = false ∨ (p.m ≤ ps.emitted + 1 ∧ x.old.isSome = true) ∨ arrayGoes s g = false then s1
        else
          match check with
          | .mismatch row column => residueFault s1 g sb ps row column
          | .agree =>
            let s2 := tally s1 (arrPage g) (20 + 8 * sb) 1
            let ps1 := { ps with emitted := ps.emitted + 1 }
            let y := bayGet s2 g sb
            let y1 := if p.m ≤ ps1.emitted then promote { y with old := some ps1, cur := none } else { y with cur := some ps1 }
            showBays (bayPut s2 g sb y1) g b

/-- The register rows of each K chunk of a pass, in bay order in cascade mode (R115, R136). -/
def passRows (s : State) (g sb : Nat) (ps : Pass) : List (List WRow) :=
  (List.range ((ps.rows + 1023) / 1024)).map (fun q =>
    (List.range (min 1024 (ps.rows - 1024 * q))).map (fun i => regRow s g sb ps.parity (1024 * q + i)))

/-- The results of the K chunks of main pass x of tile t for output (i, j) (R116-R118). -/
def chunkSums (p : Plan) (c : Begun) (regs : List (List WRow)) (t x i j : Nat) : List Nat :=
  let a := rowOf p c i
  regs.zipIdx.map (fun e =>
    regChunk p.fa p.ea (isFlt p.fw) p.reference (p.column t (j - p.start t)) (bricksOf p.fw) (chunkOf a (x * (p.rowsMax / 1024) + e.2)) e.1)

/-- Chunk results added to a running accumulator in order; without CONTINUE the first chunk's result becomes it (R119, R136). -/
def addChunks (cont : Bool) (x old : Nat) (rs : List Nat) : Nat :=
  rs.zipIdx.foldl (fun acc e => if x = 0 ∧ e.2 = 0 ∧ cont = false then e.1 else faddAcc acc e.1) old

/-- An accumulator after the last chunk of its output: the result that R85 or R86 demands in place of the command's own chunks (R120). -/
def withNonfinite (p : Plan) (c : Begun) (i j sum : Nat) : Nat :=
  match nonfiniteResult p.fa p.fw (rowOf p c i) (colOf p c j) with
  | none => sum
  | some r => if aflag c.bytes 0 then faddAcc (tget (0 : Word32) c.init (i * p.n + j)).toNat r else r

/-- A main pass that is not steep: the new values of the places of its tile, from the old ones (R119, R120). -/
def mainValues (p : Plan) (c : Begun) (regs : List (List WRow)) (t x : Nat) (olds : List Nat) : List Nat :=
  olds.zipIdx.map (fun e =>
    let i := e.2 / p.cols t
    let j := p.start t + e.2 % p.cols t
    let sum := addChunks (aflag c.bytes 0) x e.1 (chunkSums p c regs t x i j)
    if x + 1 < p.sets then sum else withNonfinite p c i j sum)

/-- The counts that a steep phase of tile t adds for output (i, j), by K chunk (R190). -/
def phaseCounts (p : Plan) (c : Begun) (key : Quad) (regs : List (List WRow)) (t z ph i j : Nat) : List Int :=
  let a := rowOf p c i
  regs.zipIdx.map (fun e =>
    let q := z * (p.rowsMax / 1024) + e.2
    regCount key c.bytes ph (1024 * q) (p.column t (j - p.start t)) (chunkOf a q) e.1)

/-- A steep phase (R190): between phases a place holds the count of its first chunk in 32 bits, and `carry` the running accumulator
at 4 × place and the counts of the other bays' chunks behind it (notes/assumptions/35); after the last one the place holds the running accumulator
again. -/
def phaseValues (p : Plan) (c : Begun) (key : Quad) (regs : List (List WRow)) (t x : Nat) (olds : List Nat) : List Nat × Tab Word32 :=
  let z := x / p.phases
  let ph := x % p.phases
  let each := olds.zipIdx.map (fun e =>
    let i := e.2 / p.cols t
    let j := p.start t + e.2 % p.cols t
    let held := fun (q : Nat) => if q = 0 then e.1 else (tget (0 : Word32) c.carry (4 * e.2 + q)).toNat
    let acc := if ph = 0 then e.1 else (tget (0 : Word32) c.carry (4 * e.2)).toNat
    let counts := (phaseCounts p c key regs t z ph i j).zipIdx.map (fun d => if ph = 0 then d.1 else sext 32 (held d.2) + d.1)
    if ph + 1 < p.phases then
      (toField 32 (counts.headD 0), (4 * e.2, acc) :: (counts.zipIdx.drop 1).map (fun d => (4 * e.2 + d.2, toField 32 d.1)))
    else
      let sum := addChunks (aflag c.bytes 0) z acc (counts.map (countResult p))
      (if z + 1 < p.sets then sum else withNonfinite p c i j sum, []))
  (each.map (·.1), (each.flatMap (·.2)).foldl (fun l d => tput (0 : Word32) l d.1 (BitVec.ofNat 32 d.2)) [])

/-- A side B pass (R167, R168): the new values of its places. -/
def sideValues (p : Plan) (c : Begun) (regs : List (List WRow)) (t x : Nat) (olds : List (Nat × Nat)) : List Nat :=
  olds.map (fun e =>
    let i := e.1 / p.cols t
    let j := p.start t + e.1 % p.cols t
    let a := ((c.tvec.drop (i * p.rank)).take p.rank).map (fun w => (convert (.flt 0 2) 0 0 w).1)
    let v := (List.range p.rank).map (fun k => (convert (.flt 0 0) 0 0 (tget 0 c.lowV (j * p.rank + k))).1)
    let r := match nonfiniteResult (.flt 0 2) (.flt 0 0) a v with
      | some r => r
      | none => regChunk (.flt 0 2) 0 true p.reference (4 * (e.1 % p.cols t - (sideSpan p t x).1)) 4 a (regs.headD [])
    faddAcc e.2 r)

/-- Side A of a main pass of tile 0 (R166): the accumulators of t, and t in BF16 after the last chunk (R167). -/
def sideA (p : Plan) (c : Begun) (regs : List (List WRow)) (x : Nat) : Begun :=
  let each := (List.range (p.m * p.rank)).map (fun y =>
    let a := rowOf p c (y / p.rank)
    let r := regChunk p.fa p.ea true p.reference (4 * (y % p.rank)) 4 (chunkOf a x) (regs.headD [])
    let acc := if x = 0 then r else faddAcc (tget (0 : Word32) c.side y).toNat r
    let u := (List.range p.k).map (fun k => (convert (.flt 0 0) 0 0 (tget 0 c.lowU (k * p.rank + y % p.rank))).1)
    if x + 1 < p.sets then acc else (nonfiniteResult p.fa (.flt 0 0) a u).getD acc)
  if x + 1 < p.sets then { c with side := each.zipIdx.foldl (fun l e => tput (0 : Word32) l e.2 (BitVec.ofNat 32 e.1)) c.side }
  else { c with side := [], tvec := each.map (fun v => (toStore 0 v).1) }

/-- The values that a CONTINUE command continues from, kept when its first pass over a tile drains (R120). -/
def keepInit (p : Plan) (c : Begun) (t x : Nat) (olds : List Nat) : Begun :=
  if aflag c.bytes 0 = true ∧ x = 0 then
    { c with init := olds.zipIdx.foldl (fun z e =>
        tput (0 : Word32) z (e.2 / p.cols t * p.n + p.start t + e.2 % p.cols t) (BitVec.ofNat 32 e.1)) c.init }
  else c

/-- The accumulators and the command after a pass has drained (R119, R132, R166-R168, R190); else the place whose accumulator cannot be read,
with its address. -/
def drainPass (s : State) (g sb : Nat) (p : Plan) (c : Begun) (ps : Pass) (t x : Nat) : Except (Nat × Nat) (State × Begun) :=
  let addr := accAddr s (galPage g) c p t
  let all := List.range (p.m * p.cols t)
  let regs := passRows s g sb ps
  if p.isSide x then
    let span := sideSpan p t x
    let mine := all.filter (fun y => decide (span.1 ≤ y % p.cols t) && decide (y % p.cols t < span.1 + span.2))
    match getPlaces s addr mine with
    | .error e => .error e
    | .ok (s1, olds) => .ok (putPlaces s1 addr (mine.zip (sideValues p c regs t x (mine.zip olds))), c)
  else
    match getPlaces s addr all with
    | .error e => .error e
    | .ok (s1, olds) =>
      let c1 := keepInit p c t x olds
      if p.steep then
        let r := phaseValues p c1 (keyFor s g) regs t x olds
        .ok (putPlaces s1 addr (all.zip r.1), { c1 with carry := r.2 })
      else
        .ok (putPlaces s1 addr (all.zip (mainValues p c1 regs t x olds)), if t = 0 ∧ p.rank ≠ 0 then sideA p c1 regs x else c1)

/-- Whether tile t of 64 by 64 outputs is selected (R211). -/
def tileSelected (s : State) (g : Nat) (b : List Byte) (t : Nat) : Bool :=
  let k := rd s (cenPage g) fSHK
  drawWord (keyFor s g) 0x30 (leAt b 62 3) (cmdStep b) t / 2 ^ (32 - k) == 0

/-- Whether a command is shadowed (R210). -/
def shadowed (s : State) (g : Nat) (c : Begun) : Bool :=
  rd s (cenPage g) fSHEN == 1 && leAt c.bytes 54 2 != 0xFFFF && pwMode c.word.toNat != 2

/-- The tile of an output (R210). -/
def shadowTile (p : Plan) (i j : Nat) : Nat := i / 64 * ((p.n + 63) / 64) + j / 64

/-- The shadow tiles of a command that are selected. -/
def selectedTiles (s : State) (g : Nat) (c : Begun) (p : Plan) : List Nat :=
  if shadowed s g c then (List.range ((p.m + 63) / 64 * ((p.n + 63) / 64))).filter (tileSelected s g c.bytes) else []

/-- The narrow results of a finished tile that its shadow tiles will be compared with (R212), or the place that cannot be read. -/
def keepNarrow (s : State) (g : Nat) (c : Begun) (p : Plan) (t : Nat) : Except (Nat × Nat) (State × Begun) :=
  if shadowed s g c then
    let cols := p.cols t
    let sel := selectedTiles s g c p
    let ys := (List.range (p.m * cols)).filter (fun y => sel.contains (shadowTile p (y / cols) (p.start t + y % cols)))
    match getPlaces s (accAddr s (galPage g) c p t) ys with
    | .error e => .error e
    | .ok (s1, vs) =>
      .ok (s1, { c with narrow := (ys.zip vs).foldl (fun z e =>
        tput (0 : Word32) z (e.1 / cols * p.n + p.start t + e.1 % cols) (BitVec.ofNat 32 e.2)) c.narrow })
  else .ok (s, c)

/-- The accumulator slots of a tile made FULL for the vector unit (R119, R232). -/
def deliverTile (s : State) (g : Nat) (c : Begun) (p : Plan) (t : Nat) : State :=
  let pg := galPage g
  let z := slotSize (caddyWord s (pg + 2) (accCaddy c))
  let n := slotsOfTile s pg c p t
  (List.range n).foldl (fun u i =>
    let slot := c.accSlots.getD (slotsBefore s pg c p t + i) 0
    match tfind (cadGet u pg (accCaddy c)).slots slot with
    | some k => if k.phase = .filling then slotFull u pg (accCaddy c) slot (min z (4 * p.m * p.cols t - z * i)) else u
    | none => u) s

/-- Whether a command's tiles are delivered as they finish: the caddy has fewer slots than they take (notes/assumptions/34). -/
def deliversEarly (s : State) (g : Nat) (c : Begun) (p : Plan) : Bool :=
  decide ((cadGet s (galPage g) (accCaddy c)).count < slotsBefore s (galPage g) c p p.tiles)

/-- A command whose passes have drained and whose shadow tiles are done: its outputs are delivered and it has ended (R119, R316). -/
def arrayDone (s : State) (g : Nat) (c : Begun) : State :=
  let p := planOf (bayMode s g) c
  if c.drained = p.total ∧ c.shadow = [] then
    endBegun ((List.range p.tiles).foldl (fun t i => deliverTile t g c p i) s) g c.queue c.index cDONE 0
  else s

/-- Uncorrectable accumulator data at a place of pass x of tile t (R142): the column is the place's, the port bay 0's in cascade mode, where
the first chunk is added first (R136). -/
def accFault (s : State) (g sb : Nat) (c : Begun) (p : Plan) (ps : Pass) (t x : Nat) (e : Nat × Nat) : State :=
  let j := e.1 % p.cols t
  let at_ := faultPlace s g sb 0 (if p.isSide x then 4 * (j - (sideSpan p t x).1) else p.column t j)
  bayFault s g at_.1 3 ⟨none, at_.2, ps.parity, e.2, true, 0⟩ (cmdTag c.bytes) none

/-- A drained pass counted, the bay free of it, and the shadow tiles chosen after the command's last one (R132, R212). -/
def passOver (s : State) (g b : Nat) (c : Begun) (p : Plan) (t : Nat) (last : Bool) : State :=
  let sb := streamBay s g b
  let c1 := { c with drained := c.drained + 1 }
  let c2 := if c1.drained = p.total then { c1 with shadow := selectedTiles s g c1 p } else c1
  let s1 := begunPut (tally (tally s (arrPage g) 12 1) (arrPage g) (16 + 8 * sb) 1) g c2
  let s2 := showBays (bayPut s1 g sb { bayGet s1 g sb with old := none }) g b
  let s3 := if last = true ∧ deliversEarly s2 g c2 p = true then deliverTile s2 g c2 p t else s2
  arrayDone s3 g c2

/-- PASS_DRAINED: the tree results of the pass reach their accumulators (R119, R132, R133). -/
def passDrained (s : State) (g b : Nat) (check : Residue) : State :=
  let sb := streamBay s g b
  let x := bayGet s g sb
  match check, x.old with
  | .mismatch row column, none => match x.lost with | some ps => residueFault s g sb ps row column | none => s
  | .agree, none => s
  | _, some ps =>
    match begunFind s g ps.queue ps.index with
    | none => bayPut s g sb { x with old := none }
    | some c =>
      let p := planOf (bayMode s g) c
      let tx := p.locate p.tiles 0 ps.number
      if arrayGoes s g = false then s
      else
        match check with
        | .mismatch row column => residueFault s g sb ps row column
        | .agree =>
          match drainPass s g sb p c ps tx.1 tx.2 with
          | .error e => accFault s g sb c p ps tx.1 tx.2 e
          | .ok (s1, c1) =>
            let last := tx.2 + 1 == p.ofTile tx.1
            match (if last then keepNarrow s1 g c1 p tx.1 else .ok (s1, c1)) with
            | .error e => accFault s1 g sb c1 p ps tx.1 tx.2 e
            | .ok (s2, c2) => passOver s2 g b c2 p tx.1 last

/-- The loads that an array page leaves incomplete when it reaches STOPPED: they have not begun, and their passes load again after the
restart (R147). -/
def dropLoads (s : State) (g : Nat) : State :=
  [0, 1, 2, 3].foldl (fun t b =>
    match (bayGet t g b).load with
    | none => t
    | some ps =>
      let t1 := match begunFind t g ps.queue ps.index with | some c => begunPut t g { c with loaded := c.loaded - 1 } | none => t
      showBays (bayPut t1 g b { bayGet t1 g b with load := none, rowsLoaded := [], rowsEntered := [] }) g b) s

/-- Whether an array has finished its passes (R146, R147): every pass begun or with a completed load, and the drain of every FAULTED
bay. -/
def arrayDrained (s : State) (pg : Nat) : Bool :=
  (List.range 4).all (fun b =>
    let x := (galGet s (galBase pg)).bays.getD b bayIdle
    x.old.isNone && x.cur.isNone && (rd s pg (fBAY b) != 3 || x.faultDrained) &&
      match x.load with
      | some l => x.rowsLoaded.length != l.rows && x.rowsEntered == []
      | none => true)

/-- The shadow record of one output: the bin of its narrow and its wide result (R212, R213). -/
def shadowBin (p : Plan) (c : Begun) (i j : Nat) : Nat :=
  let vals := fun (l : List Nat) (k : Nat) => l.map (fun w => (convert (.flt k 0) k 0 w).1)
  let wide := fullDot (.flt p.sa 0) (.flt p.sw 0) 0 0 true (vals ((c.bufA.drop (i * p.k)).take p.k) p.sa)
    (vals ((c.bufW.drop (j * p.k)).take p.k) p.sw)
  ulpBin (tget (0 : Word32) c.narrow (i * p.n + j)).toNat wide

/-- SHADOW_RECOMPUTE: one selected tile recomputed in reference mode and compared (R212, R213); a residue mismatch of the shadow pass is a bay
fault of the command (R214). -/
def shadowRecompute (s : State) (g q : Nat) (run : ShadowRun) : State :=
  match (galGet s (galPage g)).begun.find? (fun c => c.queue == q && cmdOp c.bytes == 1 && c.phase == .running && c.shadow.contains run.tile) with
  | none => s
  | some c =>
    let p := planOf (bayMode s g) c
    let b := streamBay s g q
    if streamOpen s g b = false then s
    else
      match run.check with
      | .mismatch row column =>
        residueFault s g b ⟨c.queue, c.index, c.loaded, min p.k p.rowsMax, rd s (arrPage g) (fPARITY b), 0⟩ row column
      | .agree =>
        let across := (p.n + 63) / 64
        let ys := (List.range 4096).filter (fun y =>
          decide (run.tile / across * 64 + y / 64 < p.m) && decide (run.tile % across * 64 + y % 64 < p.n))
        let got := ys.map (fun y => shadowBin p c (run.tile / across * 64 + y / 64) (run.tile % across * 64 + y % 64))
        let bins := (List.range 17).map (fun i => c.bins.getD i 0 + got.count i)
        let s1 := tally (tally s (arrPage g) 13 1) (cenPage g) 3 1
        let s2 := if got.any (fun i => decide (rd s (cenPage g) ⟨0x100, 20, 4⟩ ≤ i) && decide (i < 16)) then tally s1 (cenPage g) 4 1 else s1
        let c1 := { c with shadow := c.shadow.filter (· != run.tile), bins := bins }
        arrayDone (begunPut s2 g c1) g c1

/-- Order 8 of R315 for an ARRAY command (R188, R202, R235, R261, R311). -/
def checkArray (s : State) (g : Nat) (b : List Byte) : Check :=
  let steep := pwMode (layerWord s g b) == 1
  let w := layerWord s g b
  let no := fun (bad : Bool) (byte : Nat) => if bad then Check.refuse cREFDESC 0x81 byte else .pass
  let purpose := fun (x : Nat) => decide (0x10 ≤ x) && decide (x ≤ 0x2F)
  let res := aflag b 1
  let desc := fun (m va byte cad other count : Nat) =>
    match checkDesc s g m va byte with
    | .error c => c
    | .ok t =>
      if kCount t ≠ leAt b 72 4 ∨ mCount t ≠ count then .refuse cREFDESC 0x81 0xFF
      else if t.caddy ≠ cad then .refuse cREFDESC 0x81 other
      else if t.dir ≠ 0 ∨ t.esize ≠ 0 then .refuse cREFDESC 0x81 0xFF
      else .pass
  firstFail [
    no (if steep then !purpose (leAt b 65 1) else leAt b 65 1 != 0) 65,
    no (if steep then !purpose (leAt b 66 1) else leAt b 66 1 != 0) 66,
    no (leAt b 68 4 == 0) 68, no (leAt b 72 4 == 0) 72, no (leAt b 76 4 == 0) 76,
    no (pwRank w == 0 && leAt b 80 6 != 0) 80, no (pwRank w == 0 && leAt b 86 6 != 0) 86,
    no (res && leAt b 38 6 != 0) 38,
    no (aflag b 2 && leAt b 50 2 == 0xFFFF) 50, no (aflag b 3 && leAt b 52 2 == 0xFFFF) 52,
    checkEntry s g (leAt b 50 2) 0 50, checkEntry s g (leAt b 52 2) 0 52, checkEntry s g (leAt b 54 2) 1 54,
    no (!caddyIs s g (leAt b 44 1) 1) 44, no (!caddyIs s g (leAt b 45 1) (if res then 4 else 1)) 45,
    no (!caddyIs s g (leAt b 46 1) 2) 46,
    desc 0 (leAt b 32 6) 32 (leAt b 44 1) 44 (leAt b 68 4),
    (if res then .pass else desc 1 (leAt b 38 6) 38 (leAt b 45 1) 45 (leAt b 76 4))]

/-- A range exponent of an ARRAY command (R209, R311): its own, or its census entry's at the step start. -/
def rangeExp (s : State) (g : Nat) (b : List Byte) (flag own entry : Nat) : Int :=
  if aflag b flag then (snapOf s g).exps.getD (leAt b entry 2) 0 else sext 8 (leAt b own 1)

/-- An ARRAY command that has passed its checks (R311). -/
def startArray (s : State) (g q index : Nat) (b : List Byte) : State :=
  let c := begunOf q index b (layerWord s g b) (rangeExp s g b 2 48 50) (rangeExp s g b 3 49 52) .running
  giveOperands (addBegun s g c) g c

/-- The conversions of a completed ARRAY command (R97, R98, R171, R187): the streamed operands once per output tile, the stationary
ones once; of a low-rank correction the non-finite inputs alone, U and V once, t once for each side B pass that streams it. -/
def arrayCounts (s : State) (g : Nat) (c : Begun) : Counts × Counts :=
  let p := planOf (bayMode s g) c
  let a := c.bufA.foldl (fun z w => z.plus (convert p.fa p.sa p.ea w).2 p.tiles) noCounts
  let w := c.bufW.foldl (fun z w => z.plus (convert p.fw p.sw p.ew w).2 1) noCounts
  let bad := fun (l : List Nat) => (l.filter (fun x => !(unpack bf16 x).finite)).length
  let passes := (List.range p.tiles).foldl (fun n t => n + p.sides t) 0
  (a, { w with nonfinite := w.nonfinite + bad (c.lowU.map (·.2)) + bad (c.lowV.map (·.2)) + passes * bad c.tvec })

/-- The census updates of a completed ARRAY command (R203); a record that cannot be read fails it (R208, R571). -/
def arrayCensus (s : State) (g : Nat) (c : Begun) : State × Option (Nat × AccErr) :=
  let b := c.bytes
  let n := arrayCounts s g c
  match addCounts s g (leAt b 50 2) (cmdStep b) n.1 with
  | (s1, some e) => (s1, some e)
  | (s1, none) =>
    match addCounts s1 g (leAt b 52 2) (cmdStep b) n.2 with
    | (s2, some e) => (s2, some e)
    | (s2, none) => if c.bins = [] then (s2, none) else censusUpdate s2 g (leAt b 54 2) (cmdStep b) 68 (fun r => shadowPlus r c.bins)

/-- RELOAD_START (R133). -/
def execReloadStart (g : Fin 256) (b : Fin 4) (s : State) : Host.Outcome State Fault Refusal :=
  .next (alive s (fun t => reloadStart t g.val b.val))
/-- ROW_LOAD_COMPLETE (R133). -/
def execRowLoadComplete (g : Fin 256) (b : Fin 4) (row : Fin 4096) (s : State) : Host.Outcome State Fault Refusal :=
  .next (alive s (fun t => rowLoad t g.val b.val row.val))
/-- ROW_ENTERS_PASS (R131). -/
def execRowEntersPass (g : Fin 256) (b : Fin 4) (row : Fin 4096) (s : State) : Host.Outcome State Fault Refusal :=
  .next (alive s (fun t => rowEnters t g.val b.val row.val))
/-- ELEMENT_EMIT (R128). -/
def execElementEmit (g : Fin 256) (b : Fin 4) (check : Residue) (s : State) : Host.Outcome State Fault Refusal :=
  .next (alive s (fun t => elementEmit t g.val b.val check))
/-- PASS_DRAINED (R132). -/
def execPassDrained (g : Fin 256) (b : Fin 4) (check : Residue) (s : State) : Host.Outcome State Fault Refusal :=
  .next (alive s (fun t => passDrained t g.val b.val check))
/-- SHADOW_RECOMPUTE (R212). -/
def execShadowRecompute (g : Fin 256) (q : Fin 4) (run : ShadowRun) (s : State) : Host.Outcome State Fault Refusal :=
  .next (alive s (fun t => shadowRecompute t g.val q.val run))
/-- ARRAY (R311). -/
def execArray (g : Fin 256) (q : Fin 4) (s : State) : Host.Outcome State Fault Refusal :=
  .next (alive s (fun t => acceptRow t g.val q.val (fun b => cmdOp b == 1 || reservedOp b)
    (fun u _ b => firstFail [checkLayer u g.val b, checkArray u g.val b])
    (fun u i b => startArray u g.val q.val i b)))

end Sys2Proof.Machine
end

