-- ==== Sys2Proof/Machine/Approx.lean ====
section
/-! DEFINITION. The exact values that the approximate functions vexp and vlog stay near (R268, R269): e^x and ln x to 200 bits and more, the
ULP of a value, and the test against a bound. -/

namespace Sys2Proof.Machine

/-- 2^fixBits is 1 in the fixed-point arithmetic of this file. -/
def fixBits : Nat := 400

/-- Terms k to k + n - 1 of the series of e^y, y in fixed point, `t` being term k. -/
def expTerms (y k t n : Nat) : Nat :=
  match n with
  | 0 => 0
  | n + 1 => t + expTerms y (k + 1) (t * y / 2 ^ fixBits / (k + 1)) n

/-- A fixed-point number squared n times. -/
def squareTimes (v n : Nat) : Nat :=
  match n with
  | 0 => v
  | n + 1 => squareTimes (v * v / 2 ^ fixBits) n

/-- m 2^e in fixed point, rounded down. -/
def toFixed (m : Nat) (e : Int) : Nat := if 0 ≤ e + fixBits then m * 2 ^ (e + fixBits).toNat else m / 2 ^ (-(e + fixBits)).toNat

/-- e^(m 2^e) in fixed point: the series at 1/1024 of the argument, squared ten times. -/
def expFixed (m : Nat) (e : Int) : Nat := squareTimes (expTerms (toFixed m (e - 10)) 0 (2 ^ fixBits) 60) 10

/-- e^x for x finite, as a value whose relative error is below 2^-200. -/
def expVal (neg : Bool) (m : Nat) (e : Int) : Val :=
  let v := expFixed m e
  if neg then .fin false (2 ^ (4 * fixBits) / v) (-(3 * fixBits : Int)) else .fin false v (-(fixBits : Int))

/-- Terms of the series of the inverse hyperbolic tangent of z in fixed point: p is z^k, k odd. -/
def atanhTerms (z2 p k n : Nat) : Nat :=
  match n with
  | 0 => 0
  | n + 1 => p / k + atanhTerms z2 (p * z2 / 2 ^ fixBits) (k + 2) n

/-- Twice the inverse hyperbolic tangent of a/b at most 1/3, in fixed point. -/
def logRatio (a b : Nat) : Nat :=
  let z := a * 2 ^ fixBits / b
  2 * atanhTerms (z * z / 2 ^ fixBits) z 1 140

/-- ln(m 2^e) for m above 0, as a value whose error is far below its ULP. -/
def lnVal (m : Nat) (e : Int) : Val :=
  let n := blen m - 1
  let f := logRatio (m - 2 ^ n) (m + 2 ^ n)
  intVal (((n : Int) + e) * (logRatio 1 3 : Int) + f) (-(fixBits : Int))

/-- The exponent of the ULP of a finite value (R268). -/
def ulpExp (v : Val) : Int :=
  match v with
  | .fin _ m e => if m = 0 then -149 else max ((blen m : Int) - 1 + e) (-126) - 23
  | _ => -149

/-- Whether FP32 encoding r is finite and lies within two ULP of y, by a margin of 2^-63 ULP that covers the error of y (R268, R269). -/
def nearTwo (y : Val) (r : Nat) : Bool :=
  match unpack fp32 r with
  | .fin s k e => !vlt (.fin false (2 ^ 64 - 1) (ulpExp y + 1 - 64)) (vadd (.fin s k e) y.negate).mag
  | _ => false

end Sys2Proof.Machine
end

