-- ==== Sys2Proof/Machine/Vector.lean ====
section
/-! DEFINITION. The vector unit (R266-R273, R572): its functions, the operations of VECTOR commands, their operands and results. -/

namespace Sys2Proof.Machine

/-- The canonical NaN in FP32 (R82). -/
def nan32 : Nat := fp32.nanBits
/-- +infinity in FP32. -/
def inf32 : Nat := fp32.infBits
/-- -infinity in FP32. -/
def ninf32 : Nat := fp32.signBit + fp32.infBits
/-- 1.0 in FP32. -/
def one32 : Nat := 0x3F800000

/-- Whether an FP32 encoding is a NaN. -/
def isNan (w : Nat) : Bool := val32 w == .nan
/-- The sign bit of an FP32 encoding. -/
def isNeg (w : Nat) : Bool := bit w 31
/-- Whether an FP32 encoding is a zero. -/
def isZero32 (w : Nat) : Bool := (val32 w).isZero

/-- fmax (R269). -/
def fmax (a b : Nat) : Nat :=
  if isNan a || isNan b then nan32
  else if isZero32 a && isZero32 b then (if isNeg a && isNeg b then a else 0)
  else if vlt (val32 a) (val32 b) then b else a

/-- fmin (R269). -/
def fmin (a b : Nat) : Nat :=
  if isNan a || isNan b then nan32
  else if isZero32 a && isZero32 b then (if isNeg a then a else b)
  else if vlt (val32 b) (val32 a) then b else a

/-- A mask bit as it is written (R572). -/
def maskWord (b : Bool) : Nat := if b then one32 else 0

/-- The exponent of the ULP of 1/x for x = m 2^q (R268). -/
def recipUlp (m : Nat) (q : Int) : Int :=
  let k : Int := (blen m : Int) - 1 + q
  max (if m = 2 ^ (blen m - 1) then -k else -k - 1) (-126) - 23

/-- Whether r lies within one ULP of 1/x, x finite and not zero (R268, R269). -/
def recipClose (x r : Nat) : Bool :=
  match val32 x, val32 r with
  | .fin n m q, .fin s k e =>
    let d := vadd (vmul (.fin (n != s) k e) (.fin false m q)) (.fin true 1 0)
    !vlt (.fin false m (q + recipUlp m q)) d.mag
  | _, _ => false

/-- vrecip (R268-R270): the special cases; otherwise the fixed function of the input bits, which lies within its bound, with the
correctly rounded quotient where the free function would not. -/
def vrecip (w : Nat) : Nat :=
  let sg := if isNeg w then fp32.signBit else 0
  match val32 w with
  | .nan => nan32
  | .inf _ => sg
  | .fin _ m q =>
    if m = 0 then sg + inf32
    else if m ≤ 2 ^ 21 ∧ bits w 23 8 = 0 then sg + inf32
    else
      let r := (Config.recipBits (BitVec.ofNat 32 w)).toNat
      if recipClose w r then r else sg + packRne fp32 (scaleVal (vratio 1 m) (-q))

/-- The exponent of the ULP of 1/sqrt(x) for x = m 2^q (R268). -/
def rsqrtUlp (m : Nat) (q : Int) : Int :=
  let k : Int := (blen m : Int) - 1 + q
  let e := if k % 2 = 0 then (if m = 2 ^ (blen m - 1) then -(k / 2) else -(k / 2) - 1) else -((k + 1) / 2)
  max e (-126) - 23

/-- Whether r lies within two ULP of 1/sqrt(x), x positive and finite (R268, R269). -/
def rsqrtClose (x r : Nat) : Bool :=
  match val32 x, val32 r with
  | .fin _ m q, .fin s k e =>
    let u := Val.fin false 1 (rsqrtUlp m q + 1)
    let lo := vadd (.fin s k e) u.negate
    let hi := vadd (.fin s k e) u
    let xv := Val.fin false m q
    let one := Val.fin false 1 0
    !s && (vlt lo (.fin false 0 0) || !vlt one (vmul (vmul lo lo) xv)) && !vlt (vmul (vmul hi hi) xv) one
  | _, _ => false

/-- vrsqrt (R268-R270). -/
def vrsqrt (w : Nat) : Nat :=
  match val32 w with
  | .nan => nan32
  | .inf n => if n then nan32 else 0
  | .fin n m q =>
    if m = 0 then (if n then ninf32 else inf32)
    else if n then nan32
    else
      let r := (Config.rsqrtBits (BitVec.ofNat 32 w)).toNat
      if rsqrtClose w r then r
      else
        let odd := q % 2 != 0
        let m1 := if odd then 2 * m else m
        let q1 := if odd then q - 1 else q
        packRne fp32 (scaleVal (vsqrt (vratio 1 m1)) (-(q1 / 2)))

/-- vexp (R268-R270): the special cases; otherwise the fixed function of the input bits (notes/assumptions/5), with the correctly rounded
value where the free function would break its bound. -/
def vexp (w : Nat) : Nat :=
  match val32 w with
  | .nan => nan32
  | .inf n => if n then 0 else inf32
  | .fin n m e =>
    if m = 0 then one32
    else if n = false ∧ 0x42B17217 < w then inf32
    else if n = true ∧ 0xC2CFF1B4 < w then 0
    else
      let r := (Config.expBits (BitVec.ofNat 32 w)).toNat
      let y := expVal n m e
      if nearTwo y r then r else packRne fp32 y

/-- vlog (R268-R270), as vexp. -/
def vlog (w : Nat) : Nat :=
  match val32 w with
  | .nan => nan32
  | .inf n => if n then nan32 else inf32
  | .fin n m e =>
    if m = 0 then ninf32
    else if n then nan32
    else
      let r := (Config.logBits (BitVec.ofNat 32 w)).toNat
      let y := lnVal m e
      if nearTwo y r then r else packRne fp32 y

/-- An FP32 encoding with any NaN as the canonical one (R82). -/
def canonNan (w : Nat) : Nat := if isNan w then nan32 else w

/-- The blocks of a reduction of R271 combined with an operation; `pad` fills the last block. -/
def reduceBlocks (f : Nat → Nat → Nat) (pad : Nat) (xs : List Nat) : Nat :=
  let bs := (groupsOf (xs.length / 512 + 1) 512 xs).map (fun l => treeOf f 10 (l ++ List.replicate (512 - l.length) pad))
  match bs with
  | [] => pad
  | b :: r => r.foldl f b

/-- The sum reduction (R271). -/
def sumReduce (xs : List Nat) : Nat := reduceBlocks fadd 0 xs
/-- The max reduction (R271): positions beyond the last element do not take part (notes/assumptions/40). -/
def maxReduce (xs : List Nat) : Nat := reduceBlocks fmax ninf32 xs

/-- RNE(1/n) (R272). -/
def recipCount (n : Nat) : Nat := packRne fp32 (vratio 1 n)

/-- rms_norm of a row (R272). -/
def rmsNorm (x g : List Nat) (eps : Nat) : List Nat :=
  let q := sumReduce (x.map (fun v => fmul v v))
  let r := vrsqrt (fadd (fmul q (recipCount x.length)) eps)
  (x.zip g).map (fun p => fmul (fmul p.1 r) p.2)

/-- layer_norm of a row (R272). -/
def layerNorm (x g b : List Nat) (eps : Nat) : List Nat :=
  let mu := fmul (sumReduce x) (recipCount x.length)
  let q := sumReduce (x.map (fun v => fmul (fsub v mu) (fsub v mu)))
  let r := vrsqrt (fadd (fmul q (recipCount x.length)) eps)
  (x.zip (g.zip b)).map (fun p => ffma (fmul (fsub p.1 mu) r) p.2.1 p.2.2)

/-- The operation code of a VECTOR command (R572). -/
def vcode (b : List Byte) : Nat := leAt b 32 2
/-- COUNT. -/
def vcount (b : List Byte) : Nat := leAt b 40 8
/-- Parameter i. -/
def vparam (b : List Byte) (i : Nat) : Nat := leAt b (48 + 4 * i) 4
/-- The caddy of input i. -/
def vin (b : List Byte) (i : Nat) : Nat := leAt b (34 + i) 1
/-- The format of input i. -/
def vfmt (b : List Byte) (i : Nat) : Nat := leAt b 38 1 / 4 ^ i % 4
/-- The output caddy. -/
def vout (b : List Byte) : Nat := leAt b 37 1
/-- The output format. -/
def vofmt (b : List Byte) : Nat := leAt b 39 1 % 4

/-- Whether an operation code is defined (R572). -/
def vdefined (c : Nat) : Bool :=
  (decide (1 ≤ c) && decide (c ≤ 0xE)) || c == 0x10 || c == 0x11 || c == 0x20 || c == 0x21 || c == 0x30 || c == 0x31 || c == 0x40 ||
    (decide (0x100 ≤ c) && decide (c ≤ 0x1FF))

/-- The inputs an operation uses (R572); an activation function uses those that the command names (notes/assumptions/5). -/
def vinputs (b : List Byte) : List Nat :=
  let c := vcode b
  if 0x100 ≤ c then (List.range 3).filter (fun i => vin b i != 0xFF)
  else if c = 4 ∨ c = 0x31 then [0, 1, 2]
  else if c ≤ 9 ∨ c = 0x30 then [0, 1]
  else [0]

/-- Whether an operation works on rows. -/
def vrows (c : Nat) : Bool := c == 0x20 || c == 0x21 || c == 0x30 || c == 0x31

/-- Elements that input i supplies: n for g and b of a normalisation (R572). -/
def vwant (b : List Byte) (i : Nat) : Nat := if (vcode b = 0x30 ∨ vcode b = 0x31) ∧ i ≠ 0 then vparam b 3 else vcount b
/-- Output elements (R572). -/
def voutCount (b : List Byte) : Nat := if vcode b = 0x20 ∨ vcode b = 0x21 then vcount b / vparam b 3 else vcount b

/-- Bytes of an element in a format of R572. -/
def vsize (f : Nat) : Nat := if f = 0 then 4 else 2
/-- An element as FP32. -/
def vload32 (f w : Nat) : Nat := if f = 0 then w else fromStore (f - 1) w
/-- An FP32 result in a format, by RNE. -/
def vstore32 (f w : Nat) : Nat := if f = 0 then w else (toStore (f - 1) w).1

/-- Order 8 of R315 for a VECTOR command (R231, R572). -/
def checkVector (s : State) (g : Nat) (b : List Byte) : Check :=
  let no := fun (bad : Bool) (byte : Nat) => if bad then Check.refuse cREFDESC 0x81 byte else .pass
  let n := vparam b 3
  let word := fun (c : Nat) => caddyWord s (movPage g) c
  let input := fun (i : Nat) =>
    let c := vin b i
    let role := caddyRole (word c)
    firstFail [no (vfmt b i == 3) 38,
      no (decide (63 < c) || !caddyValid (word c) || !(role == 2 || role == 5 || role == 6)) (34 + i),
      no (role == 6 && decide (caddySize (word c) < vwant b i * vsize (vfmt b i))) 40]
  let o := vout b
  let orole := caddyRole (word o)
  firstFail ([no (!vdefined (vcode b)) 32, no (vrows (vcode b) && (n == 0 || vcount b % n != 0)) 60] ++ (vinputs b).map input ++
    [no (vofmt b == 3) 39, no (decide (63 < o) || !caddyValid (word o) || !(orole == 3 || orole == 6)) 37,
     no (orole == 6 && decide (caddySize (word o) < voutCount b * vsize (vofmt b))) 40])

/-- A VECTOR command that has passed its checks. -/
def startVector (s : State) (g q index : Nat) (b : List Byte) : State :=
  addBegun s g (begunOf q index b 0 0 0 .running)

/-- The vector unit beginning a command, whose run begins on its command set, if it has not begun it (R523, R528): `loaded` is then 1. -/
def vectorBegins (s : State) (g : Nat) (c : Begun) : State × Begun :=
  if c.loaded = 0 then
    let c1 := { c with loaded := 1 }
    (begunPut (tally (beginRun s (galPage g) 32 0 (cmdTag c.bytes)) (galPage g) 32 1) g c1, c1)
  else (s, c)

/-- Element codes of a byte string in a format. -/
def codesOf (f : Nat) (bs : List Byte) : List Nat := (groupsOf (bs.length / vsize f + 1) (vsize f) bs).map leNat

/-- What taking elements from a caddy gives: the state, the elements held, the slots read and kept, and the address of a granule that reads
uncorrectable. -/
structure Taken where
  state : State
  buf : List Nat
  kept : List (Nat × Nat)
  bad : Option Nat

/-- Elements taken from the FULL slots of a credited caddy, in ring order, until `want` are held (R232, R572); a slot returns FREE once it
is read, unless it is kept until the command's last row. -/
def takeElements (s : State) (pg c f : Nat) (keep : Bool) (fuel want : Nat) (buf : List Nat) (kept : List (Nat × Nat)) : Taken :=
  match fuel with
  | 0 => ⟨s, buf, kept, none⟩
  | k + 1 =>
    if want ≤ buf.length then ⟨s, buf, kept, none⟩
    else
      match slotConsume s pg c with
      | none => ⟨s, buf, kept, none⟩
      | some (s1, n) =>
        let x := (tfind (cadGet s1 pg c).slots n).getD ⟨.full, 0, 0, 0, (4, 0)⟩
        match loadHeal s1 (cabAddr s pg (slotBase s pg c n)) x.bytes with
        | .error a => ⟨slotFree s1 pg c n, buf, kept, some a⟩
        | .ok (s2, bs) =>
          takeElements (if keep then s2 else slotFree s2 pg c n) pg c f keep k want ((buf ++ codesOf f bs).take want)
            (if keep then kept ++ [(c, n)] else kept)

/-- The slots that a command has kept, FREE (R232). -/
def freeKept (s : State) (pg : Nat) (kept : List (Nat × Nat)) : State := kept.foldl (fun t e => slotFree t pg e.1 e.2) s

/-- Whether the slots of input i are kept until the last row: g and b of a normalisation (R572). -/
def keepsSlots (b : List Byte) (i : Nat) : Bool := (vcode b == 0x30 || vcode b == 0x31) && i != 0

/-- What input i of a command holds after what its caddy supplies now; a scratch caddy is read where it stands (R231). -/
def fillInput (s : State) (g : Nat) (b : List Byte) (i : Nat) (buf : List Nat) (kept : List (Nat × Nat)) : Taken :=
  let pg := galPage g
  let c := vin b i
  let w := caddyWord s (movPage g) c
  let want := vwant b i
  if want ≤ buf.length then ⟨s, buf, kept, none⟩
  else if caddyRole w = 6 then
    match loadHeal s (cabAddr s pg (caddyBase w)) (want * vsize (vfmt b i)) with
    | .error a => ⟨s, buf, kept, some a⟩
    | .ok (s1, bs) => ⟨s1, codesOf (vfmt b i) bs, kept, none⟩
  else takeElements s pg c (vfmt b i) (keepsSlots b i) (want + 1) want buf kept

/-- The elements of input i of a command. -/
def inputBuf (c : Begun) (i : Nat) : List Nat := match i with | 0 => c.bufA | 1 => c.bufW | _ => c.bufC
/-- The command with the elements of input i replaced. -/
def setInput (c : Begun) (i : Nat) (l : List Nat) : Begun :=
  match i with | 0 => { c with bufA := l } | 1 => { c with bufW := l } | _ => { c with bufC := l }

/-- The earlier input that names the same caddy in the same format: both read the same elements (notes/assumptions/39). -/
def twin (b : List Byte) (i : Nat) : Option Nat := (List.range i).find? (fun j => vin b j == vin b i && vfmt b j == vfmt b i && (vinputs b).contains j)

/-- Every input of a command filled as far as its caddies supply. -/
def fillInputs (s : State) (g : Nat) (c : Begun) (is : List Nat) : State × Begun × Option Nat :=
  match is with
  | [] => (s, c, none)
  | i :: r =>
    match twin c.bytes i with
    | some j => fillInputs s g (setInput c i (inputBuf c j)) r
    | none =>
      let t := fillInput s g c.bytes i (inputBuf c i) c.kept
      let c1 := { setInput c i t.buf with kept := t.kept }
      match t.bad with
      | some a => (t.state, c1, some a)
      | none => fillInputs t.state g c1 r

/-- One element of an elementwise operation (R269, R572): x, y, z are the inputs at place e. -/
def vectorElement (key : Quad) (b : List Byte) (e x y z : Nat) : Nat :=
  match vcode b with
  | 0x01 => fadd x y
  | 0x02 => fsub x y
  | 0x03 => fmul x y
  | 0x04 => ffma x y z
  | 0x05 => fmax x y
  | 0x06 => fmin x y
  | 0x07 => maskWord (veq (val32 x) (val32 y))
  | 0x08 => maskWord (vlt (val32 x) (val32 y))
  | 0x09 => maskWord (!isNan x && !isNan y && !vlt (val32 y) (val32 x))
  | 0x0A => fsqrt x
  | 0x0B => vrecip x
  | 0x0C => vrsqrt x
  | 0x0D => vexp x
  | 0x0E => vlog x
  | 0x10 => fadd (fmul x (vparam b 0)) (vparam b 1)
  | 0x40 => if leAt b 68 4 ≤ drawWord key 3 (leAt b 64 3) (cmdStep b) e then fmul x (vparam b 0) else 0
  | 0x11 => x
  | c => canonNan (Config.activation c ((List.range 4).map (fun i => BitVec.ofNat 32 (canonNan (vparam b i))))
      (((vinputs b).map (fun i => canonNan (if i = 0 then x else if i = 1 then y else z))).map (BitVec.ofNat 32))).toNat

/-- The FP32 results of a command whose inputs are there (R572). -/
def vectorResults (key : Quad) (b : List Byte) (xs ys zs : List Nat) : List Nat :=
  let rows := groupsOf (xs.length + 1) (max 1 (vparam b 3)) xs
  match vcode b with
  | 0x20 => rows.map sumReduce
  | 0x21 => rows.map maxReduce
  | 0x30 => rows.flatMap (fun r => rmsNorm r ys (vparam b 0))
  | 0x31 => rows.flatMap (fun r => layerNorm r ys zs (vparam b 0))
  | _ => (List.range xs.length).map (fun e => vectorElement key b e (xs.getD e 0) (ys.getD e 0) (zs.getD e 0))

/-- Results given to a credited output caddy, slot by slot, while it holds credits (R232): what is left. -/
def giveElements (s : State) (pg c size fuel : Nat) (owner : Nat × Nat) (out : List Nat) : State × List Nat :=
  match fuel with
  | 0 => (s, out)
  | k + 1 =>
    if out = [] then (s, [])
    else
      match slotTake s pg c owner with
      | none => (s, out)
      | some (s1, n) =>
        let per := slotSize (caddyWord s (pg + 2) c) / size
        let bs := (out.take per).flatMap (leBytes size)
        let s2 := (store s1 (cabAddr s1 pg (slotBase s1 pg c n)) bs).1
        giveElements (slotFull s2 pg c n bs.length) pg c size k owner (out.drop per)

/-- Whether an ATTENTION command may use the array (R325): it is the first of its stream, whose bays are IDLE and not FAULTED, and the page
runs. -/
def arrayTurn (s : State) (g : Nat) (c : Begun) : Bool :=
  let x := bayGet s g (streamBay s g c.queue)
  streamOpen s g (streamBay s g c.queue) && x.old.isNone && x.cur.isNone && x.load.isNone &&
    match (streamCmds s g (streamBay s g c.queue)).head? with
    | some d => d.queue == c.queue && d.index == c.index
    | none => false

/-- The first vector command of a gallery that has not ended and does not wait for the array: the unit runs one at a time (R325). -/
def vectorTurn (s : State) (g : Nat) (c : Begun) : Bool :=
  match (galGet s (galPage g)).begun.find? (fun d => (cmdOp d.bytes == 3 || cmdOp d.bytes == 6 ||
      (cmdOp d.bytes == 4 && (d.hops != 0 || arrayTurn s g d))) && d.phase == .running) with
  | some d => d.queue == c.queue && d.index == c.index
  | none => false

/-- A running command that meets uncorrectable data: CODE 0x06 on the control page, FAILED_DATA (R267, R441); the slots it kept return. -/
def failData (s : State) (g : Nat) (c : Begun) (a : Nat) : State :=
  abandon (freeKept (recordBad s (galPage g) (pageOwner s (galPage g)) a) (galPage g) c.kept) g c.queue c.index cFDATA 0

/-- The cabinet address that element e of results for a credited caddy would be written to: slots from HEAD on. -/
def outPlace (s : State) (pg c size e : Nat) : Nat :=
  let x := cadGet s pg c
  let per := slotSize (caddyWord s (pg + 2) c) / size
  cabAddr s pg (slotBase s pg c ((x.head + e / per) % x.count) + size * (e % per))

/-- What the Ledger counts of a VECTOR command (R528): elements read and written, function-unit evaluations, Kettle words. -/
def countVector (s : State) (pg : Nat) (b : List Byte) (n : Nat) : State :=
  let c := vcode b
  let units := if 0x0A ≤ c ∧ c ≤ 0x0E then vcount b else if c = 0x30 ∨ c = 0x31 then vcount b / max 1 (vparam b 3) else 0
  let s1 := tally (tally s pg 34 ((vinputs b).foldl (fun n i => n + vwant b i) 0)) pg 35 n
  tally (tally s1 pg 36 units) pg 37 (if c = 0x40 then vcount b else 0)

/-- The progress of a VECTOR command: inputs, results once they are all there, and outputs while credits last (R572). `hops` is 1
once the results stand in the first list. A result whose check fails is an uncorrectable word where it would have been written (R443). -/
def runVector (s0 : State) (g : Nat) (c0 : Begun) (fails : Option Nat) : State :=
  let pg := galPage g
  let b := c0.bytes
  let f := vofmt b
  let w := caddyWord s0 (movPage g) (vout b)
  if vectorTurn s0 g c0 = false then s0
  else
    let (s, c) := vectorBegins s0 g c0
    match (if c.hops = 0 then fillInputs s g c (vinputs b) else (s, c, none)) with
    | (s1, c1, some a) => failData (begunPut s1 g c1) g c1 a
    | (s1, c1, none) =>
      if c1.hops = 0 ∧ (vinputs b).any (fun i => decide ((inputBuf c1 i).length < vwant b i)) = true then begunPut s1 g c1
      else
        let x := fun (i : Nat) => (inputBuf c1 i).map (vload32 (vfmt b i))
        let out := if c1.hops = 0 then (vectorResults (keyFor s g) b (x 0) (x 1) (x 2)).map (vstore32 f) else c1.bufA
        let s2 := freeKept (if c1.hops = 0 then countVector s1 pg b out.length else s1) pg c1.kept
        let c2 := { c1 with kept := [] }
        let bad := if c1.hops = 0 then fails.filter (fun e => decide (e < out.length)) else none
        match bad with
        | some e =>
          failData (begunPut s2 g c2) g c2
            (if caddyRole w = 6 then cabAddr s2 pg (caddyBase w + vsize f * e) else outPlace s2 pg (vout b) (vsize f) e)
        | none =>
        if caddyRole w = 6 then
          let s3 := (store s2 (cabAddr s2 pg (caddyBase w)) (out.flatMap (leBytes (vsize f)))).1
          endBegun (begunPut s3 g { c2 with hops := 1 }) g c.queue c.index cDONE 0
        else
          match giveElements s2 pg (vout b) (vsize f) (out.length + 1) (c.queue, c.index) out with
          | (s3, []) => endBegun (begunPut s3 g { c2 with hops := 1 }) g c.queue c.index cDONE 0
          | (s3, left) => begunPut s3 g { c2 with hops := 1, bufA := left, bufW := [], bufC := [] }

/-- The acceptance of a VECTOR command whose operation code satisfies a test (R315, R572). -/
def vectorRow (s : State) (g q : Nat) (codes : Nat → Bool) : Host.Outcome State Fault Refusal :=
  .next (alive s (fun t => acceptRow t g q
    (fun b => (cmdOp b == 3 && (codes (vcode b) || !vdefined (vcode b))) || reservedOp b)
    (fun u _ b => checkVector u g b) (fun u i b => startVector u g q i b)))

/-- FADD (R572). -/
def execFadd (g : Fin 256) (q : Fin 4) (s : State) : Host.Outcome State Fault Refusal := vectorRow s g.val q.val (· == 0x01)
/-- FSUB (R572). -/
def execFsub (g : Fin 256) (q : Fin 4) (s : State) : Host.Outcome State Fault Refusal := vectorRow s g.val q.val (· == 0x02)
/-- FMUL (R572). -/
def execFmul (g : Fin 256) (q : Fin 4) (s : State) : Host.Outcome State Fault Refusal := vectorRow s g.val q.val (· == 0x03)
/-- FFMA (R572). -/
def execFfma (g : Fin 256) (q : Fin 4) (s : State) : Host.Outcome State Fault Refusal := vectorRow s g.val q.val (· == 0x04)
/-- FMAX (R572). -/
def execFmax (g : Fin 256) (q : Fin 4) (s : State) : Host.Outcome State Fault Refusal := vectorRow s g.val q.val (· == 0x05)
/-- FMIN (R572). -/
def execFmin (g : Fin 256) (q : Fin 4) (s : State) : Host.Outcome State Fault Refusal := vectorRow s g.val q.val (· == 0x06)
/-- EQ (R572). -/
def execCmpEq (g : Fin 256) (q : Fin 4) (s : State) : Host.Outcome State Fault Refusal := vectorRow s g.val q.val (· == 0x07)
/-- LT (R572). -/
def execCmpLt (g : Fin 256) (q : Fin 4) (s : State) : Host.Outcome State Fault Refusal := vectorRow s g.val q.val (· == 0x08)
/-- LE (R572). -/
def execCmpLe (g : Fin 256) (q : Fin 4) (s : State) : Host.Outcome State Fault Refusal := vectorRow s g.val q.val (· == 0x09)
/-- FSQRT (R572). -/
def execFsqrt (g : Fin 256) (q : Fin 4) (s : State) : Host.Outcome State Fault Refusal := vectorRow s g.val q.val (· == 0x0A)
/-- VRECIP (R572). -/
def execVrecip (g : Fin 256) (q : Fin 4) (s : State) : Host.Outcome State Fault Refusal := vectorRow s g.val q.val (· == 0x0B)
/-- VRSQRT (R572). -/
def execVrsqrt (g : Fin 256) (q : Fin 4) (s : State) : Host.Outcome State Fault Refusal := vectorRow s g.val q.val (· == 0x0C)
/-- VEXP (R572). -/
def execVexp (g : Fin 256) (q : Fin 4) (s : State) : Host.Outcome State Fault Refusal := vectorRow s g.val q.val (· == 0x0D)
/-- VLOG (R572). -/
def execVlog (g : Fin 256) (q : Fin 4) (s : State) : Host.Outcome State Fault Refusal := vectorRow s g.val q.val (· == 0x0E)
/-- SCALE (R572). -/
def execScale (g : Fin 256) (q : Fin 4) (s : State) : Host.Outcome State Fault Refusal := vectorRow s g.val q.val (· == 0x10)
/-- COPY (R572). -/
def execCopy (g : Fin 256) (q : Fin 4) (s : State) : Host.Outcome State Fault Refusal := vectorRow s g.val q.val (· == 0x11)
/-- SUM_REDUCTION (R271). -/
def execSumReduction (g : Fin 256) (q : Fin 4) (s : State) : Host.Outcome State Fault Refusal := vectorRow s g.val q.val (· == 0x20)
/-- MAX_REDUCTION (R271). -/
def execMaxReduction (g : Fin 256) (q : Fin 4) (s : State) : Host.Outcome State Fault Refusal := vectorRow s g.val q.val (· == 0x21)
/-- RMS_NORM (R272). -/
def execRmsNorm (g : Fin 256) (q : Fin 4) (s : State) : Host.Outcome State Fault Refusal := vectorRow s g.val q.val (· == 0x30)
/-- LAYER_NORM (R272). -/
def execLayerNorm (g : Fin 256) (q : Fin 4) (s : State) : Host.Outcome State Fault Refusal := vectorRow s g.val q.val (· == 0x31)
/-- DROPOUT (R273). -/
def execDropout (g : Fin 256) (q : Fin 4) (s : State) : Host.Outcome State Fault Refusal := vectorRow s g.val q.val (· == 0x40)
/-- ACTIVATION_FUNCTION (R572). -/
def execActivationFunction (g : Fin 256) (q : Fin 4) (s : State) : Host.Outcome State Fault Refusal :=
  vectorRow s g.val q.val (fun c => decide (0x100 ≤ c) && decide (c ≤ 0x1FF))

end Sys2Proof.Machine
end

