-- ==== Sys2Proof/Machine/Attention.lean ====
section
/-! DEFINITION. ATTENTION (R274-R276) and SKETCH (R172-R175): their operands come through mover 0 and their results leave through
mover 1 (notes/assumptions/41). -/

namespace Sys2Proof.Machine

/-- The range exponent of one side of a command's layer: that of the first valid statistics entry with the layer's number and the
side, at the step start; where there is none, a free value of the layer and the side (R93, R172, R198, R209; notes/assumptions/42). -/
def layerExp (s : State) (g : Nat) (b : List Byte) (side : Nat) : Int :=
  let exps := (snapOf s g).exps
  let hit := (List.range exps.length).find? (fun i =>
    match censusEntry s g i with
    | .ok e => leAt e 5 1 % 2 == 1 && leAt e 5 1 / 4 % 2 == 0 && leAt e 5 1 / 8 % 4 == side && leAt e 0 5 / 2 ^ 20 == cmdTag b / 2 ^ 20
    | .error _ => false)
  match hit with
  | some i => exps.getD i 0
  | none => sext 8 (Config.layerExp (cmdTag b / 2 ^ 20) side).toNat

/-- Whether every transfer of a command has ended. -/
def jobsOver (s : State) (g : Nat) (c : Begun) : Bool :=
  [0, 1].all (fun m => (moverJobs s (galPage g) m).all (fun j => !(j.queue == c.queue && j.index == c.index)))

/-- A score of a query row and whether its key is masked (R275). -/
structure Score where
  value : Nat
  masked : Bool
  deriving DecidableEq, Repr

/-- The scores of query row i, whose encodings are `q`: array outputs, scaled and masked (R275). A layer with LR_RANK not 0 corrects no
score, for the command carries no U and V (DESIGN CHOICE, notes/assumptions/145); a steep layer's raw scores are free values of its inputs, for the
command names no purpose codes (notes/assumptions/43). -/
def scoreRow (p : Plan) (c : Begun) (d nk : Nat) (q ks : List Nat) (i : Nat) : List Score :=
  let b := c.bytes
  let qv := q.map (fun w => (convert p.fa p.sa p.ea w).1)
  (List.range nk).map (fun (j : Nat) =>
    let masked := leAt b 76 1 % 2 == 1 && decide ((i : Int) + sext 64 (leAt b 64 8) < j)
    let k := (ks.drop (j * d)).take d
    let raw :=
      if p.steep then canonNan (Config.steepScore c.word.toNat p.ea p.ew q k).toNat
      else fullDot p.fa p.fw p.ea p.ew p.reference qv (k.map (fun w => (convert p.fw p.sw p.ew w).1))
    ⟨if masked then ninf32 else fmul raw (leAt b 72 4), masked⟩)

/-- The running values of a query row (R275): maximum, sum and output. -/
structure AttnRow where
  m : Nat
  l : Nat
  o : List Nat
  deriving DecidableEq, Repr

/-- The formats of P and V in the array pass P V (R113, R275): P in BF16, V as stored, with the guard bits of the precision word. -/
def pvFormats (word kf : Nat) : OpFmt × OpFmt := (.flt 0 (bits word 12 3), .flt kf (bits word 8 3))

/-- One KV chunk of a row (R275); `col` gives column d of the chunk's values. A masked key contributes +0; a score of -infinity that is not
masked takes part as any other. -/
def attnChunk (p : Plan) (word kf : Nat) (r : AttnRow) (sc : List Score) (col : Nat → List Nat) : AttnRow :=
  let f := pvFormats word kf
  let mn := fmax r.m (maxReduce (sc.map (·.value)))
  if mn = ninf32 then r
  else
    let a := vexp (fsub r.m mn)
    let ps := sc.map (fun x => if x.masked then 0 else vexp (fsub x.value mn))
    let pv := ps.map (fun x => (convert f.1 0 0 (toStore 0 x).1).1)
    let dot := fun (d : Nat) =>
      fullDot f.1 f.2 0 0 p.reference pv ((sc.zip (col d)).map (fun e => (convert f.2 kf 0 (if e.1.masked then 0 else e.2)).1))
    { m := mn, l := fadd (fmul r.l a) (sumReduce ps), o := r.o.zipIdx.map (fun e => fadd (fmul e.1 a) (dot e.2)) }

/-- The chunks of a row from chunk c on. -/
def attnChunks (fuel : Nat) (p : Plan) (word kf kc nk c : Nat) (sc : List Score) (vs : List Nat) (r : AttnRow) : AttnRow :=
  match fuel with
  | 0 => r
  | n + 1 =>
    if nk ≤ c * kc then r
    else
      let part := (sc.drop (c * kc)).take kc
      let col := fun (d : Nat) => (List.range part.length).map (fun j => vs.getD (d * nk + c * kc + j) 0)
      attnChunks n p word kf kc nk (c + 1) sc vs (attnChunk p word kf r part col)

/-- The output row and lse of a query row (R275). -/
def attnRow (p : Plan) (word kf kc nk dv : Nat) (sc : List Score) (vs : List Nat) : List Nat × Nat :=
  let r := attnChunks (nk / kc + 1) p word kf kc nk 0 sc vs ⟨ninf32, 0, List.replicate dv 0⟩
  if isZero32 r.l then (List.replicate dv 0, ninf32)
  else
    let x := vrecip r.l
    (r.o.map (fun v => fmul v x), fadd r.m (vlog r.l))

/-- The descriptors of an ATTENTION command: Q, K, V, output, lse. -/
def attnDesc (s : State) (g : Nat) (b : List Byte) (i : Nat) : Transfer := descAt s g (leAt b (32 + 6 * i) 6)

/-- Results given slot by slot to the caddy of a store descriptor, then the next stage; the transfers end by themselves. -/
def giveStage (s : State) (g : Nat) (c : Begun) (caddy size : Nat) (next : Begun) (left : List Nat → Begun) (out : List Nat) : State :=
  match giveElements s (galPage g) caddy size (out.length + 1) (c.queue, c.index) out with
  | (s1, []) => begunPut s1 g next
  | (s1, l) => begunPut s1 g (left l)

/-- Operands of an ATTENTION command taken from the caddy of descriptor i, as the array's consumer (R232, R325). -/
def takeAttn (s : State) (g : Nat) (c : Begun) (i : Nat) (buf : List Nat) : State × List Nat × Option Nat :=
  let d := attnDesc s g c.bytes i
  let n := transferCount d
  takeOperands s g (streamBays s g c.queue) d.caddy (n + 1) n buf

/-- Q, K and V of an ATTENTION command as far as they have arrived, Q before K before V; the address of an operand that is uncorrectable. -/
def absorbAttn (s : State) (g : Nat) (c : Begun) : State × Begun × Option Nat :=
  let full := fun (i : Nat) (l : List Nat) => decide (transferCount (attnDesc s g c.bytes i) ≤ l.length)
  match takeAttn s g c 0 c.bufA with
  | (s1, q, some a) => (s1, { c with bufA := q }, some a)
  | (s1, q, none) =>
    if full 0 q = false then (s1, { c with bufA := q }, none)
    else
      match takeAttn s1 g c 1 c.bufW with
      | (s2, k, some a) => (s2, { c with bufA := q, bufW := k }, some a)
      | (s2, k, none) =>
        if full 1 k = false then (s2, { c with bufA := q, bufW := k }, none)
        else
          match takeAttn s2 g c 2 c.bufC with
          | (s3, v, e) => (s3, { c with bufA := q, bufW := k, bufC := v }, e)

/-- The output rows and lse values of an ATTENTION command whose operands are there (R275). -/
def attnResults (s : State) (g : Nat) (c : Begun) : List (List Nat × Nat) :=
  let b := c.bytes
  let d := fun i => attnDesc s g b i
  let p := { planOf (bayMode s g) c with sa := leAt b 76 1 / 2 % 2, sw := leAt b 76 1 / 2 % 2 }
  let kf := leAt b 76 1 / 4 % 2
  let nk := leAt b 80 8
  let dim := kCount (d 0)
  (List.range (mCount (d 0))).map (fun i =>
    attnRow p c.word.toNat kf (leAt b 62 2) nk (mCount (d 2)) (scoreRow p c dim nk ((c.bufA.drop (i * dim)).take dim) c.bufW i) c.bufC)

/-- The array part of an ATTENTION command (R275, R325): operands, then its results. It holds its stream; uncorrectable operands and residue
mismatches are faults of its bay (R142), and a result whose check outside the array fails is an uncorrectable word (R443). The output is
in V's format (DESIGN CHOICE, notes/assumptions/144). -/
def attnCompute (s0 : State) (g : Nat) (c0 : Begun) (check : Residue) (fails : Option Nat) : State :=
  let b := streamBay s0 g c0.queue
  let kf := leAt c0.bytes 76 1 / 4 % 2
  let (s, c) := vectorBegins (if c0.loaded = 0 then beginRun s0 (arrPage g) 16 b (cmdTag c0.bytes) else s0) g c0
  match absorbAttn s g c with
  | (s1, c1, some a) =>
    let at_ := faultPlace s1 g b 0 0
    bayFault (begunPut s1 g c1) g at_.1 2 ⟨none, at_.2, faultParity s1 g b false, a, true, 0⟩ (cmdTag c.bytes) none
  | (s1, c1, none) =>
    let s2 := begunPut s1 g c1
    if c1.bufC.length < transferCount (attnDesc s g c.bytes 2) then s2
    else
      match check with
      | .mismatch row column => residueFault s2 g b ⟨c.queue, c.index, 0, 0, faultParity s2 g b false, 0⟩ row column
      | .agree =>
        let rows := attnResults s2 g c1
        let out := rows.flatMap (fun r => r.1.map (fun x => (toStore kf x).1))
        match fails.filter (fun e => decide (e < out.length)) with
        | some e => failData s2 g c1 (outPlace s2 (galPage g) (attnDesc s2 g c.bytes 3).caddy 2 e)
        | none => begunPut s2 g { c1 with hops := 1, bufA := out, bufW := rows.map (·.2), bufC := [] }

/-- The progress of an ATTENTION command (R274, R275): operands, results, outputs; over when its transfers are. -/
def runAttention (s : State) (g : Nat) (c : Begun) (check : Residue) (fails : Option Nat) : State :=
  let d := fun i => attnDesc s g c.bytes i
  if vectorTurn s g c = false then s
  else
    match c.hops with
    | 0 => attnCompute s g c check fails
    | 1 => giveStage s g c (d 3).caddy 2 { c with hops := 2, bufA := [] } (fun l => { c with bufA := l }) c.bufA
    | 2 => giveStage s g c (d 4).caddy 4 { c with hops := 3, bufW := [] } (fun l => { c with bufW := l }) c.bufW
    | _ => if jobsOver s g c then endBegun s g c.queue c.index cDONE 0 else s

/-- Order 8 of R315 for an ATTENTION command (R235, R274; notes/assumptions/43). -/
def checkAttention (s : State) (g : Nat) (b : List Byte) : Check :=
  let no := fun (bad : Bool) (byte : Nat) => if bad then Check.refuse cREFDESC 0x81 byte else .pass
  let desc := fun (i : Nat) => checkDesc s g (if i < 3 then 0 else 1) (leAt b (32 + 6 * i) 6) (32 + 6 * i)
  let bad := fun (i : Nat) => match desc i with | .error c => c | .ok _ => .pass
  let shape := fun (i k m dir esize : Nat) =>
    match desc i with
    | .error c => c
    | .ok t => no (kCount t != k || mCount t != m || t.dir != dir || t.esize != esize) 0xFF
  let total := fun (i n esize : Nat) =>
    match desc i with
    | .error c => c
    | .ok t => no (transferCount t != n || t.dir != 1 || t.esize != esize) 0xFF
  let q := attnDesc s g b 0
  let v := attnDesc s g b 2
  let kc := leAt b 62 2
  firstFail ((List.range 5).map bad ++
    [no (kc % 64 != 0 || decide (kc < 64) || decide (4096 < kc)) 62, no (leAt b 80 8 == 0 || decide (2 ^ 48 < leAt b 80 8)) 80,
     shape 0 (kCount q) (mCount q) 0 0, shape 1 (kCount q) (leAt b 80 8) 0 0, shape 2 (leAt b 80 8) (mCount v) 0 0,
     total 3 (mCount q * mCount v) 0, total 4 (mCount q) 1])

/-- An ATTENTION command that has passed its checks. -/
def startAttention (s : State) (g q index : Nat) (b : List Byte) : State :=
  let c := begunOf q index b (layerWord s g b) (layerExp s g b 2) (layerExp s g b 1) .running
  giveTransfers (addBegun s g c) g c

/-- One element of a sketch (R174): the weights of row k, their dequantised values, and the bits of Ω for column j. -/
def sketchElem (ws ds : List Nat) (omega : Nat → Bool) : Nat :=
  ((ws.zip ds).zipIdx).foldl (fun acc e =>
    let r := fsub e.1.1 e.1.2
    if omega e.2 then fsub acc r else fadd acc r) 0

/-- The dequantised value of a weight (R174). -/
def dequantised (f : OpFmt) (k : Nat) (e : Int) (w : Nat) : Nat :=
  match operandOf f k e w with
  | (.fin n m u, _) => packRne fp32 (.fin (n && m != 0) m u)
  | _ => 0

/-- The sketch Y, row-major (R172-R174), of weights in traversal order: element (k, n) at n K + k. -/
def sketchOf (key : Quad) (f : OpFmt) (st : Nat) (e : Int) (kk nn cols tensor step : Nat) (w : List Nat) : List Nat :=
  (List.range kk).flatMap (fun k =>
    let row := (List.range nn).map (fun n => w.getD (n * kk + k) 0)
    let ws := row.map (fromStore st)
    let ds := row.map (dequantised f st e)
    (List.range cols).map (fun j => sketchElem ws ds (fun m => drawBit key 0x32 tensor step (m * cols + j))))

/-- The progress of a SKETCH command (R172-R175). -/
def runSketch (s0 : State) (g : Nat) (c0 : Begun) (fails : Option Nat) : State :=
  let pg := galPage g
  let b := c0.bytes
  let d := descAt s0 g (leAt b 32 6)
  let y := descAt s0 g (leAt b 38 6)
  if vectorTurn s0 g c0 = false then s0
  else
    let (s, c) := vectorBegins s0 g c0
    match c.hops with
    | 0 =>
      let t := takeElements s pg d.caddy 1 false (transferCount d + 1) (transferCount d) c.bufA []
      let w := t.buf
      match t.bad with
      | some a => failData (begunPut t.state g { c with bufA := w }) g c a
      | none =>
        if w.length < transferCount d then begunPut t.state g { c with bufA := w }
        else
          let out := sketchOf (keyFor s g) (weightFmt c.word.toNat) (leAt b 49 1 % 2) c.expW (kCount d) (mCount d) (leAt b 44 2)
            (leAt b 46 3) (cmdStep b) w
          match fails.filter (fun e => decide (e < out.length)) with
          | some e => failData (begunPut t.state g { c with bufA := w }) g c (outPlace t.state pg y.caddy 4 e)
          | none => begunPut t.state g { c with hops := 1, bufA := out }
    | 1 => giveStage s g c y.caddy 4 { c with hops := 2, bufA := [] } (fun l => { c with bufA := l }) c.bufA
    | _ => if jobsOver s g c then endBegun s g c.queue c.index cDONE 0 else s

/-- Orders 7 and 8 of R315 for a SKETCH command (R172, R235). -/
def checkSketch (s : State) (g : Nat) (b : List Byte) : Check :=
  let no := fun (bad : Bool) (byte : Nat) => if bad then Check.refuse cREFDESC 0x81 byte else .pass
  let wf := pwWfmt (layerWord s g b)
  let n := leAt b 44 2
  let desc := fun (va byte m dir esize : Nat) =>
    match checkDesc s g m va byte with
    | .error c => c
    | .ok t => no (t.dir != dir || t.esize != esize) 0xFF
  firstFail [no (wf == 0 || decide (7 < wf)) 2, no (n % 8 != 0 || decide (n < 8) || decide (256 < n)) 44,
    desc (leAt b 32 6) 32 0 0 0, desc (leAt b 38 6) 38 1 1 1]

/-- A SKETCH command that has passed its checks. -/
def startSketch (s : State) (g q index : Nat) (b : List Byte) : State :=
  let c := begunOf q index b (layerWord s g b) 0 (layerExp s g b 1) .running
  giveDescs (giveDescs (addBegun s g c) g 0 c [leAt b 32 6]) g 1 c [leAt b 38 6]

/-- ATTENTION (R275). -/
def execAttention (g : Fin 256) (q : Fin 4) (s : State) : Host.Outcome State Fault Refusal :=
  .next (alive s (fun t => acceptRow t g.val q.val (fun b => cmdOp b == 4 || reservedOp b)
    (fun u _ b => firstFail [checkLayer u g.val b, checkAttention u g.val b])
    (fun u i b => startAttention u g.val q.val i b)))
/-- SKETCH (R172). -/
def execSketch (g : Fin 256) (q : Fin 4) (s : State) : Host.Outcome State Fault Refusal :=
  .next (alive s (fun t => acceptRow t g.val q.val (fun b => cmdOp b == 6 || reservedOp b)
    (fun u _ b => firstFail [checkLayer u g.val b, checkSketch u g.val b])
    (fun u i b => startSketch u g.val q.val i b)))

end Sys2Proof.Machine
end

