-- ==== Sys2Proof/Machine/Census.lean ====
section
/-! DEFINITION. The census table through a step (R197-R209) and the Appraiser (R215-R221): the finite flag, what a commit and a skip
do to every entry, range exponents, votes and width changes. -/

namespace Sys2Proof.Machine

/-- The address of entry i of a gallery's census table. -/
def entryAt (s : State) (g i : Nat) : Nat := rd s (cenPage g) fCENBASE + 256 * i

/-- Bytes of a list replaced from an offset. -/
def putAt (l : List Byte) (off : Nat) (x : List Byte) : List Byte := l.take off ++ x ++ l.drop (off + x.length)

/-- Whether an entry is a shadow entry (R198). -/
def isShadow (e : List Byte) : Bool := leAt e 5 1 / 4 % 2 == 1
/-- Whether an entry is valid. -/
def isValidEntry (e : List Byte) : Bool := leAt e 5 1 % 2 == 1
/-- Bytes of a working record of an entry (R199, R200). -/
def recordSize (e : List Byte) : Nat := if isShadow e then 68 else 40
/-- The working record of step n. -/
def workingOf (e : List Byte) (n : Nat) : List Byte := (e.drop (16 + recordSize e * (n % 2))).take (recordSize e)
/-- The committed record C. -/
def committedOf (e : List Byte) : List Byte := (e.drop (16 + 2 * recordSize e)).take (recordSize e)

/-- The range exponent of R209, for the maxima in force. -/
def rangeExponent (e : List Byte) (head count d m : Nat) (prev : Int) : Int :=
  let n := min count d
  let mbits := (List.range n).foldl (fun z i => max z (leAt e (136 + 4 * ((head + 16 - i) % 16)) 4)) 0
  if mbits = 0 then prev
  else
    let x : Int := (mbits / 2 ^ 23 % 256 : Nat) - 127
    let p := (mbits % 2 ^ 23 + 2 ^ 23) * (128 + m)
    max (-126) (min 127 ((blen (p - 1) : Int) + x - 30))

/-- An entry after the commit of step n (R207). -/
def entryCommitted (cfg n : Nat) (e : List Byte) : List Byte :=
  let z := recordSize e
  let w := workingOf e n
  let e1 := putAt (putAt e (16 + 2 * z) w) (16 + z * (n % 2)) (List.replicate z 0)
  if isShadow e then putAt e1 220 (leBytes 4 n)
  else
    let some_ := leAt w 0 8 != 0
    let head := if some_ then (leAt e 7 1 + 1) % 16 else leAt e 7 1
    let count := if some_ then min 16 (leAt e 8 1 + 1) else leAt e 8 1
    let e2 := if some_ then putAt e1 (136 + 4 * head) ((w.drop 32).take 4) else e1
    let x := rangeExponent e2 head count (bits cfg 8 4 + 1) (bits cfg 12 8) (sext 8 (leAt e 6 1))
    putAt e2 6 (leBytes 1 (toField 8 x) ++ leBytes 1 head ++ leBytes 1 count)

/-- The failure of an access to a structure at a virtual address: uncorrectable data is named by the structure's own address (R208). -/
def namedError (s : State) (p va : Nat) (e : Nat × AccErr) : Nat × AccErr :=
  match e.2 with
  | .data _ => match physOf s p va false with | .ok a => (va, .data a) | .error _ => e
  | _ => e

/-- What a failed arithmetic check makes of the structure at a virtual address: an uncorrectable word (R443). -/
def failedWord (s : State) (p va : Nat) : Nat × AccErr :=
  match physOf s p va true with | .ok a => (va, .data a) | .error e => (va, e)

/-- One entry of the lead gallery's table rewritten if it is valid; the reason when it cannot be read or written, or when its arithmetic
fails its check (R443). -/
def rewriteEntry (s : State) (p g i : Nat) (f : List Byte → List Byte) (fails : Option Nat) : State × Option (Nat × AccErr) :=
  let a := entryAt s g i
  match vfetch s p a 256 with
  | .error e => (s, some (namedError s p a e))
  | .ok (s1, b) =>
    if isValidEntry b = false then (s1, none)
    else if fails = some i then (s1, some (failedWord s1 p a))
    else match vstore s1 p a (f b) with | (s2, e) => (s2, e.map (namedError s2 p a))

/-- Entries rewritten in table order until one fails. -/
def rewriteEntries (s : State) (p g : Nat) (f : List Byte → List Byte) (fails : Option Nat) (is : List Nat) :
    State × Option (Nat × AccErr) :=
  match is with
  | [] => (s, none)
  | i :: r => match rewriteEntry s p g i f fails with | (s1, none) => rewriteEntries s1 p g f fails r | x => x

/-- CEN_CFG of a gallery. -/
def cenCfg (s : State) (g : Nat) : Nat := regGet s (cenPage g * 4096 + 0x100)

/-- R207 at the commit of step n: nothing where the lead gallery's CEN_EN is 0 (R205). -/
def censusCommit (s : State) (p g n : Nat) (fails : Option Nat) : State × Option (Nat × AccErr) :=
  if rd s (cenPage g) fCENEN = 0 then (s, none)
  else rewriteEntries s p g (entryCommitted (cenCfg s g) n) fails (List.range (rd s (cenPage g) fCENCOUNT))

/-- Bytes [lo, hi) of a structure as the parts that lie in its granules. -/
def granuleParts (lo hi : Nat) : List (Nat × Nat) :=
  ((List.range (hi / 32 + 1)).map (fun k => (max lo (32 * k), min hi (32 * k + 32)))).filter (fun r => decide (r.1 < r.2))

/-- W of an entry cleared granule by granule, the entry valid or not: what cannot be read or written stays as it is and is recorded on
the census page (R207, R208). -/
def skipEntry (s : State) (p g n i : Nat) : State :=
  let a := entryAt s g i
  let note := fun (t : State) (e : Nat × AccErr) => recordAccess t (cenPage g) (some p) (namedError t p a e).1 (namedError t p a e).2
  match vfetch s p a 16 with
  | .error e => note s e
  | .ok (s1, b) =>
    let z := recordSize b
    (granuleParts (16 + z * (n % 2)) (16 + z * (n % 2) + z)).foldl (fun t r =>
      match vstore t p (a + r.1) (List.replicate (r.2 - r.1) 0) with
      | (t1, none) => t1
      | (t1, some e) => note t1 e) s1

/-- R207 at a skipped commit; the skip completes whatever an entry holds (R208). -/
def censusSkip (s : State) (p g n : Nat) : State :=
  if rd s (cenPage g) fCENEN = 0 then s
  else (List.range (rd s (cenPage g) fCENCOUNT)).foldl (fun t i => skipEntry t p g n i) s

/-- The valid entries of the lead gallery's table, with their indices; the reason of the first that cannot be read. -/
def readEntries (s : State) (p g : Nat) (is : List Nat) : Except (Nat × AccErr) (List (Nat × List Byte)) :=
  match is with
  | [] => .ok []
  | i :: r =>
    match vload s p (entryAt s g i) 256 with
    | .error e => .error (namedError s p (entryAt s g i) e)
    | .ok b =>
      match readEntries s p g r with
      | .error e => .error e
      | .ok l => .ok (if isValidEntry b then (i, b) :: l else l)

/-- Every valid entry of the table that the lead gallery's CEN_EN governs (R205). -/
def allEntries (s : State) (p g : Nat) : Except (Nat × AccErr) (List (Nat × List Byte)) :=
  if rd s (cenPage g) fCENEN = 0 then .ok [] else readEntries s p g (List.range (rd s (cenPage g) fCENCOUNT))

/-- The module's finite flag of step n over its entries (R205). -/
def finiteFlag (n : Nat) (es : List (Nat × List Byte)) : Bool :=
  es.all (fun e => isShadow e.2 || leAt e.2 5 1 / 2 % 2 == 0 || leAt (workingOf e.2 n) 24 8 == 0)

/-- APR_STATE_BASE (R223). -/
def fAPRSTATE : FRef := ⟨0x110, 0, 48⟩
/-- APR_LOG.BASE. -/
def fAPRLOG : FRef := ⟨0x118, 0, 48⟩
/-- APR_LOG.LOG2_SIZE. -/
def fAPRLOG2 : FRef := ⟨0x118, 48, 5⟩
/-- APR_LOG_SEQ. -/
def fAPRSEQ : FRef := ⟨0x120, 0, 32⟩
/-- CEN_CFG.APR_EN. -/
def fAPREN : FRef := ⟨0x100, 2, 1⟩

/-- The sums a layer's side is appraised on (R216): ELEMENTS, ZEROS, SATS, NONFINITE. -/
def sideSums (es : List (Nat × List Byte)) (layer side : Nat) : List Nat :=
  let mine := es.filter (fun e => !isShadow e.2 && leAt e.2 0 5 / 2 ^ 20 == layer && leAt e.2 5 1 / 8 % 4 == side)
  [0, 8, 16, 24].map (fun o => mine.foldl (fun n e => n + leAt (committedOf e.2) o 8) 0)

/-- cmp and dis of a layer (R216). -/
def shadowSums (es : List (Nat × List Byte)) (layer bin : Nat) : Nat × Nat :=
  let cs := (es.filter (fun e => isShadow e.2 && leAt e.2 0 5 / 2 ^ 20 == layer)).map (fun e => committedOf e.2)
  let sum := fun (lo : Nat) => cs.foldl (fun n c => n + ((List.range 17).filter (lo ≤ ·)).foldl (fun m i => m + leAt c (4 * i) 4) 0) 0
  (sum 0, sum bin)

/-- A vote and its reason bit (R217, R221). -/
def vote (up dn : Nat) (n z sat nf cmp dis : Nat) : Int × Nat :=
  if n = 0 ∨ 0 < nf then (0, 0)
  else if n * bits up 0 16 < sat * 65536 then (1, 1)
  else if n * bits up 16 16 < z * 65536 then (1, 2)
  else if cmp * bits up 32 16 < dis * 65536 then (1, 4)
  else if sat * 65536 ≤ n * bits dn 0 16 ∧ z * 65536 ≤ n * bits dn 16 16 ∧ dis * 65536 ≤ cmp * bits dn 32 16 then (-1, 8)
  else (0, 0)

/-- appraise of R217: the format, direction and run after a vote. -/
def appraise (fmt lo hi step : Nat) (v dir : Int) (run : Nat) : Nat × Int × Nat :=
  if v = 0 then (fmt, 0, 0)
  else
    let run1 := if v = dir then (run + 1) % 256 else 1
    if run1 < 4 then (fmt, v, run1)
    else ((min (hi : Int) (max (lo : Int) ((fmt : Int) + v * step))).toNat, 0, 0)

/-- A share of 65,536, at most 0xFFFF (R221). -/
def shareOf (x n : Nat) : Nat := if n = 0 then 0 else min (x * 65536 / n) 0xFFFF

/-- What the Appraiser decides for one layer (R216-R218, R221): the new formats, the state word, and the log record but for its
OUTCOME and SEQ. -/
structure Appraisal where
  wfmt : Nat
  afmt : Nat
  word : Nat
  reasons : Nat × Nat
  shares : List Nat
  deriving DecidableEq, Repr

/-- The widest WFMT the Appraiser may write: W_MAX, or INT4 where the layer has a correction, whose rule 6 of R159 would otherwise make
the word inconsistent (R161; DEDUCED, notes/assumptions/151). -/
def widestW (pw : Nat) : Nat := if pwRank pw = 0 then bits pw 28 4 else min (bits pw 28 4) 2

/-- The appraisal of a layer from its snapshot word, its state word and the committed records. -/
def appraiseLayer (es : List (Nat × List Byte)) (layer pw st up dn bin step : Nat) : Appraisal :=
  let wInt := decide (1 ≤ pwWfmt pw ∧ pwWfmt pw ≤ 6)
  let aInt := decide (2 ≤ pwAfmt pw ∧ pwAfmt pw ≤ 12)
  let w := sideSums es layer 1
  let a := sideSums es layer 2
  let sh := shadowSums es layer bin
  let v := fun (l : List Nat) => vote up dn (l.getD 0 0) (l.getD 1 0) (l.getD 2 0) (l.getD 3 0) sh.1 sh.2
  let vw := v w
  let va := v a
  let rw_ := if wInt then appraise (pwWfmt pw) (bits pw 24 4) (widestW pw) 1 vw.1 (sext 8 (bits st 0 8)) (bits st 8 8) else (pwWfmt pw, 0, 0)
  let ra := if aInt then appraise (pwAfmt pw) (bits pw 32 4) (bits pw 36 4) 2 va.1 (sext 8 (bits st 16 8)) (bits st 24 8) else (pwAfmt pw, 0, 0)
  { wfmt := rw_.1, afmt := ra.1
    word := toField 8 rw_.2.1 + rw_.2.2 * 2 ^ 8 + toField 8 ra.2.1 * 2 ^ 16 + ra.2.2 * 2 ^ 24 + step * 2 ^ 32
    reasons := (if rw_.1 = pwWfmt pw then 0 else vw.2, if ra.1 = pwAfmt pw then 0 else va.2)
    shares := [shareOf (w.getD 2 0) (w.getD 0 0), shareOf (w.getD 1 0) (w.getD 0 0), shareOf (a.getD 2 0) (a.getD 0 0),
      shareOf (a.getD 1 0) (a.getD 0 0), shareOf sh.2 sh.1] }

/-- A log record written by the lead gallery (R221); one that cannot be written is lost (R571). -/
def appraiserLog (s : State) (p g step layer pw outcome : Nat) (a : Appraisal) : State :=
  let pg := cenPage g
  let seq := rd s pg fAPRSEQ
  let b := leBytes 4 step ++ leBytes 3 layer ++ leBytes 1 outcome ++ leBytes 1 (pw % 256) ++ leBytes 1 (a.wfmt + 16 * a.afmt) ++
    leBytes 1 a.reasons.1 ++ leBytes 1 a.reasons.2 ++ leBytes 4 seq ++ a.shares.flatMap (leBytes 2) ++ leBytes 6 0
  let s1 := wr s pg fAPRSEQ ((seq + 1) % 2 ^ 32)
  match vstore s1 p (rd s pg fAPRLOG + seq % 2 ^ rd s pg fAPRLOG2 * 32) b with
  | (s2, none) => s2
  | (s2, some (va, e)) => recordAccess s2 pg (some p) va e

/-- The proposal of a layer at catalogue place i carried out (R161, R219), and the state word to store. The word compared is at GC_CAT.BASE
as it stands at the commit: R313 fixes only COUNT over the step (DESIGN CHOICE, notes/assumptions/149). Where it cannot be read or
written, for which R571 has no row, the error is recorded, no log record is written, and the state word is that of a width that
has moved (DESIGN CHOICE, notes/assumptions/150). -/
def propose (s : State) (p g i step layer pw : Nat) (a : Appraisal) : State × Nat :=
  let pg := cenPage g
  let at_ := rd s (galPage g) fCATBASE + 16 * i + 8
  let new := setBits (setBits pw 0 4 a.wfmt) 4 4 a.afmt
  match vload s p at_ 8 with
  | .error (va, e) => (recordAccess s pg (some p) va e, a.word)
  | .ok b =>
    if leNat b = pw then
      match vstore s p at_ (leBytes 8 new) with
      | (s1, some (va, e)) => (recordAccess s1 pg (some p) va e, a.word)
      | (s1, none) => (appraiserLog (tally (raise s1 pg 11) pg 5 1) p g step layer pw 1 a, a.word)
    else (appraiserLog (tally (raise s pg 10) pg 6 1) p g step layer pw 2 a, step * 2 ^ 32)

/-- The Appraiser on one layer of the snapshot (R216, R218, R219); `fails`: the catalogue place whose arithmetic fails its check (R443). -/
def appraiseOne (s : State) (p g step : Nat) (es : List (Nat × List Byte)) (edge : Nat × Nat) (fails : Option Nat) (i : Nat) (d : List Byte) :
    State × Option (Nat × AccErr) :=
  let layer := leAt d 0 4 % 2 ^ 20
  let pw := leAt d 8 8
  let pinned := bit pw 23 || ((layer == edge.1 || layer == edge.2) && !bit pw 44)
  let ints := decide (1 ≤ pwWfmt pw ∧ pwWfmt pw ≤ 6) || decide (2 ≤ pwAfmt pw ∧ pwAfmt pw ≤ 12)
  if bit (leAt d 0 4) 31 = false ∨ pinned = true ∨ ints = false then (s, none)
  else
    let at_ := rd s (cenPage g) fAPRSTATE + 8 * i
    match vload s p at_ 8 with
    | .error e => (s, some (namedError s p at_ e))
    | .ok b =>
      if fails = some i then (s, some (failedWord s p at_))
      else
      let sn := snapOf s g
      let a := appraiseLayer es layer pw (leNat b) sn.thrUp.toNat sn.thrDn.toNat (rd s (cenPage g) ⟨0x100, 20, 4⟩) step
      match (if a.wfmt = pwWfmt pw ∧ a.afmt = pwAfmt pw then (s, a.word) else propose s p g i step layer pw a) with
      | (s1, w) => vstore s1 p at_ (leBytes 8 w)

/-- The Appraiser over layers in catalogue order until a state word fails. -/
def appraiseAll (s : State) (p g step : Nat) (es : List (Nat × List Byte)) (edge : Nat × Nat) (fails : Option Nat) (ds : List (Nat × List Byte)) :
    State × Option (Nat × AccErr) :=
  match ds with
  | [] => (s, none)
  | d :: r => match appraiseOne s p g step es edge fails d.1 d.2 with | (s1, none) => appraiseAll s1 p g step es edge fails r | x => x

/-- The Appraiser at the commit of step n (R215, R216). -/
def runAppraiser (s : State) (p g n : Nat) (fails : Option Nat) : State × Option (Nat × AccErr) :=
  if rd s (cenPage g) fAPREN = 0 ∨ (partGet s p).stp.snapOk = false then (s, none)
  else
    match allEntries s p g, vload s p (rd s (galPage g) fSNAPBASE) (16 * rd s (galPage g) fSNAPCOUNT) with
    | .error e, _ => (s, some e)
    | _, .error (va, e) => (recordAccess s (galPage g) (some p) va e, none)
    | .ok es, .ok b =>
      let ds := (groupsOf (b.length / 16 + 1) 16 b).zipIdx.map (fun d => (d.2, d.1))
      let layers := (ds.filter (fun d => bit (leAt d.2 0 4) 31)).map (fun d => leAt d.2 0 4 % 2 ^ 20)
      appraiseAll s p g n es (layers.foldl min (layers.headD 0), layers.foldl max 0) fails ds

end Sys2Proof.Machine
end

