-- ==== Sys2Proof/Machine/Commit.lean ====
section
/-! DEFINITION. The commit (R277-R293) and the end of a step (R160, R205, R286, R287, R320-R322): the descriptors, the update of one
element, the groups and their faults, the step record, the boundary and the skip. -/

namespace Sys2Proof.Machine

/-- The step a partition is in on this module (R320). -/
def stepNow (s : State) (p : Nat) : Nat :=
  match leadOf s p with
  | some g => rd s (galPage g) fSTEP
  | none => rd s rootPage (fPSTEP p)

/-- The commit descriptor of a COMMIT, kept behind its bytes with its optimizer descriptors (R278, R571). -/
def commitDesc (b : List Byte) : List Byte := (b.drop 128).take 32
/-- Optimizer descriptor i of a COMMIT (R279). -/
def optDesc (b : List Byte) (i : Nat) : List Byte := (b.drop (160 + 64 * i)).take 64
/-- OPT_COUNT of a commit descriptor. -/
def optCount (b : List Byte) : Nat := leAt (commitDesc b) 6 2

/-- The rules of R278 that a commit descriptor must keep. -/
def commitDescOk (d : List Byte) : Bool :=
  leAt d 0 6 % 64 == 0 && leAt d 6 2 != 0 && leAt d 8 6 % 32 == 0 && leAt d 14 2 == 0 && leAt d 16 6 % 64 == 0 &&
    decide (4 ≤ leAt d 22 1) && decide (leAt d 22 1 ≤ 16) && (firstSet d 23 9).isNone

/-- The rules of R279 that an optimizer descriptor must keep. -/
def optDescOk (d : List Byte) : Bool :=
  let alg := leAt d 0 1
  decide (alg ≤ 2) && decide (leAt d 1 1 ≤ 1) && decide (leAt d 2 1 ≤ 1) && leAt d 3 1 == 0 && (firstSet d 13 3).isNone &&
    (firstSet d 56 8).isNone && decide (1 ≤ leAt d 48 8) && decide (leAt d 48 8 ≤ 2 ^ 40) &&
    (alg != 0 || (leAt d 7 3 == 0 && leAt d 22 6 == 0)) && (alg == 2 || (leAt d 10 3 == 0 && leAt d 28 6 == 0)) &&
    leAt d 16 6 % 2 == 0 && leAt d 22 6 % 2 == 0 && leAt d 28 6 % 2 == 0 && leAt d 34 6 % 4 == 0

/-- The commit descriptor and the optimizer descriptors that a COMMIT of gallery g names, as they stand. -/
def readCommit (s : State) (g : Nat) (b : List Byte) : Except (Nat × AccErr) (List Byte) :=
  let p := (pageOwner s (galPage g)).getD 0
  match vload s p (leAt b 32 6) 32 with
  | .error e => .error e
  | .ok d =>
    match vload s p (leAt d 0 6) (64 * leAt d 6 2) with
    | .error e => .error e
    | .ok os => .ok (d ++ os)

/-- Order 8 of R315 for a COMMIT (R278, R279). -/
def checkCommit (s : State) (g : Nat) (b : List Byte) : Check :=
  let bad := Check.refuse cREFDESC 0x81 0xFF
  if leAt b 32 6 % 32 ≠ 0 then .refuse cREFDESC 0x81 32
  else
    match vload s ((pageOwner s (galPage g)).getD 0) (leAt b 32 6) 32 with
    | .error (va, e) => .unreadable va e
    | .ok d =>
      if commitDescOk d = false then bad
      else
        match readCommit s g b with
        | .error (va, e) => .unreadable va e
        | .ok r => if (List.range (leAt d 6 2)).all (fun i => optDescOk ((r.drop (32 + 64 * i)).take 64)) then .pass else bad

/-- A COMMIT that has passed its checks: accepted, with its descriptors, waiting for its gate (R278, R321). -/
def startCommit (s : State) (g q index : Nat) (b : List Byte) : State :=
  match readCommit s g b with
  | .ok r => addBegun s g (begunOf q index (b ++ r) 0 0 0 .waiting)
  | .error _ => addBegun s g (begunOf q index b 0 0 0 .waiting)

/-- Whether a begun command is an accepted COMMIT of step n that waits for its gate. -/
def isCommit (n : Nat) (c : Begun) : Bool := cmdOp c.bytes == 5 && cmdStep c.bytes == n && c.phase == .waiting

/-- The COMMITs accepted for the current step of a partition: those of the lead gallery first, then by gallery. -/
def commitsOf (s : State) (p : Nat) : List (Nat × Begun) :=
  let gs := (leadOf s p).toList ++ (partGals s p).filter (fun g => leadOf s p != some g)
  gs.flatMap (fun g => ((galGet s (galPage g)).begun.filter (isCommit (stepNow s p))).map (fun c => (g, c)))

/-- The COMMITs of the step completed with a status (R321); those of gallery g with a detail (R316). -/
def endCommits (s : State) (p status g detail : Nat) : State :=
  (commitsOf s p).foldl (fun t e =>
    completeCmd t e.1 e.2.queue e.2.index status 1 (if e.1 = g then detail else 0) e.2.bytes true) s

/-- A commit before its first group. -/
def runNone : CommitRun := ⟨[], 0, 0, 0, 0, [], [], false⟩

/-- A step record (R293), written by the lead gallery into the ring that R280's COMMIT names; one that cannot be written is lost,
and without a COMMIT there is no ring (R571; notes/assumptions/45). TIME is when the gate opened, which decides the step. -/
def stepRecord (s : State) (p outcome : Nat) : State :=
  let x := (partGet s p).stp
  let job := x.job.getD (false, false, 0)
  let run := x.run.getD runNone
  let b := leBytes 4 (stepNow s p) ++ leBytes 1 outcome ++ leBytes 1 (b2n x.lFinite + 2 * b2n x.lComplete) ++
    leBytes 1 (b2n job.1 + 2 * b2n job.2.1) ++ leBytes 1 0 ++ leBytes 4 job.2.2 ++
    leBytes 4 (if outcome = 1 then run.gs.toNat else 0) ++ leBytes 8 run.elements ++ leBytes 8 run.held ++
    leBytes 4 run.corrected ++ leBytes 4 x.skips ++ leBytes 8 x.gateAt ++ leBytes 4 x.seq ++ leBytes 12 0
  match commitsOf s p with
  | [] => s
  | (g, c) :: _ =>
    let d := commitDesc c.bytes
    let s1 := stpPut s p { x with seq := (x.seq + 1) % 2 ^ 32 }
    match vstore s1 p (leAt d 16 6 + x.seq % 2 ^ leAt d 22 1 * 64) b with
    | (s2, none) => s2
    | (s2, some (va, e)) => recordAccess s2 (galPage ((leadOf s p).getD g)) (some p) va e

/-- The commit fails on the module (R291): the reason is already recorded on the failing gallery's control page; EV_VEC_COMMIT_FAILED
there, the step record, the end of the COMMITs, and EV_RES_PEER_LOST (R414). -/
def commitFail (s : State) (p g detail : Nat) : State :=
  let s1 := stepRecord (raise s (galPage g) 18) p 3
  let s2 := stpPut s1 p { (partGet s1 p).stp with dead := true, run := none }
  resCommitFailed (endCommits s2 p cFCOMMIT g detail) p

/-- The commit fails for an access of gallery g (R208, R291, R571). -/
def commitFailAccess (s : State) (p g va : Nat) (e : AccErr) : State :=
  commitFail (recordAccess s (galPage g) (some p) va e) p g 0

/-- FP32 value i of the step scalar block (R280). -/
def scalar (b : List Byte) (i : Nat) : Nat := leAt b (4 * i) 4

/-- The gradient scale (R281). -/
def gradScale (n : Nat) (b : List Byte) : Nat := fmul (recipCount n) (scalar b 7)

/-- update of R281: the new weight and moments. -/
def updateElement (b : List Byte) (gs alg w m1 m2 g : Nat) : Nat × Nat × Nat :=
  let lr := scalar b 0
  let g1 := fmul g gs
  let wd := scalar b 4
  let step := fun (u : Nat) => fsub w (fmul lr (ffma wd w u))
  match alg with
  | 0 => (step g1, m1, m2)
  | 1 => let v := ffma (scalar b 1) m1 g1
         (step v, v, m2)
  | _ =>
    let n1 := ffma (scalar b 1) m1 (fmul (fsub one32 (scalar b 1)) g1)
    let n2 := ffma (scalar b 2) m2 (fmul (fmul (fsub one32 (scalar b 2)) g1) g1)
    let d := fadd (fsqrt (fmul n2 (scalar b 6))) (scalar b 3)
    (step (fmul (fmul n1 (scalar b 5)) (vrecip d)), n1, n2)

/-- Whether a 16-bit value is finite in its storage format. -/
def storeFinite (k w : Nat) : Bool := (unpack (storeFmt k) w).finite

/-- The 16-bit values an element takes (R281, R282), or none where it is held (R283). -/
def newElement (key : Quad) (scal : List Byte) (gs step : Nat) (d : List Byte) (i w m1 m2 g : Nat) : Option (List Nat) :=
  let alg := leAt d 0 1
  let fw := leAt d 1 1
  let fm := leAt d 2 1
  let e := leAt d 40 8 + i
  let r := updateElement scal gs alg (fromStore fw w) (fromStore fm m1) (fromStore fm m2) g
  let draw := fun (tensor : Nat) => drawWord key 1 tensor step e
  let nw := toStoreSr fw r.1 (draw (leAt d 4 3))
  let ms := (if 1 ≤ alg then [toStoreSr fm r.2.1 (draw (leAt d 7 3))] else []) ++
    (if alg = 2 then [toStoreSr fm r.2.2 (draw (leAt d 10 3))] else [])
  if storeFinite fw nw && ms.all (storeFinite fm) then some (nw :: ms) else none

/-- The arrays of a group, as (address, bytes of an element): weights, moments in use, and the gradient last. -/
def groupArrays (d : List Byte) : List (Nat × Nat) :=
  let alg := leAt d 0 1
  [(leAt d 16 6, 2)] ++ (if 1 ≤ alg then [(leAt d 22 6, 2)] else []) ++ (if alg = 2 then [(leAt d 28 6, 2)] else []) ++ [(leAt d 34 6, 4)]

/-- What a read of a commit gives: its bytes, a failure, an access that a STOPPED controller holds (R246), or a page of a peer that is
still to be read (R254): address, length, index in the peer table, page, FAULT_TO. -/
inductive Fetched where
  | got (s : State) (bs : List Byte)
  | bad (va : Nat) (e : AccErr)
  | held
  | ask (va n index rpage : Nat) (cur : Bool)
  deriving DecidableEq, Repr

/-- The pieces of a virtual range read in order, those of peers from what has come. -/
def fetchPieces (s : State) (p : Nat) (got : List (Nat × List Byte)) (ps : List (Nat × Nat)) : Fetched :=
  match ps with
  | [] => .got s []
  | (va, n) :: r =>
    let rest := fun (s1 : State) (bs : List Byte) =>
      match fetchPieces s1 p got r with
      | .got s2 cs => .got s2 (bs ++ cs)
      | x => x
    match translate s p va false with
    | .error e => .bad va e
    | .ok (.peer index rpage cur) =>
      match got.find? (fun g => g.1 == va) with
      | some g => rest s (padTo n (g.2.take n))
      | none => .ask va n index rpage cur
    | .ok (.phys b) =>
      let a := b + va % frameSize
      if stackHeld s a then .held
      else
        match ownerCheck s p a, loadHeal s a n with
        | .error e, _ => .bad va e
        | _, .error d => .bad va (.data d)
        | .ok _, .ok (s1, bs) => rest s1 bs

/-- The arrays of a group read in order: the bytes of each after the other. -/
def fetchArrays (s : State) (p first n : Nat) (got : List (Nat × List Byte)) (as : List (Nat × Nat)) : Fetched :=
  fetchPieces s p got (as.flatMap (fun a => pieces (a.2 * n / frameSize + 2) (a.1 + a.2 * first) (a.2 * n)))

/-- The values of the arrays of a group in what was read. -/
def arrayValues (n : Nat) (as : List (Nat × Nat)) (bs : List Byte) : List (List Nat) :=
  match as with
  | [] => []
  | a :: r => (groupsOf (n + 1) a.2 (bs.take (a.2 * n))).map leNat :: arrayValues n r (bs.drop (a.2 * n))

/-- How an access that the commit cannot make ends (R291, R292): a resumable fault leaves mover m of the gallery in FAULT_WAIT; any
other fails the commit. Reads are mover 0's and writes mover 1's (notes/assumptions/44). -/
def commitFault (s : State) (p g m va : Nat) (e : AccErr) : State :=
  match e with
  | .fault c l1 cur =>
    if c = 6 then
      let s0 := recordErr (putFault s g m 6 (m == 1) false va) (movPage g) 0x80 (some p) va false (m * 2 ^ 8)
      let s1 := recordErr s0 (galPage g) 0x06 (some p) va false (m * 2 ^ 8)
      commitFail s1 p g (m * 2 ^ 8)
    else
      let s1 := tally (wr (putFault s g m c (m == 1) l1 va) (movPage g) (fMSTATE m) 2) (movPage g) (32 + m) 1
      if cur then raiseZero s1 (movPage g) (8 + m) else raise s1 (movPage g) (8 + m)
  | e => commitFailAccess s p g va e

/-- The lane of the wrong result of element k (R289). -/
def faultLane (f : LaneFault) : Nat := if f.half = 0 then f.element.val else 256 + (f.element.val + 128) % 256

/-- The commit under way with its progress replaced. -/
def putRun (s : State) (p : Nat) (r : CommitRun) : State := stpPut s p { (partGet s p).stp with run := some r }

/-- The commit under way changed. -/
def updRun (s : State) (p : Nat) (f : CommitRun → CommitRun) : State :=
  match (partGet s p).stp.run with | some r => putRun s p (f r) | none => s

/-- A COMMIT at the start of its shards. -/
def curNone : CommitCur := ⟨0, 0, [], none, 0, false, .none⟩

/-- How far COMMIT k has come. -/
def curGet (r : CommitRun) (k : Nat) : CommitCur := r.curs.getD k curNone

/-- How far COMMIT k has come, changed. -/
def updCur (s : State) (p k : Nat) (f : CommitCur → CommitCur) : State :=
  updRun s p (fun r => { r with curs := setAt r.curs k (f (curGet r k)) })

/-- The groups of the optimizer descriptors before descriptor i. -/
def groupsBefore (b : List Byte) (i : Nat) : Nat := (List.range i).foldl (fun n k => n + (leAt (optDesc b k) 48 8 + 255) / 256) 0

/-- The lane faults of one group: each is counted by its lane; a resolved one is counted, also in CORRECTED, and raised (R290). -/
def noteLanes (s : State) (p g : Nat) (fs : List LaneFault) : State :=
  fs.foldl (fun t f =>
    let t1 := tally t (galPage g) (40 + faultLane f / 64) 1
    if f.again then t1
    else raise (tally (updRun t1 p (fun r => { r with corrected := r.corrected + 1 })) (galPage g) 28 1) (galPage g) 19) s

/-- The bytes that a commit writes, marked for each Vault half whose map stands (R411). -/
def markWritten (s : State) (p : Nat) (rs : List (Nat × Nat)) : State :=
  let x := partGet s p
  let mark := fun (m : Option (List (Nat × Nat))) => m.map (fun l => rs.foldl (fun k r => addRange k r.1 r.2) l)
  partPut s p { x with res := { x.res with dirty := x.res.dirty.map mark } }

/-- How far one COMMIT goes in a row: on to its next group, no further now, or to the failure of the commit. -/
inductive GroupOut where
  | more (s : State)
  | wait (s : State)
  | dead (s : State)
  deriving DecidableEq, Repr

/-- A state in which the commit of a partition waits or has failed. -/
def stopped (s : State) (p : Nat) : GroupOut := if (partGet s p).stp.run.isNone then .dead s else .wait s

/-- An access of a commit to a page of a peer (R254, R361): a read of n bytes, or a write of those given. -/
def commitAsk (s : State) (p k g m va n index rpage : Nat) (cur : Bool) (out : Option (List Byte)) : GroupOut :=
  match peerEntry s 0 p index with
  | none => stopped (commitFault s p g m va (.fault 5 false cur)) p
  | some (i, epoch) =>
    let addr := frameSize * rpage + va % frameSize
    let seq := nextSeq s i
    let s1 := updCur s p k (fun c => { c with askVa := va, askCur := cur, peer := .waiting (BitVec.ofNat 16 i) seq.toNat seq })
    .wait (match out with | none => sendRead s1 i epoch addr n 1 (.commit p k) | some bs => sendWrite s1 i epoch addr bs 1)

/-- A value of a commit has been written: an element is written with its last one (R283, R411). -/
def wordWritten (s : State) (p g : Nat) (w : CommitWord) : State :=
  let s1 := markWritten s p [(w.va, w.va + 2)]
  if w.last then tally (updRun s1 p (fun r => { r with elements := r.elements + 1 })) (galPage g) 26 1 else s1

/-- The values of a group written in order, from the one a fault stopped at (R289, R292); behind the last one, the next group. -/
def storeWords (s : State) (p k g : Nat) (ws : List CommitWord) : GroupOut :=
  match ws with
  | [] => .more (updCur s p k (fun c => { c with group := c.group + 1, got := [], writes := none }))
  | w :: r =>
    let s0 := updCur s p k (fun c => { c with writes := some (w :: r) })
    if heldVa s p w.va true then .wait s0
    else
      match translate s p w.va true with
      | .error e => stopped (commitFault s0 p g 1 w.va e) p
      | .ok (.peer index rpage cur) => commitAsk s0 p k g 1 w.va 2 index rpage cur (some (leBytes 2 w.val))
      | .ok (.phys _) =>
        match vstore s0 p w.va (leBytes 2 w.val) with
        | (s1, some (va, e)) => stopped (commitFault s1 p g 1 va e) p
        | (s1, none) => storeWords (wordWritten s1 p g w) p k g r

/-- The values that a group of elements takes, element by element (R281-R283). -/
def groupValues (key : Quad) (r : CommitRun) (step : Nat) (d : List Byte) (first size : Nat) (ls : List (List Nat)) : List (Option (List Nat)) :=
  let row := fun (j k : Nat) => (ls.getD j []).getD k 0
  let alg := leAt d 0 1
  (List.range size).map (fun k => newElement key r.scal r.gs.toNat step d (first + k) (row 0 k)
    (if 1 ≤ alg then row 1 k else 0) (if alg = 2 then row 2 k else 0) ((ls.getLastD []).getD k 0))

/-- What of those values is to be written; a held element keeps its own (R283). -/
def groupWords (first : Nat) (as : List (Nat × Nat)) (vs : List (Option (List Nat))) : List CommitWord :=
  vs.zipIdx.flatMap (fun v =>
    match v.1 with
    | none => []
    | some ws => (as.zip ws).zipIdx.map (fun e => ⟨e.1.1.1 + 2 * (first + v.2), e.1.2, e.2 + 1 == ws.length⟩))

/-- The held elements of a group: counted, and EV_VEC_STATE_HELD once per gallery and step (R283). -/
def noteHeld (s : State) (p g held : Nat) : State :=
  if held = 0 then s
  else
    let again := match (partGet s p).stp.run with | some r => r.heldOn.contains g | none => true
    let s1 := tally (updRun s p (fun r => { r with held := r.held + held, heldOn := g :: r.heldOn.filter (· != g) })) (galPage g) 27 held
    if again then s1 else raise s1 (galPage g) 20

/-- A group computed: its disagreements (R290), the values to write, and the writes (R281-R283, R289-R292). -/
def computeGroup (s : State) (p k g : Nat) (c : Begun) (r : CommitRun) (di n : Nat) (lanes : List LaneFault) (bs : List Byte) : GroupOut :=
  let d := optDesc c.bytes di
  let first := 256 * n
  let size := min 256 (leAt d 48 8 - first)
  let as := groupArrays d
  let mine := lanes.filter (fun f => f.gallery.val == g && f.group == groupsBefore c.bytes di + n && decide (f.element.val < size))
  let s2 := noteLanes s p g mine
  match mine.find? (·.again) with
  | some f =>
    let detail := (first + f.element.val) % 2 ^ 32 + f.element.val * 2 ^ 32
    .dead (commitFail (recordErr s2 (galPage g) 0xA0 (some p) 0 false detail) p g detail)
  | none =>
    let vs := groupValues (keyFor s2 g) r (stepNow s2 p) d first size (arrayValues size as bs)
    storeWords (noteHeld s2 p g (vs.filter Option.isNone).length) p k g (groupWords first as vs)

/-- One group of 256 elements (R281-R283, R289-R292): group n of optimizer descriptor d of COMMIT k, from where it stands. -/
def commitGroup (s : State) (p k g : Nat) (c : Begun) (r : CommitRun) (lanes : List LaneFault) : GroupOut :=
  let cur := curGet r k
  match cur.writes with
  | some ws => storeWords s p k g ws
  | none =>
    let d := optDesc c.bytes cur.desc
    let first := 256 * cur.group
    let size := min 256 (leAt d 48 8 - first)
    match fetchArrays s p first size cur.got (groupArrays d) with
    | .held => .wait s
    | .bad va e => stopped (commitFault s p g 0 va e) p
    | .ask va n index rpage cur => commitAsk s p k g 0 va n index rpage cur none
    | .got s1 bs => computeGroup s1 p k g c r cur.desc cur.group lanes bs

/-- The answer that COMMIT k waits for taken in; nothing where it has not come (R254, R361). -/
def commitAnswer (s : State) (p k g : Nat) (cur : CommitCur) : GroupOut :=
  let s1 := updCur s p k (fun c => { c with peer := .none })
  match cur.peer, cur.writes with
  | .none, _ => .more s
  | .waiting _ _ _, _ => .wait s
  | .failed, ws => stopped (commitFault s1 p g (b2n ws.isSome) cur.askVa (.fault 5 false cur.askCur)) p
  | .data bs, none => .more (updCur s1 p k (fun c => { c with got := c.got ++ [(cur.askVa, bs)] }))
  | .data _, some (w :: ws) => .more (updCur (wordWritten s1 p g w) p k (fun c => { c with writes := some ws }))
  | .data _, some [] => .more s1

/-- COMMIT k from where it stands, group by group, descriptor by descriptor (R286, R289). -/
def commitShards (s : State) (p k g : Nat) (c : Begun) (fuel : Nat) (lanes : List LaneFault) : GroupOut :=
  match fuel with
  | 0 => .wait s
  | f + 1 =>
    match (partGet s p).stp.run with
    | none => .dead s
    | some r =>
      let cur := curGet r k
      if optCount c.bytes ≤ cur.desc then .wait s
      else if leAt (optDesc c.bytes cur.desc) 48 8 ≤ 256 * cur.group ∧ cur.writes.isNone = true then
        commitShards (updCur s p k (fun x => { x with desc := cur.desc + 1, group := 0 })) p k g c f lanes
      else match commitGroup s p k g c r lanes with | .more t => commitShards t p k g c f lanes | x => x

/-- Whether COMMIT k has begun the group it is at (R292). -/
def groupBegun (cur : CommitCur) : Bool := cur.writes.isSome || cur.got != [] || decide (cur.peer ≠ .none)

/-- Whether a COMMIT of gallery g may go on now (R286, R292): its control page RUNNING, or STOPPING with a group begun, and no transfer
of it waiting for a page. -/
def partReady (s : State) (g : Nat) (cur : CommitCur) : Bool :=
  (running s (galPage g) || (blkState s (galPage g) == stStopping && groupBegun cur)) &&
    rd s (movPage g) (fMSTATE 0) != 2 && rd s (movPage g) (fMSTATE 1) != 2

/-- The COMMITs of the step from number k on, each as far as it goes (R286, R292); behind them, whether all are done. -/
def commitAll (s : State) (p : Nat) (cs : List (Nat × Begun)) (k : Nat) (lanes : List LaneFault) : State :=
  match cs with
  | [] => updRun s p (fun r => { r with done := (commitsOf s p).zipIdx.all (fun e => decide (optCount e.1.2.bytes ≤ (curGet r e.2).desc)) })
  | (g, c) :: rest =>
    match (partGet s p).stp.run with
    | none => s
    | some r =>
      if partReady s g (curGet r k) = false then commitAll s p rest (k + 1) lanes
      else
        match commitAnswer s p k g (curGet r k) with
        | .dead t => t
        | .wait t => commitAll t p rest (k + 1) lanes
        | .more t =>
          match commitShards t p k g c (groupsBefore c.bytes (optCount c.bytes) + optCount c.bytes + 1) lanes with
          | .dead u => u
          | .wait u => commitAll u p rest (k + 1) lanes
          | .more u => commitAll u p rest (k + 1) lanes

/-- Whether the commit of a partition may begin or go on now (R286, R292): the gate open with both flags 1 and a contributor, no
sketch of the step left, and the conditions of R410. -/
def commitReady (s : State) (p : Nat) : Bool :=
  let x := (partGet s p).stp
  let n := stepNow s p
  let open_ := match x.job with | some (f, c, k) => f && c && k != 0 | none => false
  open_ && !x.dead && (match x.run with | some r => !r.done | none => true) &&
    (partGals s p).all (fun g => (galGet s (galPage g)).begun.all (fun c => !(cmdOp c.bytes == 6 && cmdStep c.bytes == n))) &&
    resReady s p n

/-- The commit fails because two comparators of the gate or of the step counter disagree: the record is on the lead gallery's control page
(R291, R447; notes/assumptions/118). -/
def compareFails (s : State) (p g : Nat) : State := commitFail (recordErr s (galPage g) 0x06 (some p) 0 false 0) p g 0

/-- COMMIT_BEGIN: the groups of every COMMIT of the step (R281-R292); the first one's gallery reads the step scalar block (R280). -/
def commitBegin (s : State) (p : Nat) (work : CommitWork) : State :=
  let lanes := work.lanes
  if commitReady s p = false then s
  else
    let cs := commitsOf s p
    match (partGet s p).stp.run with
    | some _ => commitAll s p cs 0 lanes
    | none =>
      if work.gate then (match leadOf s p with | some g => compareFails s p g | none => s)
      else
      match cs with
      | [] => putRun s p { runNone with done := true }
      | (g, c) :: _ =>
        if partReady s g curNone = false ∨ heldVa s p (leAt (commitDesc c.bytes) 8 6) false = true then s
        else
          match vfetch s p (leAt (commitDesc c.bytes) 8 6) 32 with
          | .error (va, e) => commitFault s p g 0 va e
          | .ok (s1, b) =>
            let n := match (partGet s p).stp.job with | some j => j.2.2 | none => 0
            commitAll (putRun s1 p { runNone with scal := b, gs := BitVec.ofNat 32 (gradScale n b), curs := cs.map (fun _ => curNone) }) p cs 0 lanes

/-- STEP_BOUNDARY: the census and the Appraiser, the step record, the end of the COMMITs and the start of step s + 1 (R35, R207,
R215, R286, R293, R320); `fails`: the arithmetic of the census or the Appraiser that fails its check (R443); `counter`: the comparators
of the advance disagree (R447). -/
def stepBoundary (s : State) (p : Nat) (fails : Option Nat) (counter : Bool) : State :=
  match (partGet s p).stp.run, leadOf s p with
  | some r, some g =>
    if r.done = false ∨ running s (galPage g) = false then s
    else
      let n := stepNow s p
      let entries := rd s (cenPage g) fCENCOUNT
      match censusCommit s p g n fails with
      | (s1, some (va, e)) => commitFailAccess s1 p g va e
      | (s1, none) =>
        match runAppraiser s1 p g n ((fails.filter (fun i => decide (entries ≤ i))).map (fun i => i - entries)) with
        | (s2, some (va, e)) => commitFailAccess s2 p g va e
        | (s2, none) =>
          if counter then compareFails s2 p g
          else
          let s3 := raise (stepRecord s2 p 1) (galPage g) 16
          let s4 := endCommits (stpPut s3 p { (partGet s3 p).stp with decided := true }) p cDONE 0 0
          stepStart (afterCommit s4 p n) p ((n + 1) % 2 ^ 32) false
  | _, _ => s

/-- Whether the command at HEAD of a queue is to be cancelled at a skip of step n (R322). -/
def skipCancels (s : State) (g q n : Nat) : Bool :=
  rd s (galPage g) (fQEN q) == 1 && rd s (galPage g) (fQTAIL q) != rd s (galPage g) (fQHEAD q) &&
    (match slotRead s g q (rd s (galPage g) (fQHEAD q)) with | .ok b => cmdStep b == (n + 1) % 2 ^ 32 | .error _ => true)

/-- The queues of a partition cancelled at a skip of step n (R322). -/
def skipQueues (s : State) (p n : Nat) : State :=
  (partGals s p).foldl (fun t g => (List.range 4).foldl (fun u q =>
    if skipCancels u g q n then cancelFrom u g q ((n + 1) % 2 ^ 32) (waitingCount u g q) false else u) t) s

/-- The commit of the step is skipped (R207, R287, R293, R320, R322): the gate has opened and says so. -/
def skipStep (s : State) (p : Nat) : State :=
  let n := stepNow s p
  let x := (partGet s p).stp
  let s1 := match leadOf s p with | some g => censusSkip s p g n | none => s
  let s2 := stpPut s1 p { x with decided := true, skips := (x.skips + 1) % 2 ^ 32 }
  let s3 := stepRecord s2 p 2
  let s4 := match leadOf s3 p with | some g => raise s3 (galPage g) 17 | none => s3
  stepStart (skipQueues (endCommits s4 p cDONE 0 0) p n) p n true

/-- Whether a partition may close its step on this module (R205, R321). -/
def stepClosable (s : State) (p : Nat) : Bool :=
  let gs := partGals s p
  let on := gs.flatMap (fun g => ((List.range 4).filter (fun q => rd s (galPage g) (fQEN q) == 1)).map (fun q => (g, q)))
  (partGet s p).stp.started && !(partGet s p).stp.closed && !on.isEmpty && on.all (fun e => (qaux s e.1 e.2).stepEnded) &&
    gs.all (fun g => (galGet s (galPage g)).begun.all (fun c => cmdStep c.bytes != stepNow s p || isCommit (stepNow s p) c))

/-- STEP_CLOSE (R205, R321). -/
def stepClose (s : State) (p : Nat) : State :=
  if stepClosable s p then
    stpPut ((partGals s p).foldl (fun t g => wr t (cenPage g) fCLOSED 1) s) p { (partGet s p).stp with closed := true }
  else s

/-- STEP_CLOSE (R205). -/
def execStepClose (p : Fin 64) (s : State) : Host.Outcome State Fault Refusal := .next (alive s (fun t => stepClose t p.val))
/-- COMMIT (R278). -/
def execCommit (g : Fin 256) (q : Fin 4) (s : State) : Host.Outcome State Fault Refusal :=
  .next (alive s (fun t => acceptRow t g.val q.val (fun b => cmdOp b == 5 || reservedOp b)
    (fun u _ b => checkCommit u g.val b) (fun u i b => startCommit u g.val q.val i b)))
/-- COMMIT_BEGIN (R286). -/
def execCommitBegin (p : Fin 64) (work : CommitWork) (s : State) : Host.Outcome State Fault Refusal :=
  .next (alive s (fun t => commitBegin t p.val work))

/-- STEP_BOUNDARY (R286). -/
def execStepBoundary (run : BoundaryRun) (s : State) : Host.Outcome State Fault Refusal :=
  .next (alive s (fun t => stepBoundary t run.part.val run.fails run.counter))

end Sys2Proof.Machine
end

