-- ==== Sys2Proof/Machine/Power.lean ====
section
/-! DEFINITION. Power, rails, thermal limits and the reset kinds (R470-R487, R494, R495, R550-R558): the rows of chapter 15 that
come from rails, sensors and pins, and the three requests of RST_REQ. -/

namespace Sys2Proof.Machine

/-- The number of a rail in PWR_CAUSE.RAIL: the order of R470 from VIN as 0, with room for six X-dies (notes/assumptions/20). -/
def railNum (r : Rail) : Nat :=
  match r with
  | .vin => 0 | .vaux => 1 | .vbus => 2 | .vcoreC c => 3 + c.val | .vcoreX x => 7 + x.val | .vhbm => 13 | .vser => 14 | .vopt => 15

/-- The X-dies the code fits. -/
def xdies (code : OrderCode) : List (Fin 6) := (List.range 6).filterMap (fun x => if h : x < 6 then
  (if x < xdieCount code then some ⟨x, h⟩ else none) else none)

/-- The rails in the order of the ramp (R471); rails of one entry come up together. -/
def rampOrder (code : OrderCode) : List (List Rail) :=
  [[.vbus], (xdies code).map Rail.vcoreX, [.vcoreC 0, .vcoreC 1, .vcoreC 2, .vcoreC 3], [.vhbm], [.vser], [.vopt]]

/-- The rails whose power-good the ramp waits for now. -/
def rampNext (code : OrderCode) (good : List Rail) : List Rail :=
  match (rampOrder code).find? (fun l => !l.all good.contains) with
  | some l => l.filter (fun r => !good.contains r)
  | none => []

/-- The state with the power manager replaced. -/
def putPower (s : State) (p : Power) : State := { s with power := p }

/-- PWR_CAUSE written (R470, R495). -/
def setCause (s : State) (kind rail : Nat) : State := wr (wr s pwrPage fPCAUSE kind) pwrPage fPRAIL rail

/-- The release of the P reset once every rail is good and RESET_N is deasserted (R471 order 6, R556). PWR_CAUSE records a
power-on unless a power-stage fault or a thermal trip still stands (R474, R483; notes/assumptions/21). -/
def tryReleaseP (s : State) : State :=
  if s.power.phase = .ramping ∧ rampNext s.code s.power.good = [] ∧ s.power.resetN = true then
    let s1 := if s.power.keepCause then s else setCause s 0 0
    putPower s1 { s1.power with phase := .on, keepCause := false }
  else s

/-- Every rail but VIN and VAUX off (R472, R474, R483). -/
def railsOff (s : State) (ph : PwrPhase) : State :=
  let keep := s.power.good.filter (fun r => r == .vin || r == .vaux)
  putPower s { s.power with phase := ph, good := keep, mReset := false }

/-- PWR_EN rising (R471, R474, R483, R557). -/
def pwrRise (s : State) : State :=
  if s.power.pwrEn then s
  else
    let low := match s.power.pwrEnLowAt with | some t => s.now - t | none => 0
    let p := { s.power with pwrEn := true, pwrEnLowAt := none }
    if s.power.vinOk = true ∧ (s.power.phase = .off ∨ (s.power.phase = .held ∧ 100000000 ≤ low)) then
      let s1 := moduleReset (putPower s p) .p
      putPower s1 { s1.power with phase := .ramping, good := [.vin, .vaux], mReset := false }
    else putPower s p

/-- A rail's power-good (R471). -/
def railGood (s : State) (r : Rail) : State :=
  if s.power.phase = .ramping ∧ (rampNext s.code s.power.good).contains r = true then
    tryReleaseP (putPower s { s.power with good := s.power.good ++ [r] })
  else s

/-- PWR_EN falling: bypass drives first, then the rails (R472, R557). -/
def pwrFall (s : State) : State :=
  if s.power.pwrEn then
    let s1 := if s.power.phase = .on then ringsDrop s 0 else s
    let ph := if s1.power.phase = .held then PwrPhase.held else .off
    let s2 := railsOff s1 ph
    putPower s2 { s2.power with pwrEn := false, pwrEnLowAt := some s.now, thermtripN := true, faultAlert := false }
  else s

/-- VIN out of range, or VAUX lost: every rail falls, and PWR_CAUSE is lost with VAUX (R472, R495, R558). -/
def vinLost (s : State) : State :=
  let s1 := if s.power.phase = .on then ringsDrop s 0 else s
  let s2 := setCause s1 0 0
  putPower s2 { s2.power with phase := .off, good := [], vinOk := false, mReset := false, keepCause := false, thermtripN := true,
                              faultAlert := false }

/-- VIN in range: VAUX and the power manager come up (R470, R550). -/
def vinBack (s : State) : State :=
  if s.power.vinOk then s else putPower s { s.power with vinOk := true, good := [.vin, .vaux] }

/-- An M reset begins (R485, R487); one under way is extended by a new RESET_N (R558). -/
def mStart (s : State) (kind rail : Nat) : State :=
  if s.power.phase = .on then
    if s.power.mReset then putPower s { s.power with resetAt := s.now }
    else
      let s1 := moduleReset (setCause s kind rail) .m
      putPower s1 { s1.power with mReset := true, resetAt := s1.now }
  else s

/-- RESET_N low for a time (R485, R556, R558). A pulse between 100 ns and 1 µs may or may not be taken: a free value. -/
def resetLow (s : State) (lowNs : Nat) : State :=
  let (s0, n) := nextFree s
  let taken := decide (1000 ≤ lowNs) || (decide (100 < lowNs) && (Config.freeWord n).getLsbD 0)
  let s1 := if 100 < lowNs ∧ lowNs < 1000 then s0 else s
  if lowNs ≤ 100 then s
  else if taken then mStart (putPower s1 { s1.power with resetN := false }) 1 0
  else s1

/-- RESET_N rising (R556). -/
def resetHigh (s : State) : State := tryReleaseP (putPower s { s.power with resetN := true })

/-- The release of an M reset, at least 1 ms after it began (R487, R556): RESET_N is deasserted; the ROMs start again. That every VCORE rail
is at 0.70 V is the row's own condition. -/
def mRelease (s : State) : State :=
  if s.power.mReset = true ∧ s.power.resetN = true ∧ s.power.resetAt + 1000000 ≤ s.now then putPower s { s.power with mReset := false } else s

/-- A rail other than VCORE out of its range for 10 µs (R473). -/
def railOut (s : State) (r : Rail) : State :=
  alive s (fun s =>
    match r with
    | .vopt =>
      let s1 := ringsDrop s 0
      let s2 := (ringPorts s.code .a ++ ringPorts s.code .b).foldl (fun t xp => linkDrop t xp.1 xp.2) s1
      setAlert s2 3
    | .vbus => mStart s 4 (railNum r)
    | .vhbm => mStart s 4 (railNum r)
    | .vser => mStart s 4 (railNum r)
    | _ => s)

/-- A power-stage fault (R474): every stage off, P reset held, PWR_CAUSE 0x5, ALERT_N. -/
def stageFault (s : State) (r : Rail) : State :=
  if s.power.phase = .on ∨ s.power.phase = .ramping then
    let s1 := railsOff (ringsDrop s 0) .held
    setCause (putPower s1 { s1.power with keepCause := true, faultAlert := true }) 5 (railNum r)
  else s

/-- The thermal trip (R483). -/
def thermTrip (s : State) : State :=
  if s.power.phase = .on ∨ s.power.phase = .ramping then
    let s1 := railsOff (ringsDrop s 3) .held
    setCause (putPower s1 { s1.power with keepCause := true, thermtripN := false }) 6 0
  else s

/-- PWR_MODE.SR_IDLE_US (R495). -/
def fSRIDLE : FRef := ⟨0x110, 8, 8⟩

/-- The rail monitor page of a die: C-dies 0-3, then X-dies 0-5 (R494). -/
def monitorPage (d : Nat) : Nat := if d < 4 then cPage d 0x103 else xPage (d - 4) 0x0E

/-- Whether a die is fitted. -/
def dieFitted (code : OrderCode) (d : Nat) : Bool := decide (d < 4) || decide (d - 4 < xdieCount code)

/-- RMON_STATUS.MV. -/
def fMV : FRef := ⟨0x100, 0, 10⟩
/-- RMON_STATUS.WARN. -/
def fWARN : FRef := ⟨0x100, 10, 1⟩
/-- RMON_STATUS.HOT. -/
def fHOT : FRef := ⟨0x100, 11, 1⟩
/-- RMON_STATUS.TEMP_C. -/
def fTEMP : FRef := ⟨0x100, 12, 8⟩
/-- RMON_STATUS.DUTY. -/
def fDUTY : FRef := ⟨0x100, 20, 5⟩
/-- RMON_PEAK.MIN_MV. -/
def fMINMV : FRef := ⟨0x108, 0, 10⟩
/-- RMON_PEAK.MAX_TEMP_C. -/
def fMAXT : FRef := ⟨0x108, 16, 8⟩
/-- RMON_COUNT.WARN_EVENTS. -/
def fWEVENTS : FRef := ⟨0x110, 0, 32⟩
/-- RMON_COUNT.WARN_TIME_US. -/
def fWTIME : FRef := ⟨0x110, 32, 32⟩
/-- RMON_CFG.WARN_DUTY. -/
def fWDUTY : FRef := ⟨0x118, 0, 5⟩
/-- RMON_CFG.THERM_WARN_C. -/
def fTWARN : FRef := ⟨0x118, 16, 8⟩

/-- Frames under way on a C-die broken by a rail in warning or a throttle (R328, R475, R481). -/
def voidDie (s : State) (c : Nat) : State := voidFrames s (fun pg => pg / 512 == c)

/-- The issue duty of a die, from its warning and its thermal duty (R481). -/
def dutyOf (s : State) (d : Nat) : Nat :=
  min (if d < 4 ∧ rd s (monitorPage d) fWARN = 1 then rd s (monitorPage d) fWDUTY else 16) (tget 16 s.power.thermDuty d)

/-- The duty applied and shown; a throttle breaks the frames of the die (R328, R481). -/
def applyDuty (s : State) (d : Nat) : State :=
  let s1 := wr s (monitorPage d) fDUTY (dutyOf s d)
  if d < 4 ∧ dutyOf s d < 16 then voidDie s1 d else s1

/-- A reading of the sense point (R494). -/
def showMv (s : State) (d mv : Nat) : State :=
  let pg := monitorPage d
  wr (wr s pg fMV mv) pg fMINMV (min (rd s pg fMINMV) mv)

/-- A VCORE rail enters warning (R475, R476). -/
def warnIn (s : State) (d mv : Nat) : State :=
  if dieFitted s.code d = true ∧ rd s (monitorPage d) fWARN = 0 then
    let pg := monitorPage d
    let s1 := bump (wr (showMv s d mv) pg fWARN 1) pg fWEVENTS 1
    let s2 := { s1 with power := { s1.power with warnSince := tins s1.power.warnSince d s1.now } }
    applyDuty (voidDie (setAlert (tally (raise s2 pg 8) pg 0 1) 1) d) d
  else s

/-- A VCORE rail leaves warning (R475, R476). -/
def warnOut (s : State) (d mv : Nat) : State :=
  if dieFitted s.code d = true ∧ rd s (monitorPage d) fWARN = 1 then
    let pg := monitorPage d
    let us := (s.now - tget s.now s.power.warnSince d) / 1000
    let s1 := bump (wr (showMv s d mv) pg fWARN 0) pg fWTIME us
    let s2 := { s1 with power := { s1.power with warnSince := tdel s1.power.warnSince d } }
    applyDuty (raise s2 pg 9) d
  else s

/-- The thermal duty of R482 for a reading, given whether the die is throttling. -/
def thermalDuty (hot : Bool) (t : Nat) : Nat :=
  if 95 ≤ t then max 2 (16 - (t - 94)) else if hot = true ∧ 93 ≤ t then 15 else 16

/-- The hottest reading of the fitted dies (R495). -/
def hottest (s : State) : Nat :=
  (List.range 10).foldl (fun m d => if dieFitted s.code d then max m (rd s (monitorPage d) fTEMP) else m) 0

/-- A reading of a die's hottest junction (R482, R494). -/
def thermalUpdate (s : State) (d t : Nat) : State :=
  if dieFitted s.code d then
    let pg := monitorPage d
    let hot := rd s pg fHOT == 1
    let duty := thermalDuty hot t
    let s1 := wr (wr s pg fTEMP t) pg fMAXT (max (rd s pg fMAXT) t)
    let s2 := wr s1 pwrPage ⟨0x120, 0, 8⟩ (hottest s1)
    let since := if duty < 16 then (if hot then s2.power.hotSince else tins s2.power.hotSince d s2.now) else tdel s2.power.hotSince d
    let s3 := { s2 with power := { s2.power with thermDuty := tput 16 s2.power.thermDuty d duty, hotSince := since } }
    let s4 := wr s3 pg fHOT (b2n (duty < 16))
    let s5 := if duty < 16 ∧ hot = false then tally (raise s4 pg 10) pg 1 1
      else if duty = 16 ∧ hot = true then tally s4 pg 2 ((s.now - tget s.now s.power.hotSince d) / 1000) else s4
    let s6 := if rd s5 pg fTWARN ≤ t then setAlert (raise s5 pg 11) 2 else s5
    applyDuty s6 d
  else s

/-- A stack beyond the extended temperature range, a thermal throttle that breaks every frame (R328, R484). -/
def hbmThrottle (s : State) (k t : Nat) : State :=
  let die := (((stackSites s.code)[k]?).getD 0) / 4
  let temps := tput 0 s.power.hbmTemp k t
  let s1 := { s with power := { s.power with hbmTemp := temps } }
  let s2 := wr s1 pwrPage ⟨0x120, 8, 8⟩ (temps.foldl (fun m e => max m e.2) 0)
  voidFrames (setAlert (tally (raise s2 (monitorPage die) 10) (hbmPage s.code k) 13 1) 4) (fun _ => true)

/-- The gallery of a G request: RST_REQ.TARGET, as GO found it (R495; notes/assumptions/162). -/
def resetTarget (s : State) : Nat := bits s.power.rstReq 8 8

/-- The configuration of a gallery that ADMIT writes back: (page, offset) of each register (R305). -/
def configRegs : List (Nat × Nat) :=
  [(0, 0x100), (1, 0x100), (2, 0x100)] ++ (List.range 64).map (fun c => (2, 0x200 + 8 * c)) ++
  [(3, 0x100), (3, 0x108), (3, 0x110), (3, 0x118), (3, 0x120), (3, 0x128), (3, 0x130), (3, 0x138), (3, 0x140)] ++
  (List.range 16).map (fun i => (0, 0x600 + 0x40 * (i / 4) + 8 * (i % 4)))

/-- A gallery's configuration kept with its partition's record, and whether it was the lead gallery; a register whose storage is bad
saves nothing (R305). -/
def saveConfig (s : State) (g : Nat) : State :=
  let pg := galPage g
  match pageOwner s pg with
  | none => s
  | some p =>
    let good := configRegs.filter (fun r => !s.regBad.contains ((pg + r.1) * 4096 + r.2))
    let kept := good.map (fun r => (r.1 * 4096 + r.2, BitVec.ofNat 64 (regGet s ((pg + r.1) * 4096 + r.2))))
    let x := partGet s p
    let leads := if rd s (pg + 3) fLEAD = 1 then g :: x.leads.filter (· != g) else x.leads
    partPut s p { x with saved := tins x.saved g (if (galGet s pg).fill = .reset then [] else kept), leads := leads }

/-- The mailbox requests RESET that wait for the reset they asked for end (R512). -/
def endMailReset (s : State) : State :=
  (s.boot.mail.filter (fun e => e.2.state == 1 && e.2.started && leAt e.2.request 0 1 == 9)).foldl
    (fun t e => mailDone t (e.1 / 16) (e.1 % 16) mDONE []) s

/-- The end of a G or L request: BUSY clears, the journal has it complete, and EV_PWR_RESET_DONE is raised (R495, R506). -/
def resetDone (s : State) : State :=
  let s1 := journalClose (wr { s with power := { s.power with gBusy := false } } pwrPage fRBUSY 0) 2
  endMailReset (tally (raise s1 pwrPage 10) pwrPage 3 1)

/-- An L request carried out: the port page, its link, and its ring's bypass (R485). -/
def lReset (s : State) : State :=
  let x := bits s.power.rstReq 12 3
  let p := bits s.power.rstReq 8 3
  if x < xdieCount s.code then
    let s1 := linkDrop s x p
    let s2 := resetPage s1 .l (portPage x p)
    let hit := fun (r : Ring) => (ringPorts s.code r).contains (x, p)
    let s3 := if hit .a then ringDrop s2 .a 0 else s2
    let s4 := if hit .b then ringDrop s3 .b 0 else s3
    resetDone s4
  else resetDone s

/-- Whether a reset request of a kind waits to be carried out (R486). -/
def resetAsked (s : State) (kind : Nat) : Bool := rd s pwrPage fRBUSY == 1 && bits s.power.rstReq 0 3 == kind && !s.power.gBusy

/-- PWR_EN_RISE (R471). -/
def execPwrEnRise (s : State) : Host.Outcome State Fault Refusal := .next (pwrRise s)
/-- RAIL_POWER_GOOD (R471). -/
def execRailPowerGood (rail : Rail) (s : State) : Host.Outcome State Fault Refusal := .next (railGood s rail)
/-- PWR_EN_FALL (R472). -/
def execPwrEnFall (s : State) : Host.Outcome State Fault Refusal := .next (pwrFall s)
/-- VIN_OUT_OF_RANGE (R472). -/
def execVinOutOfRange (s : State) : Host.Outcome State Fault Refusal := .next (vinLost s)
/-- VIN_IN_RANGE (R550). -/
def execVinInRange (s : State) : Host.Outcome State Fault Refusal := .next (vinBack s)
/-- RAIL_FAULT (R473). -/
def execRailFault (rail : Rail) (s : State) : Host.Outcome State Fault Refusal := .next (railOut s rail)
/-- POWER_STAGE_FAULT (R474). -/
def execPowerStageFault (rail : Rail) (s : State) : Host.Outcome State Fault Refusal := .next (stageFault s rail)
/-- RAIL_WARNING_ENTRY (R476). -/
def execRailWarningEntry (die : Fin 10) (mv : BitVec 10) (s : State) : Host.Outcome State Fault Refusal :=
  .next (alive s (fun t => warnIn t die.val mv.toNat))
/-- RAIL_WARNING_EXIT (R476). -/
def execRailWarningExit (die : Fin 10) (mv : BitVec 10) (s : State) : Host.Outcome State Fault Refusal :=
  .next (alive s (fun t => warnOut t die.val mv.toNat))
/-- VCORE_RESET_LEVEL (R477). -/
def execVcoreResetLevel (die : Fin 10) (s : State) : Host.Outcome State Fault Refusal :=
  .next (if dieFitted s.code die.val then mStart s 2 (3 + die.val) else s)
/-- THERMAL_DUTY_UPDATE (R482). -/
def execThermalDutyUpdate (die : Fin 10) (temp : Byte) (s : State) : Host.Outcome State Fault Refusal :=
  .next (alive s (fun t => thermalUpdate t die.val temp.toNat))
/-- THERMAL_TRIP (R483). -/
def execThermalTrip (die : Fin 10) (s : State) : Host.Outcome State Fault Refusal :=
  .next (if dieFitted s.code die.val then thermTrip s else s)
/-- HBM_THERMAL_THROTTLE (R484). -/
def execHbmThermalThrottle (stack : Nat) (temp : Byte) (s : State) : Host.Outcome State Fault Refusal :=
  if stack < stackCount s.code then .next (alive s (fun t => hbmThrottle t stack temp.toNat)) else .refused .noSuchUnit
/-- RESET_N_ASSERT (R485). -/
def execResetNAssert (lowNs : Nat) (s : State) : Host.Outcome State Fault Refusal := .next (resetLow s lowNs)
/-- RESET_N_DEASSERT (R556). -/
def execResetNDeassert (s : State) : Host.Outcome State Fault Refusal := .next (resetHigh s)
/-- M_RESET_RELEASE (R487). -/
def execMResetRelease (s : State) : Host.Outcome State Fault Refusal := .next (mRelease s)
/-- M_REQUEST (R486): the request completes by the reset itself (notes/assumptions/134). -/
def execMRequest (s : State) : Host.Outcome State Fault Refusal :=
  .next (alive s (fun t => if resetAsked t 1 then mStart (wr t pwrPage fRBUSY 0) 3 0 else t))
/-- L_REQUEST (R486). -/
def execLRequest (s : State) : Host.Outcome State Fault Refusal :=
  .next (alive s (fun t => if resetAsked t 3 then lReset t else t))
/-- SELF_REFRESH_ENTRY (R490). -/
def execSelfRefreshEntry (stack : Nat) (s : State) : Host.Outcome State Fault Refusal :=
  if stack < stackCount s.code then
    .next (alive s (fun t => if rd t pwrPage fIDLEACT = 1 ∧
        tget t.power.idleSince t.power.srAt stack + 1000 * rd t pwrPage fSRIDLE ≤ t.now then
      tally { t with power := { t.power with selfRefresh := stack :: t.power.selfRefresh.filter (· != stack) } }
        (hbmPage t.code stack) 12 1 else t))
  else .refused .noSuchUnit

end Sys2Proof.Machine
end

