-- ==== Sys2Proof/Machine/Memory.lean ====
section
/-! DEFINITION. Cabinet fills and low-power states of galleries (R230, R295, R303, R304, R488-R491), and the HBM, mesh and
bridge rows of chapter 8 (R247-R250, R264, R265, R440). -/

namespace Sys2Proof.Machine

/-- Every page of a gallery ASLEEP, in Nap (1) or Sleep (2) (R488). -/
def enterLow (s : State) (pg kind : Nat) : State :=
  (fourPages pg).foldl (fun t p => wr t p fSTATE stAsleep) (wr s pg fLOWPWR kind)

/-- The way out of Nap or Sleep begins: the read pass of R455, or the fill of R230 (R488). -/
def leaveLow (s : State) (pg : Nat) : State :=
  let x := galGet s pg
  galPut (wr s pg fLOWPWR 0) pg { x with fill := if rd s pg fLOWPWR = 2 then .wake else .napRead }

/-- The Curator holds a gallery that belongs to no partition in Sleep (R295, R489). -/
def holdAsleep (s : State) (pg : Nat) : State :=
  if s.boot.active.isSome = true ∧ pageOwner s pg = none ∧ allPages s pg stStopped = true ∧ (galGet s pg).fill = .none then
    enterLow s pg 2
  else s

/-- EV_GC_STALE of a stale gallery that has returned to STOPPED (R304). -/
def staleEvent (s : State) (pg : Nat) : State := if rd s pg fSTALE = 1 then raiseZero s pg 12 else s

/-- The fill after a reset has completed: the pages answer again as STOPPED (R230, R304). -/
def fillReset (s : State) (pg : Nat) : State :=
  let s1 := staleEvent (galPut s pg { galGet s pg with fill := .none }) pg
  let s2 := if s1.power.gBusy = true ∧ galPage (resetTarget s1) = pg then resetDone s1 else s1
  holdAsleep s2 pg

/-- The fill on the way out of Sleep has completed: the pages return to STOPPED, the gallery is stale and its caddies are
empty (R230, R303, R488, R492). -/
def fillWake (s : State) (pg : Nat) : State :=
  let s1 := galPut (dropLead s pg) pg { galGet s pg with fill := .none, caddies := [] }
  let s2 := (fourPages pg).foldl blockWake (zeroCabinet s1 pg)
  idleCheck (staleEvent (wr s2 pg fSTALE 1) pg)

/-- A cabinet fill completes (R230). -/
def fillDone (s : State) (pg : Nat) : State :=
  match (galGet s pg).fill with
  | .reset => fillReset s pg
  | .wake => fillWake s pg
  | _ => s

/-- The read pass of a Nap exit completes (R455, R488). -/
def napDone (s : State) (pg : Nat) : State :=
  if (galGet s pg).fill = .napRead then
    (fourPages pg).foldl blockWake (galPut s pg { galGet s pg with fill := .none })
  else s

/-- Whether a gallery is there: a spare that replaces a gallery has no pages of its own (R41). -/
def galThere (s : State) (g : GalRef) : Bool := (pageAt s (galRefPage g)).isSome

/-- The words of a row read through the guard code and written to the replacement row, what is correctable corrected (R248, R442). -/
def moveRow (s : State) (key : Nat) : State :=
  ((s.guard.map (fun e => e.1 * 32)).filter (fun a => decide (a < hbmEnd s.code) && hbmRowOf s.code a == key)).foldl (fun (t : State) a =>
    match guardDecode (tget [] t.guard (a / 32)) with
    | .corrected p v => { t with guard := tput [] t.guard (a / 32) (patCorrect (tget [] t.guard (a / 32)) p v) }
    | _ => t) s

/-- Whether a row has collected the correctable errors that trigger its repair, and repair is enabled (R248). -/
def repairDue (s : State) (k c r : Nat) : Bool :=
  let pg := hbmPage s.code k
  rd s pg ⟨0x108, 8, 1⟩ == 1 && decide (rd s pg ⟨0x108, 0, 8⟩ ≤ tget 0 s.rowErrs (rowKey k c r))

/-- A row repaired (R248). -/
def repairRow (s : State) (k c r : Nat) (lastSpare : Bool) : State :=
  let pg := hbmPage s.code k
  if repairDue s k c r then
    let s0 := moveRow { s with rowErrs := tdel s.rowErrs (rowKey k c r) } (rowKey k c r)
    let s1 := tally (raise (bump s0 pg ⟨0x120, 0, 16⟩ 1) pg 8) pg 9 1
    if lastSpare then raise (wr s1 pg ⟨0x120, 32, 32⟩ (rd s1 pg ⟨0x120, 32, 32⟩ ||| (1 <<< c))) pg 9 else s1
  else s

/-- Whether a channel of stack k is retiring or retired (R263). -/
def stackSpared (s : State) (k : Nat) : Bool := regGet s (hbmPage s.code k * 4096 + 0x110) != 0

/-- Retirement of a channel begins: its MIRRORING bit (R249). -/
def startMirror (s : State) (k c : Nat) : State :=
  let pg := hbmPage s.code k
  wr s pg ⟨0x110, 32 + c, 1⟩ 1

/-- Whether a stored byte's address lies in channel c of stack k. -/
def inChannel (code : OrderCode) (k c a : Nat) : Bool :=
  decide (a < hbmEnd code) && hbmStack code a == k && hbmChannel a == c

/-- Whether a stored byte's address is where the reserve of stack k lies: the last frames of the next stack, those of a channel retired
there being kept in turn one stack on (R249). -/
def inReserve (s : State) (k a : Nat) : Bool :=
  let n := stackCount s.code
  let frame := a / frameSize / n
  decide (a < hbmEnd s.code) &&
    ((hbmStack s.code a == (k + 1) % n && decide (31744 ≤ frame) && !retired s a) ||
     (hbmStack s.code a == (k + 2) % n && decide (32736 ≤ frame) && regGet s (hbmPage s.code ((k + 1) % n) * 4096 + 0x110) % 2 ^ 32 != 0))

/-- The error pattern that a copy through the guard code writes: correctable errors corrected, others preserved (R249). -/
def copiedPat (e : List (Nat × Byte)) : List (Nat × Byte) := match guardDecode e with | .corrected p v => patCorrect e p v | _ => e

/-- Every share of a channel copied to the reserve, correctable errors corrected and counted, uncorrectable ones with it (R229, R249). -/
def copyShares (s : State) (k c : Nat) : State :=
  let ms := s.mem.filter (fun e => inChannel s.code k c e.1)
  let gs := s.guard.filter (fun e => inChannel s.code k c (e.1 * 32))
  let fixed := (gs.filter (fun e => copiedPat e.2 != e.2)).map (fun e => e.1 * 32)
  let s0 := { s with mem := s.mem.filter (fun e => !inReserve s k e.1), guard := s.guard.filter (fun e => !inReserve s k (e.1 * 32)) }
  let s1 := ms.foldl (fun (t : State) (e : Nat × Byte) =>
    { t with mem := tput 0 t.mem (storageAddr t (reserveAddr t.code e.1)) e.2 }) s0
  let s2 := gs.foldl (fun (t : State) (e : Nat × List (Nat × Byte)) =>
    { t with guard := tput [] t.guard (storageAddr t (reserveAddr t.code (e.1 * 32)) / 32) (copiedPat e.2) }) s1
  countWords s2 (xPage 0 0x0C) fixed

/-- The copy of a retiring channel ends: RETIRED, and the record (R249, R497). -/
def finishRetire (s : State) (k : Nat) : State :=
  let pg := hbmPage s.code k
  match (List.range 32).find? (fun c => rd s pg ⟨0x110, 32 + c, 1⟩ == 1) with
  | none => s
  | some c =>
    let s1 := copyShares s k c
    let s2 := wr (wr s1 pg ⟨0x110, c, 1⟩ 1) pg ⟨0x110, 32 + c, 1⟩ 0
    let s3 := putRecord s2 { s2.boot.rcd with retired := tput 0 s2.boot.rcd.retired k (rd s2 pg ⟨0x110, 0, 32⟩) }
    tally (raise s3 pg 10) pg 10 1

/-- A channel that has failed uncorrectably: before it is retired, or as the second of its stack, it degrades the stack; a retired channel
is out of use (R250). -/
def channelFails (s : State) (pg c : Nat) : State :=
  match (List.range (stackCount s.code)).find? (fun k => hbmPage s.code k == pg) with
  | none => s
  | some k => if rd s pg ⟨0x110, c, 1⟩ = 1 then s else degradeStack s k

/-- A bridge link that has reached its error limit: a lane spared, or the link down (R265). -/
def bridgeLimit (s : State) (die n : Nat) : State × Bool :=
  let pg := cPage die 0x102
  let st : FRef := ⟨0x100, 2 * n, 2⟩
  let sp : FRef := ⟨0x108, 4 * n, 4⟩
  if rd s pg st = 2 then (s, false)
  else if 0 < rd s pg sp then (raise (wr (wr s pg sp (rd s pg sp - 1)) pg st 1) pg 8, false)
  else (raise (wr s pg st 2) pg 9, true)

/-- A link that has reached its guard-code error limit (R264, R265, R440). A link between neighbours has one set of spare lanes, which the
bridge pages of both its dies show. -/
def linkLimit (s : State) (die : Nat) (l : LinkId) : State :=
  match l with
  | .mesh n =>
    let pg := cPage die 0x101
    if rd s pg ⟨0x108, n.val, 1⟩ = 1 then s else tally (raise (wr s pg ⟨0x108, n.val, 1⟩ 1) pg 8) pg 16 1
  | .horizontal => (bridgeLimit (bridgeLimit s die 0).1 (die ^^^ 1) 0).1
  | .vertical => (bridgeLimit (bridgeLimit s die 1).1 (die ^^^ 2) 1).1
  | .site j =>
    match bridgeLimit s die (2 + j.val) with
    | (s1, down) =>
      match (stackSites s.code).findIdx? (· == 4 * die + j.val) with
      | some k => if down then degradeStack s1 k else s1
      | none => s1

/-- CABINET_FILL_COMPLETE (R230). -/
def execCabinetFillComplete (g : GalRef) (s : State) : Host.Outcome State Fault Refusal :=
  .next (alive s (fun t => if galThere t g then fillDone t (galRefPage g) else t))
/-- NAP_READ_PASS_COMPLETE (R455). -/
def execNapReadPassComplete (g : GalRef) (s : State) : Host.Outcome State Fault Refusal :=
  .next (alive s (fun t => if galThere t g then napDone t (galRefPage g) else t))
/-- ROW_REPAIR (R248). Which words a row holds is JEDEC's (notes/assumptions/22). -/
def execRowRepair (stack : Nat) (channel : Fin 32) (row : Nat) (lastSpare : Bool) (s : State) : Host.Outcome State Fault Refusal :=
  if stack < stackCount s.code then .next (alive s (fun t => repairRow t stack channel.val row lastSpare)) else .refused .noSuchUnit
/-- RETIREMENT_COPY_COMPLETE (R249). -/
def execRetirementCopyComplete (stack : Nat) (s : State) : Host.Outcome State Fault Refusal :=
  if stack < stackCount s.code then .next (alive s (fun t => finishRetire t stack)) else .refused .noSuchUnit
/-- ESCAPE (R264): routing alters timing only; the move is counted (R529). -/
def execEscape (die : Fin 4) (network : Fin 4) (s : State) : Host.Outcome State Fault Refusal :=
  .next (alive s (fun t => tally t (cPage die.val 0x101) (10 + network.val) 1))
/-- LINK_ERROR_LIMIT (R440). -/
def execLinkErrorLimit (die : Fin 4) (link : LinkId) (s : State) : Host.Outcome State Fault Refusal :=
  .next (alive s (fun t => linkLimit t die.val link))

end Sys2Proof.Machine
end

