-- ==== Sys2Proof/Machine/Resets.lean ====
section
/-! DEFINITION. Gallery resets that meet work under way (R242, R291, R303, R485, R486): a rotation breaks, a commit fails. -/

namespace Sys2Proof.Machine

/-- Whether a gallery holds a part of a commit whose gate has opened (R285, R291). -/
def holdsCommit (s : State) (p g : Nat) : Bool :=
  let x := (partGet s p).stp
  (match x.job with | some (f, c, k) => f && c && k != 0 | none => false) && !x.dead && (commitsOf s p).any (fun e => e.1 == g)

/-- After a reset of gallery g that failed the commit: EV_VEC_COMMIT_FAILED with ERR_INFO on its control page, whose registers the reset
has returned to their values; s is the state before (R291; no code is named: DESIGN CHOICE, notes/assumptions/118). -/
def noteLost (s t : State) (g : Nat) : State :=
  match pageOwner s (galPage g) with
  | some p => if holdsCommit s p g then raise (recordErr t (galPage g) 0x06 (some p) 0 false 0) (galPage g) 18 else t
  | none => t

/-- A gallery about to be reset: the commit it holds a part of fails on the module, and the rotation it is a member of ends (R242,
R291). -/
def loseGallery (s : State) (g : Nat) : State :=
  let s1 := match pageOwner s (galPage g) with
    | some p => if holdsCommit s p g then commitFail s p g 0 else s
    | none => s
  breakRings s1 g

/-- A G request carried out (R485, R486); BUSY clears when the cabinet fill has completed. -/
def gReset (s : State) : State :=
  let g := resetTarget s
  let s1 := saveConfig (loseGallery s g) g
  noteLost s (galleryReset { s1 with power := { s1.power with gBusy := true } } (galPage g) .g) g

/-- G_REQUEST (R486). -/
def execGRequest (s : State) : Host.Outcome State Fault Refusal :=
  .next (alive s (fun t => if resetAsked t 2 then gReset t else t))

end Sys2Proof.Machine
end

