-- ==== Sys2Proof/Machine/Partitions.lean ====
section
/-! DEFINITION. Partition requests (R295-R305, R327, R460, R498): each row carries out the request that PART_REQ holds. -/

namespace Sys2Proof.Machine

/-- PART_REQ.OP (R297). -/
def fPOP : FRef := ⟨0x700, 0, 4⟩
/-- PART_REQ.PARTITION. -/
def fPPART : FRef := ⟨0x700, 4, 6⟩
/-- PART_REQ.BUSY. -/
def fPBUSY : FRef := ⟨0x700, 17, 1⟩
/-- PART_REQ.RESULT. -/
def fPRESULT : FRef := ⟨0x700, 20, 4⟩
/-- PART_REQ_MEM.FRAMES. -/
def fRQFRAMES : FRef := ⟨0x728, 0, 20⟩
/-- PART_REQ_MEM.FLASH. -/
def fRQFLASH : FRef := ⟨0x728, 20, 23⟩
/-- PART_REQ_MEM.DEADLINE. -/
def fRQDEADLINE : FRef := ⟨0x728, 43, 1⟩
/-- PART_REQ_L1.AIDX. -/
def fRQAIDX : FRef := ⟨0x730, 0, 19⟩
/-- PART_REQ_L1.SLOT. -/
def fRQSLOT : FRef := ⟨0x730, 20, 4⟩
/-- HBM_CFG.RESERVE_EN (R263). -/
def fRESERVE : FRef := ⟨0x108, 9, 1⟩

/-- A word of the request under way, as its GO found it (R298). -/
def reqWord (s : State) (off : Nat) : Nat :=
  match s.boot.partReq with
  | [] => regGet s (rootPage * 4096 + off)
  | ws => ws.getD ((off - 0x700) / 8) 0

/-- A field of the request under way. -/
def rq (s : State) (f : FRef) : Nat := bits (reqWord s f.off) f.lo f.w

/-- The galleries a request names, ascending (R297). -/
def askedGals (s : State) : List Nat :=
  (List.range 4).flatMap (fun j => (setOf 64 (reqWord s (0x708 + 8 * j))).map (fun i => 64 * j + i))

/-- The results of R300. -/
inductive PartResult where
  | done | state | resource | encoding | owned
  deriving DecidableEq, Repr

/-- The code of a result (R300). -/
def partResultCode (r : PartResult) : Nat :=
  match r with
  | .done => 0 | .state => 1 | .resource => 2 | .encoding => 3 | .owned => 4

/-- The end of a request: RESULT, BUSY 0, EV_PART_REQ_DONE, the journal and the Ledger (R297, R506, R529). -/
def requestEnd (s : State) (r : PartResult) : State :=
  let op := rq s fPOP
  let s1 := raise (wr (wr s rootPage fPRESULT (partResultCode r)) rootPage fPBUSY 0) rootPage 8
  let s2 := if 1 ≤ op ∧ op ≤ 9 then tally s1 rootPage (op - 1) 1 else s1
  let s3 := journalClose (if r = .done then s2 else tally s2 rootPage 9 1) 1
  { s3 with boot := { s3.boot with partReq := [] } }

/-- The next epoch of partition p with its record and its watermark (R298, R299, R498). -/
def issueEpoch (s : State) (p : Nat) : State × Nat :=
  let x := partGet s p
  let w := tget 0 s.boot.rcd.marks p
  let n := if x.lastEpoch = 0 then w else (x.lastEpoch + 1) % 2 ^ 32
  let e := if n = 0 then 1 else n
  let s1 := if w ≤ e + 1 then putRecord s { s.boot.rcd with marks := tput 0 s.boot.rcd.marks p (w + 4096) } else s
  (wr (partPut s1 p { x with lastEpoch := e }) rootPage (fPEPOCH p) e, e)

/-- BLK_EPOCH of the four pages of a gallery (R301). -/
def putEpoch (s : State) (e g : Nat) : State := (fourPages (galPage g)).foldl (fun t pg => wr t pg fEPOCH e) s

/-- BLK_OWNER of the four pages of a gallery (R295, R299). -/
def putOwner (s : State) (o : Option Nat) (g : Nat) : State :=
  (fourPages (galPage g)).foldl (fun t pg => wr (wr t pg fOWNER (o.getD 0)) pg fASSIGNED (b2n o.isSome)) s

/-- The lengths in the partition root (R297). -/
def showPart (s : State) (p : Nat) : State :=
  let x := partGet s p
  wr (wr (wr s rootPage (fPGALS p) (partGals s p).length) rootPage (fPFRAMES p) x.alloc.length) rootPage (fPFLASH p) x.flash.length

/-- Whether an HBM frame can be given to a partition: free, and outside the sparing reserve (R244, R247, R250, R448). -/
def frameFree (s : State) (f : Nat) : Bool :=
  let n := stackCount s.code
  frameOwnerOf s f == 0x7F && !(decide (31744 ≤ f / n) && rd s (hbmPage s.code (f % n)) fRESERVE == 1)

/-- Up to n items of [i, i + fuel) that satisfy a test, ascending. -/
def lowest (ok : Nat → Bool) (fuel i n : Nat) : List Nat :=
  match fuel with
  | 0 => []
  | k + 1 => if n = 0 then [] else if ok i then i :: lowest ok k (i + 1) (n - 1) else lowest ok k (i + 1) n

/-- The lowest free HBM frames (R244). -/
def freeFrames (s : State) (n : Nat) : List Nat := lowest (frameFree s) (stackCount s.code * 32768) 0 n

/-- The lowest free flash frames (R299). -/
def freeFlash (s : State) (n : Nat) : List Nat :=
  lowest (fun f => tget 0x7F s.flashOwner f == 0x7F && !s.boot.rcd.failedFlash.contains f) (2 ^ 22) 0 n

/-- Frames appended to a partition's allocation list, zero-filled, with their owner-table entries (R251, R448). -/
def giveFrames (s : State) (p : Nat) (fs : List Nat) : State :=
  let s1 := fs.foldl (fun t f => { zeroFrame t f with frameOwner := tput 0x7F t.frameOwner f p }) s
  let x := partGet s1 p
  partPut s1 p { x with alloc := x.alloc ++ fs.map ListEntry.frame }

/-- Flash frames appended to a partition's flash list, zero-filled (R251). -/
def giveFlash (s : State) (p : Nat) (fs : List Nat) : State :=
  let s1 := fs.foldl (fun t f => { zeroFill t (flashBase + f * frameSize) frameSize with flashOwner := tput 0x7F t.flashOwner f p }) s
  let x := partGet s1 p
  partPut s1 p { x with flash := x.flash ++ fs.map ListEntry.frame }

/-- The owner entry of the frame of a removed list entry, of n bits, freed (R251, R448). -/
def freeEntry (n : Nat) (own : Tab Nat) (e : ListEntry) : Tab Nat :=
  match e with
  | .word w => if w.getLsbD 31 then tdel own (bits w.toNat 0 n) else own
  | .damaged _ => own

/-- The last n HBM and m flash entries of a partition's lists removed (R299). -/
def dropFrames (s : State) (p n m : Nat) : State :=
  let x := partGet s p
  let a := x.alloc.length - n
  let b := x.flash.length - m
  let s1 := partPut s p { x with alloc := x.alloc.take a, flash := x.flash.take b }
  { s1 with frameOwner := (x.alloc.drop a).foldl (freeEntry 19) s1.frameOwner, flashOwner := (x.flash.drop b).foldl (freeEntry 22) s1.flashOwner }

/-- How many galleries the deadline partitions own (R327). -/
def deadlineGals (s : State) : Nat :=
  ((List.range 64).filter (fun q => rd s rootPage (fPDEADLINE q) == 1)).foldl (fun n q => n + (partGals s q).length) 0

/-- Whether a gallery can be taken: unowned and not failed (R299, R300). -/
def canTake (s : State) (g : Nat) : Bool := (pageOwner s (galPage g)).isNone && !galFailed s g

/-- The refusal of a request of partition p for the galleries it names (R300): OWNED where one belongs to another partition, or has failed
and was to be taken; STATE where one is not in the state needed, unowned for `take`, else owned by p (notes/assumptions/29). -/
def galsRefusal (s : State) (p : Nat) (take : Bool) (gs : List Nat) : Option PartResult :=
  let own := fun (g : Nat) => pageOwner s (galPage g)
  if gs.any (fun g => ((own g).isSome && own g != some p) || (take && galFailed s g)) then some .owned
  else if gs.any (fun g => (own g).isSome == take) then some .state
  else none

/-- The step of partition p as its root and its lead gallery hold it, on gallery g (R225, R320). -/
def joinStep (s : State) (p g : Nat) : State :=
  let x := (partGet s p).stp
  let s1 := wr (wr s (galPage g) fSTEP (rd s rootPage (fPSTEP p))) (cenPage g) fCENSTEP (rd s rootPage (fPSTEP p))
  wr (wr s1 (cenPage g) fCLOSED (b2n x.closed)) (cenPage g) fLASTFIN (match leadOf s p with | some h => rd s (cenPage h) fLASTFIN | none => 0)

/-- A gallery taken by CREATE or GROW: a G reset with its fill, the event of a stale gallery that is STOPPED again, owner, epoch, and
STALE 0 (R299, R303, R304). -/
def takeGallery (s : State) (p e g : Nat) : State :=
  let pg := galPage g
  let s1 := galleryReset s pg .g
  let s2 := staleEvent (galPut s1 pg { galIdle with fill := .none }) pg
  wr (putEpoch (putOwner s2 (some p) g) e g) pg fSTALE 0

/-- An ASLEEP gallery brought to STOPPED before an epoch advances (R298). -/
def wakeNow (s : State) (g : Nat) : State :=
  let pg := galPage g
  if blkState s pg = stAsleep then
    let s1 := if rd s pg fLOWPWR = 0 then s else leaveLow s pg
    if (galGet s1 pg).fill = .wake then fillDone s1 pg else napDone s1 pg
  else s

/-- A gallery that leaves a partition: no owner, and held in Sleep (R295, R299). -/
def releaseGallery (s : State) (g : Nat) : State := holdAsleep (putOwner s none g) (galPage g)

/-- CREATE (R299). PART_C.STEP mirrors the lead gallery's GC_STATUS.STEP, which the G reset leaves, and every gallery holds it (R297,
R320). -/
def partCreate (s : State) (p : Nat) : State :=
  let gs := askedGals s
  let n := rq s fRQFRAMES
  let dl := rq s fRQDEADLINE
  if rd s rootPage (fPSTATE p) ≠ 0 then requestEnd s .state
  else if gs = [] ∨ n ≤ rq s fRQAIDX then requestEnd s .encoding
  else if (galsRefusal s p true gs).isSome then requestEnd s ((galsRefusal s p true gs).getD .owned)
  else if dl = 1 ∧ 128 < deadlineGals s + gs.length then requestEnd s .resource
  else
    let fs := freeFrames s n
    let fl := freeFlash s (rq s fRQFLASH)
    if fs.length < n ∨ fl.length < rq s fRQFLASH then requestEnd s .resource
    else
      let s0 := partPut s p { partNone with lastEpoch := (partGet s p).lastEpoch, ctxStopped := (partGet s p).ctxStopped }
      match issueEpoch s0 p with
      | (s1, e) =>
        let s2 := gs.foldl (fun t g => takeGallery t p e g) s1
        let s3 := wr s2 (cenPage (gs.headD 0)) fLEAD 1
        let s4 := giveFlash (giveFrames s3 p fs) p fl
        let s5 := wr (wr s4 rootPage (fPL1 p) (rq s fRQAIDX)) rootPage (fPL1SLOT p) (rq s fRQSLOT)
        let step := rd s5 (galPage (gs.headD 0)) fSTEP
        let s6 := wr (wr (wr s5 rootPage (fPDEADLINE p) dl) rootPage (fPSTEP p) step) rootPage (fPSTATE p) 2
        requestEnd (showPart (clearGrant (gs.foldl (fun t g => joinStep t p g) s6) p) p) .done

/-- GROW (R299). -/
def partGrow (s : State) (p : Nat) : State :=
  let gs := askedGals s
  let n := rq s fRQFRAMES
  if rd s rootPage (fPSTATE p) ≠ 2 then requestEnd s .state
  else if (galsRefusal s p true gs).isSome then requestEnd s ((galsRefusal s p true gs).getD .owned)
  else if rd s rootPage (fPDEADLINE p) = 1 ∧ 128 < deadlineGals s + gs.length then requestEnd s .resource
  else
    let fs := freeFrames s n
    let fl := freeFlash s (rq s fRQFLASH)
    if fs.length < n ∨ fl.length < rq s fRQFLASH then requestEnd s .resource
    else
      let s1 := gs.foldl (fun t g => joinStep (takeGallery t p (rd s rootPage (fPEPOCH p)) g) p g) s
      requestEnd (showPart (giveFlash (giveFrames s1 p fs) p fl) p) .done

/-- Whether every page of a gallery is STOPPED or ASLEEP (R298, R302). -/
def quietGallery (s : State) (g : Nat) : Bool :=
  (fourPages (galPage g)).all (fun pg => blkState s pg == stStopped || blkState s pg == stAsleep)

/-- A gallery removed by SHRINK: a G reset with its fill, the event of a stale gallery that is STOPPED again, and no owner (R299, R304). -/
def dropGallery (s : State) (g : Nat) : State :=
  let pg := galPage g
  releaseGallery (staleEvent (noteLost s (galPut (galleryReset (loseGallery s g) pg .g) pg { galIdle with fill := .none }) g) pg) g

/-- SHRINK (R299). The results of its three refusals are the model's (notes/assumptions/29). -/
def partShrink (s : State) (p : Nat) : State :=
  let gs := askedGals s
  let own := partGals s p
  let n := rq s fRQFRAMES
  let m := rq s fRQFLASH
  let x := partGet s p
  if rd s rootPage (fPSTATE p) ≠ 2 then requestEnd s .state
  else if (galsRefusal s p false gs).isSome then requestEnd s ((galsRefusal s p false gs).getD .owned)
  else if own.all gs.contains then requestEnd s .resource
  else if own.all (quietGallery s) = false ∨ gs.any (fun g => rd s (cenPage g) fLEAD == 1) = true then requestEnd s .state
  else if x.alloc.length < n ∨ x.flash.length < m ∨ x.alloc.length - n ≤ rd s rootPage (fPL1 p) then requestEnd s .encoding
  else
    let s1 := gs.foldl dropGallery (own.foldl wakeNow s)
    match issueEpoch (dropFrames s1 p n m) p with
    | (s2, e) => requestEnd (showPart ((partGals s2 p).foldl (fun t g => putEpoch t e g) s2) p) .done

/-- START (R299, R362). -/
def partStart (s : State) (p : Nat) : State :=
  if rd s rootPage (fPSTATE p) ≠ 2 then requestEnd s .state
  else
    let s1 := partPut s p { partGet s p with ctxStopped := false }
    let s2 := wr ((partGals s1 p).foldl startGallery s1) rootPage (fPSTATE p) 3
    requestEnd s2 .done

/-- Whether a page has settled after a stop: neither RUNNING nor STOPPING. -/
def settled (s : State) (pg : Nat) : Bool := blkState s pg != stRunning && blkState s pg != stStopping

/-- The stop of a gallery's pages in the order of R66: a page is stopped once those before it have settled. -/
def stopPages (s : State) (pages : List Nat) : State :=
  match pages with
  | [] => s
  | pg :: r =>
    let s1 := blockPartStop (voidPart s pg) pg
    if settled s1 pg then stopPages s1 r else s1

/-- The T reset of a gallery with its fill (R299, R304): it is stale. -/
def resetGallery (s : State) (g : Nat) : State :=
  let pg := galPage g
  staleEvent (noteLost s (galPut (galleryReset (loseGallery s g) pg .t) pg { galIdle with fill := .none }) g) pg

/-- RESET, once everything has stopped (R299). LEAD is set again on the lowest-numbered gallery (R222, notes/assumptions/30). -/
def resetRest (s : State) (p : Nat) : State :=
  let gs := partGals s p
  let s1 := gs.foldl (fun t g => wr (resetGallery t g) (galPage g) fSTALE 0) (gs.foldl wakeNow s)
  match issueEpoch s1 p with
  | (s2, e) =>
    let s3 := gs.foldl (fun t g => putEpoch t e g) s2
    let s4 := match gs with | [] => s3 | g :: _ => wr s3 (cenPage g) fLEAD 1
    let x := partGet s4 p
    let s5 := partPut s4 p { x with saved := [], leads := [], stp := stepNone, coll := collNone }
    wr s5 rootPage (fPSTEP p) 0

/-- Whether every page of a partition has settled. -/
def partSettled (s : State) (p : Nat) : Bool := (partGals s p).all (fun g => (fourPages (galPage g)).all (settled s))

/-- The stop of a partition goes on; when every page has settled and the transport contexts are stopped, the STOP or RESET that
asked for it ends (R66, R299, R362). -/
def stopProgress (s : State) (p : Nat) : State :=
  let s1 := (partGals s p).foldl (fun t g => stopPages t (galPages (galPage g))) s
  let x := partGet s1 p
  if partSettled s1 p = true ∧ x.ctxStopped = true then
    let s2 := wr (partPut s1 p { x with stopping := false }) rootPage (fPSTATE p) 2
    requestEnd (if rq s fPOP = 6 then resetRest s2 p else s2) .done
  else s1

/-- Whether a session belongs to a partition's transport context (R362). -/
def inContext (p : Nat) (x : Sess) : Bool := x.role != .administrator && x.partition == p

/-- Whether every outbound message of a partition has been acknowledged or has failed (R362). -/
def contextQuiet (s : State) (p : Nat) : Bool := s.sess.all (fun e => !inContext p e.2 || e.2.tx == [])

/-- A stop of a partition begins (R299, R362). -/
def stopBegin (s : State) (p : Nat) : State :=
  let x := partGet s p
  stopProgress (partPut s p { x with stopping := true, ctxStopped := x.ctxStopped || contextQuiet s p }) p

/-- STOP (R299). -/
def partStop (s : State) (p : Nat) : State :=
  if (partGet s p).stopping then stopProgress s p
  else if rd s rootPage (fPSTATE p) ≠ 3 then requestEnd s .state
  else stopBegin s p

/-- RESET (R299). -/
def partReset (s : State) (p : Nat) : State :=
  if (partGet s p).stopping then stopProgress s p
  else if rd s rootPage (fPSTATE p) ≠ 2 ∧ rd s rootPage (fPSTATE p) ≠ 3 then requestEnd s .state
  else stopBegin s p

/-- Whether a partition owns a vector (R72). -/
def ownsVector (s : State) (p v : Nat) : Bool := bits (regGet s (vecAddr v)) 46 1 == 0 && bits (regGet s (vecAddr v)) 40 6 == p

/-- Whether the pages of the vectors that a partition owns are STOPPED: entries change owner only then (R55, R72). -/
def vectorsStopped (s : State) (p : Nat) : Bool :=
  ((List.range 4095).map (· + 1)).all (fun v => !ownsVector s p v || blkState s (vecAddr v / 4096) == stStopped)

/-- The vectors of a partition made unowned and invalid (R299). -/
def dropVectors (s : State) (p : Nat) : State :=
  ((List.range 4095).map (· + 1)).foldl (fun t v =>
    let w := regGet t (vecAddr v)
    if ownsVector t p v then regPut t (vecAddr v) (setBits (setBits (setBits w 40 6 0) 46 1 1) 48 1 0) else t) s

/-- DESTROY (R299). STATE while a page of the partition or of one of its vectors is not STOPPED (R55, R302; DEDUCED, notes/assumptions/29).
STALE stays: ADMIT and the requests that take a gallery clear it (R303). -/
def partDestroy (s : State) (p : Nat) : State :=
  if rd s rootPage (fPSTATE p) ≠ 2 ∨ vectorsStopped s p = false ∨ (partGals s p).all (quietGallery s) = false then requestEnd s .state
  else
    let gs := partGals s p
    let s1 := gs.foldl resetGallery (gs.foldl wakeNow s)
    let s2 := dropFrames (gs.foldl releaseGallery s1) p (partGet s1 p).alloc.length (partGet s1 p).flash.length
    let ids := (s2.sess.filter (fun e => inContext p e.2)).map (·.1)
    let s3 := ids.foldl (fun t i => closeOut t i 6) (dropVectors s2 p)
    let s4 := (issueEpoch s3 p).1
    let s5 := partPut s4 p { partNone with lastEpoch := (partGet s4 p).lastEpoch, ctxStopped := true }
    let s6 := wr (wr (wr s5 rootPage (fPDEADLINE p) 0) rootPage (fPSTEP p) 0) rootPage (fPSTATE p) 0
    requestEnd (showPart (clearGrant (wr (wr s6 rootPage (fPL1 p) 0) rootPage (fPL1SLOT p) 0) p) p) .done

/-- SET_L1 (R299). -/
def partSetL1 (s : State) (p : Nat) : State :=
  if rd s rootPage (fPSTATE p) ≠ 2 then requestEnd s .state
  else if (partGet s p).alloc.length ≤ rq s fRQAIDX then requestEnd s .encoding
  else
    requestEnd (wr (wr s rootPage (fPL1 p) (rq s fRQAIDX)) rootPage (fPL1SLOT p) (rq s fRQSLOT)) .done

/-- A saved configuration written back (R305 step 3). -/
def loadConfig (s : State) (g : Nat) (rs : List (Nat × Word64)) : State :=
  rs.foldl (fun t r => regPut t (galPage g * 4096 + r.1) r.2.toNat) s

/-- LEAD set again where the gallery admitted was the partition's lead and no copy of CEN_CFG was saved (R305 step 3): on the
lowest-numbered gallery that is not stale, else on the one admitted (notes/assumptions/31). -/
def mendLead (s : State) (p g : Nat) : State :=
  let x := partGet s p
  let gs := partGals s p
  if x.leads.contains g = false ∨ ((tfind x.saved g).getD []).any (fun c => c.1 == 0x3100) = true then s
  else wr s (cenPage ((gs.find? (fun k => rd s (galPage k) fSTALE == 0)).getD g)) fLEAD 1

/-- Every caddy with all slots FREE and HEAD = TAIL = 0 (R305 step 4). -/
def clearCaddies (s : State) (g : Nat) : State := galPut s (galPage g) { galGet s (galPage g) with caddies := [] }

/-- The begun commands of a list completed with CANCELLED, the lowest index of each queue first (R305 step 5). -/
def cancelList (s : State) (g : Nat) (cs : List Begun) : State :=
  cs.foldl (fun t c => completeCmd t g c.queue c.index cCANCEL c.attempts 0 c.bytes true) s

/-- The begun commands of a queue in index order from DONE. -/
def begunOrder (s : State) (g q : Nat) : List Begun :=
  let d := rd s (galPage g) (fQDONE q)
  ((galGet s (galPage g)).begun.filter (fun c => c.queue == q)).mergeSort
    (fun a b => decide ((a.index + 2 ^ 32 - d) % 2 ^ 32 ≤ (b.index + 2 ^ 32 - d) % 2 ^ 32))

/-- ADMIT of one gallery (R305 steps 2 to 6). -/
def admitOne (s : State) (p g : Nat) : State :=
  let x := partGet s p
  let s1 := putEpoch s (rd s rootPage (fPEPOCH p)) g
  let s2 := joinStep (mendLead (loadConfig s1 g ((tfind x.saved g).getD [])) p g) p g
  let s3 := clearCaddies (partPut s2 p { partGet s2 p with saved := tdel x.saved g, leads := x.leads.filter (· != g) }) g
  let s4 := (List.range 4).foldl (fun t q => cancelList t g (begunOrder t g q)) s3
  let s5 := wr s4 (galPage g) fSTALE 0
  if rd s5 rootPage (fPSTATE p) = 3 ∧ tfind x.saved g ≠ some [] then startGallery s5 g else s5

/-- Whether a gallery is stale, STOPPED on all four pages, and filled (R305 step 1). -/
def admissible (s : State) (g : Nat) : Bool :=
  rd s (galPage g) fSTALE == 1 && allPages s (galPage g) stStopped && decide ((galGet s (galPage g)).fill = .none)

/-- ADMIT (R299, R305). -/
def partAdmit (s : State) (p : Nat) : State :=
  let gs := askedGals s
  if rd s rootPage (fPSTATE p) ≠ 2 ∧ rd s rootPage (fPSTATE p) ≠ 3 then requestEnd s .state
  else if gs = [] then requestEnd s .encoding
  else if (galsRefusal s p false gs).isSome then requestEnd s ((galsRefusal s p false gs).getD .owned)
  else if gs.all (admissible s) = false then requestEnd s .state
  else requestEnd (gs.foldl (fun t g => admitOne t p g) s) .done

end Sys2Proof.Machine
end

