-- ==== Sys2Proof/Machine/Sessions.lean ====
section
/-! DEFINITION. Opening, keeping and closing sessions (R343-R354, R362, R414): session control, acknowledgement timers,
retransmission and congestion state. -/

namespace Sys2Proof.Machine

/-- A role by its code (R345). -/
def roleOf (c : Nat) : Option Role :=
  match c with
  | 1 => some .administrator
  | 2 => some .tenant
  | 3 => some .peer
  | _ => none

/-- Whether the authorisation table gives a key a role, and for tenants and peers a partition (R347). -/
def authorised (s : State) (key : List Byte) (role part : Nat) : Bool :=
  s.boot.rcd.auth.any (fun e => e.key == key && e.role == role && (role == 1 || e.partition == part))

/-- An SC_INIT payload (R345). -/
def initBytes (i : ScInit) : List Byte :=
  leBytes 1 1 ++ leBytes 2 i.iSession.toNat ++ [i.role, i.partition] ++ leBytes 3 0 ++ padTo 16 i.nonce ++ padTo 56 i.x448 ++
    padTo 57 i.ed448 ++ leBytes 3 0

/-- An SC_ACCEPT payload but for its signature (R345). -/
def acceptBytes (rSession iSession : Nat) (nonce x448 ed448 : List Byte) : List Byte :=
  leBytes 1 2 ++ leBytes 2 rSession ++ leBytes 2 iSession ++ leBytes 3 0 ++ padTo 16 nonce ++ padTo 56 x448 ++ padTo 57 ed448 ++ leBytes 3 0

/-- The 64 bytes of keys of a session (R346). -/
def sessionSecret (shared transcript : List Byte) : List Byte :=
  Config.shake256 ([0x5A, 0x5A, 0x4B, 0x31] ++ shared ++ transcript) 64

/-- The initial cwnd of an X-die in bytes (R354, R372). -/
def cwndInit (s : State) (x : Nat) : Nat := rd s (ztPage x) ⟨0x108, 16, 16⟩ * 1024

/-- A session slot as it is filled (R344, R350, R352, R354; notes/assumptions/53). -/
def sessNew (s : State) (x : Nat) (ph : SessPhase) (role : Role) (part port : Nat) (address : List Byte) (remote : Half)
    (initiator : Bool) : Sess :=
  { phase := ph, role := role, partition := part, port := port, address := address, udpPort := Config.udpPort s.free, remote := remote, initiator := initiator, key := []
    transcript := [], secret := [], openedAt := s.now, pnTx := 0, pnRx := 0, rxNext := 1, rxSack := 0, sinceAck := 0, owedAt := 0, ceSeen := false
    tsLast := 0, held := [], failed := [], relays := [], reads := [], txNext := 1, tx := [], rtags := [], srtt := 0, rttvar := 0, rto := 100000
    lastRx := s.now, lastTx := s.now, authAt := none, asker := none, cwnd := cwndInit s x, baseRtt := 2 ^ 32 - 1, alpha := 0
    ackedRt := 0, markedRt := 0, rtEnd := 0 }

/-- The lowest-numbered free slot of an X-die (R343, R344). -/
def freeSlot (s : State) (x : Nat) : Option Nat :=
  ((List.range (s.sess.length + 1)).map (fun k => x * 8192 + k)).find? (fun i =>
    decide (i < (x + 1) * 8192) && (sessGet s i).isNone)

/-- Whether a Zazel packet may come in on a port: the port is up (R337). -/
def accepts (s : State) (port : PortId) : Bool := portUp s port.xdie.val port.port.val && running s (portPage port.xdie.val port.port.val)

/-- SC_INIT received on a port from an address: a slot, which sends on that port, the keys and a signed SC_ACCEPT (R344-R347;
notes/assumptions/52). One that the table does not allow is not accepted. -/
def takeInit (s : State) (port : PortId) (i : ScInit) : State :=
  let x := port.xdie.val
  match roleOf i.role.toNat, freeSlot s x with
  | some role, some idx =>
    if x < xdieCount s.code ∧ accepts s port = true ∧ s.boot.active.isSome = true ∧ i.reserved = false ∧
        authorised s i.ed448 i.role.toNat i.partition.toNat = true ∧ i.partition.toNat < 64 then
      match nextFree s with
      | (s1, n) =>
        let acc := acceptBytes idx i.iSession.toNat (Config.nonce n) (Config.x448Public n) s.fuses.idKey
        let tr := Config.shake256 (initBytes i ++ acc) 64
        let x0 := sessNew s x .opening role i.partition.toNat port.port.val i.address i.iSession false
        let x1 := { x0 with key := i.ed448, transcript := tr, secret := sessionSecret (Config.x448Shared n i.x448) tr }
        let s2 := tally (sessPut s1 idx x1) (ztPage x) 24 1
        sendBare s2 idx (.scAccept (BitVec.ofNat 16 idx) i.iSession (acc ++ Config.ed448Sign [] tr))
    else s
  | _, _ => s

/-- The module's own SC_INIT, at a mailbox request (R344, R512): the slot that opens, if there is one. -/
def sendInit (s : State) (x port role part : Nat) (address : List Byte) (asker : Nat × Nat) : Option State :=
  match roleOf role, freeSlot s x with
  | some r, some idx =>
    match nextFree s with
    | (s1, n) =>
      let b := initBytes ⟨[], BitVec.ofNat 16 idx, BitVec.ofNat 8 role, BitVec.ofNat 8 part, Config.nonce n, Config.x448Public n,
        s.fuses.idKey, false⟩
      let x0 := sessNew s x .initiating r part port address 0xFFFF true
      let x1 := { x0 with transcript := b, secret := leBytes 8 n, asker := some asker }
      some (sendBare (sessPut s1 idx x1) idx (.scInit (BitVec.ofNat 16 idx) b))
  | _, _ => none

/-- A session becomes OPEN (R343, R344). -/
def openSession (s : State) (i : Nat) : State :=
  match sessGet s i with
  | none => s
  | some x =>
    let pg := ztPage (sessXdie i)
    raise (tally (wr (sessPut s i { x with phase := .opened }) pg fZTOPEN (rd s pg fZTOPEN + 1)) pg 32 1) pg 8

/-- The code of a role (R345). -/
def roleCode (r : Role) : Nat := match r with | .administrator => 1 | .tenant => 2 | .peer => 3

/-- SC_ACCEPT received by an initiating module: verified, the keys derived, and SC_CONFIRM sent (R344-R347, R512). A failure
frees the slot. -/
def takeAccept (s : State) (i : Nat) (a : ScAccept) : State :=
  match sessGet s i with
  | none => s
  | some x =>
    if x.phase = .initiating ∧ x.txNext = 1 ∧ accepts s a.port = true ∧ a.port.xdie.val = sessXdie i then
      let n := leNat x.secret
      let acc := acceptBytes a.rSession.toNat i a.nonce a.x448 a.ed448
      let tr := Config.shake256 (x.transcript ++ acc) 64
      if a.reserved = false ∧ authorised s a.ed448 (roleCode x.role) x.partition = true ∧ Config.ed448Verify a.ed448 [] tr a.signature = true then
        let x1 := { x with
          remote := a.rSession, key := a.ed448, transcript := tr, secret := sessionSecret (Config.x448Shared n a.x448) tr
          lastRx := s.now, asker := none }
        let s1 := tally (sessPut s i x1) (ztPage (sessXdie i)) 24 1
        let s2 := send s1 i (.scConfirm (BitVec.ofNat 16 i) (Config.ed448Sign [] tr))
        match x.asker with
        | some k => mailDone s2 k.1 k.2 mDONE (leBytes 2 i)
        | none => s2
      else closeSession s i 2
    else s

/-- SC_CONFIRM_TIMEOUT: no valid SC_CONFIRM within 1 s frees the slot without a message (R344). -/
def confirmTimeout (s : State) (i : Nat) : State :=
  match sessGet s i with
  | some x => if x.phase = .opening ∧ x.openedAt + 1000000000 ≤ s.now then closeSession s i 2 else s
  | none => s

/-- ACK_TIMER: an ACK, 2 µs after the first sequenced packet that none has acknowledged yet (R351). -/
def ackTimer (s : State) (i : Nat) : State :=
  match sessGet s i with
  | some x => if 1 ≤ x.sinceAck ∧ x.owedAt + 2000 ≤ s.now then sendAck s i else s
  | none => s

/-- ZT_SESS.IDLE_MS in ns (R372). -/
def idleTime (s : State) (i : Nat) : Nat := rd s (ztPage (sessXdie i)) ⟨0x110, 0, 16⟩ * 1000000
/-- ZT_SESS.KEEPALIVE_MS in ns. -/
def aliveTime (s : State) (i : Nat) : Nat := rd s (ztPage (sessXdie i)) ⟨0x110, 16, 16⟩ * 1000000

/-- IDLE_TIMEOUT (R349). -/
def idleTimeout (s : State) (i : Nat) : State :=
  match sessGet s i with
  | some x => if x.phase = .opened ∧ x.lastRx + idleTime s i ≤ s.now then closeOut s i 4 else s
  | none => s

/-- KEEPALIVE (R349). -/
def keepAlive (s : State) (i : Nat) : State :=
  match sessGet s i with
  | some x => if x.phase = .opened ∧ x.lastTx + aliveTime s i ≤ s.now then sendAck s i else s
  | none => s

/-- A packet sent again under a new PN (R350, R352): `counter` is 26 for a loss by SACK, 27 for a timeout. -/
def resend (s : State) (i : Nat) (k : TxPkt) (counter : Nat) : State :=
  match sessGet s i with
  | none => s
  | some x =>
    if rd s (ztPage (sessXdie i)) ⟨0x100, 32, 8⟩ ≤ k.retx then closeOut s i 3
    else if x.pnTx + 2 ≥ 2 ^ 48 then closeOut s i 5
    else
      let tx := x.tx.map (fun d => if d.seq = k.seq then { d with retx := d.retx + 1, sentAt := s.now } else d)
      let s1 := tally (transmit s i { x with tx := tx } k.body k.seq k.msg k.ends true) (ztPage (sessXdie i)) counter 1
      countSent s1 (sessXdie i) k.body

/-- RETRANSMISSION_TIMEOUT: the lowest unacknowledged packet again, a timeout after it was last sent, the timeout doubled, cwnd 8,192
(R352, R354). -/
def retxTimeout (s : State) (i : Nat) : State :=
  match sessGet s i with
  | none => s
  | some x =>
    match x.tx.find? (fun k => k.gone && !k.sacked) with
    | none => s
    | some k =>
      let top := rd s (ztPage (sessXdie i)) ⟨0x100, 16, 16⟩ * 1000000
      if s.now < k.sentAt + x.rto then s
      else resend (sessPut s i { x with rto := min top (2 * x.rto), cwnd := 8192 }) i k 27

/-- Whether inbound work of a partition is refused on an X-die because its transport context stops or has stopped (R362, R371). -/
def contextStopped (s : State) (x p : Nat) : Bool := (partGet s p).ctxStopped || (partGet s p).stopping || !running s (ztPage x)

/-- TRANSPORT_CONTEXT_STOPPED: every outbound message has been acknowledged or has failed; the stop that waits goes on (R362). -/
def contextDone (s : State) (p : Nat) : State :=
  let x := partGet s p
  if x.stopping = true ∧ x.ctxStopped = false ∧ contextQuiet s p = true then stopProgress (partPut s p { x with ctxStopped := true }) p
  else s

/-- The smoothed round trip and its variation after a measurement (R352; notes/assumptions/53). -/
def measured (s : State) (i : Nat) (x : Sess) (rtt : Nat) : Sess :=
  let first := x.baseRtt = 2 ^ 32 - 1 ∧ x.srtt = 0
  let d := if x.srtt < rtt then rtt - x.srtt else x.srtt - rtt
  let v := if first then rtt / 2 else x.rttvar - x.rttvar / 4 + d / 4
  let m := if first then rtt else x.srtt - x.srtt / 8 + rtt / 8
  { x with srtt := m, rttvar := v, rto := max (rd s (ztPage (sessXdie i)) ⟨0x100, 0, 16⟩ * 1000) (m + 4 * v) }

/-- on_ack of R354. The second part says which Ledger counter a cut of cwnd raises (R529). -/
def onAck (s : State) (i : Nat) (x : Sess) (acked marked rtt : Nat) : Sess × Option Nat :=
  let pg := ztPage (sessXdie i)
  let x1 := { x with ackedRt := x.ackedRt + acked, markedRt := x.markedRt + marked, baseRtt := min x.baseRtt rtt }
  if s.now < x.rtEnd then (x1, none)
  else
    let target := rd s pg ⟨0x108, 0, 16⟩ * 1000
    let f := x1.markedRt * 65536 / max 1 x1.ackedRt
    let alpha := ((x1.alpha : Int) + ((f : Int) - x1.alpha) / 16).toNat
    let slow := decide (x1.baseRtt + target < rtt)
    let c :=
      if 0 < x1.markedRt then x1.cwnd - x1.cwnd * alpha / 131072
      else if slow then x1.cwnd - x1.cwnd * (rtt - x1.baseRtt - target) / (2 * rtt)
      else x1.cwnd + 2 ^ rd s pg ⟨0x108, 60, 4⟩
    let top := rd s pg ⟨0x108, 32, 16⟩ * 1024
    ({ x1 with alpha := alpha, cwnd := min top (max 8192 c), ackedRt := 0, markedRt := 0, rtEnd := s.now + x1.srtt },
     if 0 < x1.markedRt then some 40 else if slow then some 41 else none)

/-- SC_INIT (R344). -/
def execScInit (port : PortId) (init : ScInit) (s : State) : Host.Outcome State Fault Refusal :=
  .next (alive s (fun t => takeInit t port init))
/-- SC_ACCEPT (R344). -/
def execScAccept (session : Half) (acc : ScAccept) (s : State) : Host.Outcome State Fault Refusal :=
  .next (alive s (fun t => takeAccept t session.toNat acc))
/-- SC_CONFIRM_TIMEOUT (R344). -/
def execScConfirmTimeout (session : Half) (s : State) : Host.Outcome State Fault Refusal :=
  .next (alive s (fun t => confirmTimeout t session.toNat))
/-- ACK_TIMER (R351). -/
def execAckTimer (session : Half) (s : State) : Host.Outcome State Fault Refusal := .next (alive s (fun t => ackTimer t session.toNat))
/-- RETRANSMISSION_TIMEOUT (R352). -/
def execRetransmissionTimeout (session : Half) (s : State) : Host.Outcome State Fault Refusal :=
  .next (alive s (fun t => retxTimeout t session.toNat))
/-- IDLE_TIMEOUT (R349). -/
def execIdleTimeout (session : Half) (s : State) : Host.Outcome State Fault Refusal := .next (alive s (fun t => idleTimeout t session.toNat))
/-- KEEPALIVE (R349). -/
def execKeepalive (session : Half) (s : State) : Host.Outcome State Fault Refusal := .next (alive s (fun t => keepAlive t session.toNat))
/-- TRANSPORT_CONTEXT_STOPPED (R362). -/
def execTransportContextStopped (p : Fin 64) (s : State) : Host.Outcome State Fault Refusal :=
  .next (alive s (fun t => contextDone t p.val))

end Sys2Proof.Machine
end

