-- ==== Sys2Proof/Machine/Multicast.lean ====
section
/-! DEFINITION. Multicast groups (R363-R366): what a node sends its children, holding and detaching, catching up and rejoining. -/

namespace Sys2Proof.Machine

/-- The group of X-die x with a number, with its place in the table. -/
def mcFind (s : State) (x group : Nat) : Option (Nat × Mcast) := s.mcast.find? (fun e => e.1 / 256 == x && e.2.group == group)

/-- The state with a group entry replaced. -/
def mcPut (s : State) (k : Nat) (m : Mcast) : State := { s with mcast := tins s.mcast k m }

/-- W in bytes (R363). -/
def mcWindow (m : Mcast) : Nat := m.wKib * 1024

/-- The offset beyond which no attached child may be sent a byte (R365). -/
def mcLimit (m : Mcast) : Nat :=
  match (m.children.filter (·.attached)).map (·.acked) with
  | [] => 0
  | a :: r => r.foldl min a + mcWindow m

/-- The highest offset sent to a child (R366). -/
def mcSent (m : Mcast) : Nat := m.children.foldl (fun n c => max n c.sent) 0

/-- The end of the bytes that could be sent to a child: those held without a gap from what it was sent. -/
def mcEnd (m : Mcast) (c : McastChild) : Nat := contiguous m.received c.sent

/-- Whether an attached child holds the group (R365). -/
def mcHolds (m : Mcast) (c : McastChild) : Bool := c.attached && decide (mcLimit m < mcEnd m c) && c.acked + mcWindow m == mcLimit m

/-- The time since when each child has held the group, brought up to date (R365). -/
def mcNote (s : State) (m : Mcast) : Mcast :=
  { m with children := m.children.map (fun c =>
      { c with heldSince := if mcHolds m c then some (c.heldSince.getD s.now) else none }) }

/-- The EPOCH a multicast message carries: the group entry gives none, so it is a free value (R360, R363; notes/assumptions/54). -/
def mcEpoch (s : State) : State × Nat :=
  match nextFree s with
  | (t, n) => (t, (Config.freeWord n).toNat % 2 ^ 32)

/-- The stream bytes [lo, hi) sent to a child on its session, as segments (R364); none where they cannot be read. -/
def mcSegments (s : State) (m : Mcast) (i lo hi : Nat) : Option State :=
  match vload s m.partition (m.base + lo) (hi - lo), mcEpoch s with
  | .ok bs, (s1, e) =>
    some (sendMessage s1 i ((cut ((hi - lo) / 8192 + 1) 0 (hi - lo) 8192).map (fun r =>
      .mcastSeg (BitVec.ofNat 16 i) e m.group (lo + r.1) ((bs.drop r.1).take (r.2 - r.1)))))
  | .error _, _ => none

/-- Child number n sent what it may be sent now. -/
def mcFeed (s : State) (k n : Nat) : State :=
  match tfind s.mcast k with
  | none => s
  | some m =>
    match m.children[n]? with
    | none => s
    | some c =>
      let hi := min (mcEnd m c) (mcLimit m)
      let i := c.session.toNat
      if c.attached = true ∧ c.sent < hi ∧ sessOpen s i = true ∧ contextStopped s (k / 256) m.partition = false then
        (mcSegments (mcPut s k { m with children := setAt m.children n { c with sent := hi } }) m i c.sent hi).getD s
      else s

/-- Every child of a group sent what it may be sent now (R364, R365). -/
def mcPump (s : State) (k : Nat) : State :=
  let s1 := (List.range 8).foldl (fun t n => mcFeed t k n) s
  match tfind s1.mcast k with
  | none => s1
  | some m => mcPut s1 k (mcNote s1 m)

/-- The offset below which a session has acknowledged every byte of a group that it was sent (R365). -/
def mcAcked (s : State) (i group sent : Nat) : Nat :=
  match sessGet s i with
  | none => sent
  | some x => x.tx.foldl (fun n k =>
      match k.body with | .mcastSeg _ _ g o _ => if g = group ∧ k.sacked = false then min n o else n | _ => n) sent

/-- The children on a session after acknowledgements on it; the windows may have moved (R365). -/
def mcAckIn (s : State) (i : Nat) : State :=
  (s.mcast.filter (fun e => e.1 / 256 == sessXdie i && e.2.children.any (fun c => c.attached && c.session.toNat == i))).foldl
    (fun t e =>
      match tfind t.mcast e.1 with
      | none => t
      | some m =>
        let up := fun (c : McastChild) => if c.session.toNat = i ∧ c.attached = true then { c with acked := mcAcked t i m.group c.sent } else c
        mcPump (mcPut t e.1 { m with children := m.children.map up }) e.1) s

/-- Whether a read of a group's missing bytes is under way. -/
def mcReading (s : State) (m : Mcast) (x : Nat) : Bool :=
  match sessGet s m.srcSession.toNat with
  | none => true
  | some y => y.rtags.any (fun r => match r.2.1 with | .mcast a g _ => a == x && g == m.group | _ => false)

/-- A detached node asks its source for the first range it lacks of what it knows to be published, at most 8 MiB (R366). -/
def mcCatch (s : State) (k : Nat) : State :=
  match tfind s.mcast k with
  | none => s
  | some m =>
    let i := m.srcSession.toNat
    match missing m.received 0 m.published with
    | [] => s
    | (lo, hi) :: _ =>
      if m.detached = false ∨ mcReading s m (k / 256) = true ∨ sessOpen s i = false ∨ contextStopped s (k / 256) m.partition = true then s
      else
        match mcEpoch s with
        | (s1, e) => sendRead s1 i e (m.srcBase + lo) (min (hi - lo) 0x800000) 2 (.mcast (k / 256) m.group lo)

/-- Stream bytes at an offset written to memory and taken as held, then sent onward (R364); the reason where they cannot be
written. -/
def mcStore (s : State) (k : Nat) (m : Mcast) (off : Nat) (bs : List Byte) : State × Option (Nat × AccErr) :=
  match vstore s m.partition (m.base + off) bs with
  | (s1, some e) => (s1, some e)
  | (s1, none) => (mcPump (mcPut s1 k { m with received := addRange m.received off (off + bs.length) }) k, none)

/-- MCAST_CTRL with an operation and an offset, sent on a session (R366). -/
def mcSend (s : State) (i op off : Nat) : State := send s i (.mcastCtrl (BitVec.ofNat 16 i) op off)

/-- The first group entry of a session's X-die that satisfies a test: MCAST_CTRL names no group (notes/assumptions/55). -/
def mcPick (s : State) (i : Nat) (f : Mcast → Bool) : Option (Nat × Mcast) := s.mcast.find? (fun e => e.1 / 256 == sessXdie i && f e.2)

/-- MCAST_CTRL PUBLISH from partition p; the STATUS detail of a refusal (R364). -/
def mcPublish (s : State) (i p off : Nat) : State × Option Nat :=
  match mcPick s i (fun m => m.source && m.partition == p) with
  | none => (s, some 0)
  | some (k, m) =>
    if off < m.published ∨ m.len < off then (s, some 8)
    else (mcPump (mcPut s k { m with published := off, received := addRange m.received 0 off }) k, none)

/-- MCAST_CTRL DETACH received by a node (R365, R366). -/
def mcDetached (s : State) (i off : Nat) : State × Option Nat :=
  match mcPick s i (fun m => !m.source && m.parent.toNat == i) with
  | none => (s, some 0)
  | some (k, m) =>
    let pg := ztPage (sessXdie i)
    (mcCatch (tally (raise (mcPut s k { m with detached := true, joinAt := s.now, published := max m.published off }) pg 11) pg 68 1) k, none)

/-- MCAST_CTRL JOIN received by a parent (R366, R373). -/
def mcJoin (s : State) (i off : Nat) : State × Option Nat :=
  match mcPick s i (fun m => m.children.any (fun c => c.session.toNat == i)) with
  | none => (s, some 0)
  | some (k, m) =>
    let pg := ztPage (sessXdie i)
    if m.children.any (fun c => c.session.toNat == i && c.attached) then (mcSend s i 4 off, none)
    else if mcSent m ≤ off + mcWindow m / 2 then
      let back := fun (c : McastChild) => if c.session.toNat = i then { c with attached := true, acked := off, sent := off, heldSince := none } else c
      let s1 := tally (raise (mcPut s k { m with children := m.children.map back }) pg 12) pg 69 1
      (mcPump (mcSend s1 i 4 off) k, none)
    else (mcSend s i 5 (mcSent m), none)

/-- MCAST_CTRL ACCEPT received by a node (R366). -/
def mcAccepted (s : State) (i : Nat) : State × Option Nat :=
  match mcPick s i (fun m => !m.source && m.parent.toNat == i) with
  | none => (s, some 0)
  | some (k, m) => (mcPut s k { m with detached := false }, none)

/-- MCAST_CTRL REFUSE received by a node: it goes on catching up, to the parent's sent offset (R366). -/
def mcRefused (s : State) (i off : Nat) : State × Option Nat :=
  match mcPick s i (fun m => !m.source && m.parent.toNat == i) with
  | none => (s, some 0)
  | some (k, m) => (mcCatch (mcPut s k { m with published := max m.published off }) k, none)

/-- An MCAST_CTRL by its operation (R366). -/
def mcControl (s : State) (i p op off : Nat) : State × Option Nat :=
  match op with
  | 1 => mcPublish s i p off
  | 2 => mcDetached s i off
  | 3 => mcJoin s i off
  | 4 => mcAccepted s i
  | _ => mcRefused s i off

/-- CHILD_DETACH: a child that has held the group for DETACH_US; a stopped transport context begins no message (R362, R365). -/
def mcDetach (s : State) (x group n : Nat) : State :=
  match mcFind s x group with
  | none => s
  | some (k, m) =>
    match m.children[n]? with
    | none => s
    | some c =>
      let due := match c.heldSince with | some t => decide (t + m.detachUs * 1000 ≤ s.now) | none => false
      if c.attached = true ∧ due = true ∧ contextStopped s x m.partition = false then
        let m1 := { m with children := setAt m.children n { c with attached := false, heldSince := none } }
        let s1 := tally (raise (mcPut s k m1) (ztPage x) 11) (ztPage x) 68 1
        mcPump (mcSend s1 c.session.toNat 2 (mcSent m)) k
      else s

/-- JOIN_TIMER: every DETACH_US a detached node sends its parent JOIN with its contiguous offset, and goes on catching up; a stopped
transport context begins no message (R362, R366). -/
def mcJoinTimer (s : State) (x group : Nat) : State :=
  match mcFind s x group with
  | none => s
  | some (k, m) =>
    if m.detached = true ∧ m.joinAt + m.detachUs * 1000 ≤ s.now ∧ contextStopped s x m.partition = false then
      mcCatch (mcSend (mcPut s k { m with joinAt := s.now }) m.parent.toNat 3 (contiguous m.received 0)) k
    else s

/-- CHILD_DETACH (R365). -/
def execChildDetach (xdie : Fin 6) (group : Half) (child : Fin 8) (s : State) : Host.Outcome State Fault Refusal :=
  .next (alive s (fun t => mcDetach t xdie.val group.toNat child.val))
/-- JOIN_TIMER (R366). -/
def execJoinTimer (xdie : Fin 6) (group : Half) (s : State) : Host.Outcome State Fault Refusal :=
  .next (alive s (fun t => mcJoinTimer t xdie.val group.toNat))

end Sys2Proof.Machine
end

