-- ==== Sys2Proof/Machine/Ports.lean ====
section
/-! DEFINITION. Ethernet ports (R333-R338), the optical rings (R367-R369) and the egress limiter (R457). -/

namespace Sys2Proof.Machine

/-- Bytes of a character string (ASCII). -/
def ascii (x : String) : List Byte := x.toList.map (fun c => BitVec.ofNat 8 c.toNat)

/-- The ordering code without its stepping (R4). -/
def codeText (code : OrderCode) : List Byte :=
  ascii (match code with | .m12x4 => "HT7-M12X4" | .m14x2 => "HT7-M14X2" | .m10x6 => "HT7-M10X6")

/-- The ordering code with its stepping (R4). -/
def orderText (code : OrderCode) (st : Stepping) : List Byte :=
  codeText code ++ ascii "-" ++ ascii (match st with | .a0 => "A0" | .a1 => "A1" | .b0 => "B0")

/-- Whether a port is fitted and RUNNING (R334). -/
def portRuns (s : State) (x p : Nat) : Bool := decide (x < xdieCount s.code) && running s (portPage x p)

/-- PORT_CFG.MODE (R371). -/
def fMODE : FRef := ⟨0x100, 0, 2⟩
/-- PORT_CFG.AN_EN. -/
def fANEN : FRef := ⟨0x100, 2, 1⟩
/-- PORT_CFG.SPARE_EN. -/
def fSPAREEN : FRef := ⟨0x100, 3, 1⟩
/-- PORT_CFG.LLDP_EN. -/
def fLLDPEN : FRef := ⟨0x100, 4, 1⟩
/-- PORT_CFG.PTP_EN. -/
def fPTPEN : FRef := ⟨0x100, 5, 1⟩
/-- The widest mode, no wider than the one configured, whose lanes exclude every failed lane (R333, R335). -/
def spareMode (mode failed : Nat) : Option Nat :=
  let ok := fun (i : Nat) => !failed.testBit i
  if mode = 0 ∧ ok 0 ∧ ok 1 ∧ ok 2 ∧ ok 3 then some 0
  else if mode ≤ 1 ∧ ((ok 0 ∧ ok 1) ∨ (ok 2 ∧ ok 3)) then some 1
  else if ok 0 ∨ ok 1 ∨ ok 2 ∨ ok 3 then some 2
  else none

/-- The mode a port trains in (R333-R335): that of PORT_CFG.MODE, or after lane sparing a narrower one; none where SPARE_EN is 0 and the
configured mode has no lanes left. -/
def trainMode (s : State) (x p : Nat) : Option Nat :=
  let mode := rd s (portPage x p) fMODE
  match spareMode mode (rd s (portPage x p) fLANES) with
  | some m => if m = mode ∨ rd s (portPage x p) fSPAREEN = 1 then some m else none
  | none => none

/-- Whether a port is the host port of a core whose ROM performs recovery: it takes the mode that auto-negotiation finds (R25, R504). -/
def romPort (s : State) (x p : Nat) : Bool :=
  p == 0 && decide (x < 2) && (s.boot.cores.getD x coreInRom).recovering && rd s (portPage x p) fANEN == 1

/-- LINK_UP: a link trained in the mode its port trains in (R333, R334, R371). -/
def linkUp (s : State) (x p speed : Nat) : State :=
  if portRuns s x p = true ∧ portUp s x p = false ∧ (trainMode s x p = some speed ∨ romPort s x p = true) then
    tally (raise (wr (wr s (portPage x p) fLINK 1) (portPage x p) fSPEED speed) (portPage x p) 8) (portPage x p) 91 1
  else s

/-- LANE_SPARING: a lane fails; the port retrains without it where SPARE_EN is 1, or stays down when no healthy lane remains (R335). -/
def laneSpare (s : State) (x p lane : Nat) : State :=
  let pg := portPage x p
  if portRuns s x p then
    let s1 := wr (linkDrop s x p) pg fLANES (rd s pg fLANES ||| (1 <<< lane))
    match trainMode s1 x p with
    | none => s1
    | some m => if rd s pg fSPAREEN = 1 then tally (raise (wr s1 pg fSPEED m) pg 10) pg 93 1 else s1
  else s

/-- Whether 30 s have passed since a port last sent an LLDPDU (R336). -/
def lldpDue (s : State) (x p : Nat) : Bool :=
  match (portGet s x p).lldpSent with
  | some t => decide (t + 30000000000 ≤ s.now)
  | none => true

/-- LLDP_TRANSMIT: an LLDPDU, every 30 s (R336). -/
def lldpSend (s : State) (x p : Nat) : State :=
  if portRuns s x p = true ∧ portUp s x p = true ∧ rd s (portPage x p) fLLDPEN = 1 ∧ lldpDue s x p = true then
    let name := ascii "X" ++ [BitVec.ofNat 8 (48 + x)] ++ ascii ".P" ++ [BitVec.ofNat 8 (48 + p)]
    let f : TxFrame := ⟨64, rd s (portPage x p) ⟨0x118, 12, 1⟩, BitVec.ofNat 48 (portMac s x p), 0x0180C200000E, .lldp⟩
    let s1 := portQueue (portPut s x p { portGet s x p with lldpSent := some s.now }) x p ⟨0, f, []⟩
    tally (emit s1 (.lldp (portOf x p) (portMac s 0 0) name (orderText s.code s.stepping))) (portPage x p) 94 1
  else s

/-- LLDPDU_RECEIVE: the last one is kept; a change raises EV_PORT_LLDP (R336). -/
def lldpTake (s : State) (x p : Nat) (b : List Byte) : State :=
  if portRuns s x p = true ∧ portUp s x p = true then
    let s1 := tally s (portPage x p) 95 1
    if (portGet s x p).lldp = b then s1 else raise (portPut s1 x p { portGet s1 x p with lldp := b }) (portPage x p) 11
  else s

/-- PTP_EVENT_MESSAGE: a timestamp at the MAC; on the slave port a received one corrects the time base (R336). -/
def ptpEvent (s : State) (port : PortId) (sent : Bool) (correction : Int) : State :=
  let x := port.xdie.val
  let p := port.port.val
  if portRuns s x p = true ∧ portUp s x p = true then
    if sent then tally (emit s (.ptpStamp port s.now)) (portPage x p) 96 1
    else
      let s1 := tally (emit s (.ptpStamp port s.now)) (portPage x p) 97 1
      if rd s (portPage x p) fPTPEN = 1 then { s1 with now := ((s.now : Int) + correction).toNat } else s1
  else s

/-- How a received frame that is not a Zazel packet is disposed of (R338): the port counter of its discard, given to the Curator,
or no taker; none where it is a Zazel packet, which its own rows take. -/
inductive FrameFate where
  | discard (counter : Nat)
  | curator
  | noTaker
  | zazel
  deriving DecidableEq, Repr

/-- The fate of an IP datagram addressed to the X-die or elsewhere (R338). -/
def ipFate (s : State) (x : Nat) (mine plain v4 : Bool) (u : Udp) : FrameFate :=
  if mine = false then .noTaker
  else if plain = false then .discard 84
  else
    match u with
    | .none => .noTaker
    | .datagram port zero ok =>
      if port.toNat ≠ rd s (xPage x 0) fUDPPORT then .noTaker
      else if (zero && !v4) || (!zero && !ok) then .discard 85
      else .zazel

/-- The fate of a received frame (R334, R337, R338, R371; notes/assumptions/49). The Curator takes neighbour discovery and ARP for the
X-die's addresses. -/
def frameFate (s : State) (x p : Nat) (f : RxFrame) : FrameFate :=
  let pg := portPage x p
  let vlanBad := match f.tags with
    | [] => rd s pg ⟨0x118, 12, 1⟩ == 1
    | [v] => v.toNat != rd s pg ⟨0x118, 0, 12⟩ || rd s pg ⟨0x118, 12, 1⟩ == 0
    | _ => false
  let cur := s.boot.active.isSome
  let ip4 := fun (a : BitVec 32) => rd s (xPage x 0) fIP4V == 1 && a.toNat == rd s (xPage x 0) fIP4
  if f.fcsOk = false then .discard 86
  else if f.length < 64 then .discard 88
  else if 9216 < f.length then .discard 87
  else if f.kind = .pause then .discard 80
  else if f.kind = .priorityFlow then .discard 81
  else if 2 ≤ f.tags.length then .discard 83
  else if vlanBad then .discard 82
  else
    match f.kind with
    | .ipv4 _ dst plain => ipFate s x (ip4 dst) plain true f.udp
    | .ipv6 _ dst plain => ipFate s x (dst.toNat == xdIp6 s x) plain false f.udp
    | .arp _ target => if cur && ip4 target then .curator else .noTaker
    | .neighbour _ target => if cur && target.toNat == xdIp6 s x then .curator else .noTaker
    | _ => .noTaker

/-- The Curator's answer to a neighbour solicitation or an ARP request for an address of the X-die: the address is at the MAC of the port
(R337). -/
def resolveAnswer (s : State) (x p : Nat) (f : RxFrame) : Option TxFrame :=
  let mac := BitVec.ofNat 48 (portMac s x p)
  let tags := rd s (portPage x p) ⟨0x118, 12, 1⟩
  match f.kind with
  | .arp sender target => some ⟨64, tags, mac, f.srcMac, .arp target sender⟩
  | .neighbour src target => some ⟨90, tags, mac, f.srcMac, .neighbour target src⟩
  | _ => none

/-- NON_ZAZEL_FRAME (R338): given to the Curator, which answers (R337), or discarded and counted. -/
def otherFrame (s : State) (port : PortId) (f : RxFrame) : State :=
  let x := port.xdie.val
  let p := port.port.val
  if portRuns s x p = true ∧ portUp s x p = true then
    match frameFate s x p f with
    | .zazel => s
    | .discard n => tally s (portPage x p) n 1
    | .noTaker => tally (tally s (portPage x p) 90 1) (xPage x 0) 7 1
    | .curator =>
      let s1 := tally (tally (emit s (.toCurator port f)) (portPage x p) 89 1) (xPage x 0) 6 1
      match resolveAnswer s x p f with
      | some a => tally (portQueue s1 x p ⟨0, a, []⟩) (xPage x 0) 5 1
      | none => s1
  else s

/-- The scan, scrub and limiter page (R468). -/
def scanPage (x : Nat) : Nat := xPage x 0x0C
/-- EGL_CFG.RATE. -/
def fEGLRATE : FRef := ⟨0x150, 0, 9⟩
/-- EGL_CFG.OTHER_PPS. -/
def fEGLPPS : FRef := ⟨0x150, 16, 16⟩

/-- Rules 1 to 3 of R457: the rule that drops a frame, if one does. -/
def egressRule (s : State) (x p : Nat) (f : TxFrame) : Option Nat :=
  let ip4 := fun (a : BitVec 32) => rd s (xPage x 0) fIP4V == 1 && a.toNat == rd s (xPage x 0) fIP4
  let ip6 := fun (a : BitVec 128) => a.toNat == xdIp6 s x || a.toNat == linkLocal (portMac s x p)
  let typeOk := decide (f.tags ≤ 1) && (match f.kind with
    | .pause => false | .priorityFlow => false
    | .other e => e.toNat == 0x88CC || e.toNat == 0x88F7 || e.toNat == 0x0800 || e.toNat == 0x86DD || e.toNat == 0x0806
    | _ => true)
  let srcOk := match f.kind with
    | .ipv4 src _ _ => ip4 src
    | .ipv6 src _ _ => ip6 src
    | .neighbour src _ => ip6 src
    | .arp sender _ => sender.toNat == rd s (xPage x 0) fIP4
    | .other e => e.toNat == 0x88CC || e.toNat == 0x88F7
    | _ => true
  if typeOk = false then some 1
  else if f.srcMac.toNat ≠ portMac s x p then some 2
  else if srcOk = false then some 3
  else none

/-- A drop counted by its rule, with EV_EGL_DROP at most once per second per X-die (R457, R529). -/
def egressDrop (s : State) (x p counter : Nat) : State :=
  let s1 := tally s (scanPage x) counter 1
  let recent := (List.range 8).any (fun q =>
    match (portGet s x q).dropAt with | some t => decide (s.now < t + 1000000000) | none => false)
  if recent then s1 else raise (portPut s1 x p { portGet s1 x p with dropAt := some s.now }) (scanPage x) 11

/-- The credit of a port's bucket now, in 1/2048 byte (R457): RATE / 256 of the line rate, at most 1 MiB. -/
def portTokens (s : State) (x p : Nat) : Nat :=
  let v := portGet s x p
  let gbps := 800 / 2 ^ rd s (portPage x p) fSPEED
  min (2 ^ 31) (v.tokens + (s.now - v.tokenAt) * gbps * rd s (scanPage x) fEGLRATE)

/-- What a class gains when the round robin of R339 comes to it: its weight times a quantum that holds the largest frame (PRESUMED,
notes/assumptions/139). -/
def drrQuantum (s : State) (x c : Nat) : Nat := rd s (xPage x 0) (fTCW c) * (9216 + Config.drrExtra)

/-- The oldest frame of a class that waits at a port. -/
def classHead (l : List QFrame) (c : Nat) : Option QFrame := l.find? (fun f => f.cls == c)

/-- Deficit round robin over TC1 to TC3 (R339): the class served next, the deficits and the turn when it is served. A class that has nothing
loses its deficit; one whose deficit is too small gives way, and a class gains its quantum as the turn comes to it. -/
def drrPick (s : State) (x : Nat) (l : List QFrame) (fuel turn : Nat) (d : List Nat) : Option (QFrame × List Nat × Nat) :=
  match fuel with
  | 0 => none
  | n + 1 =>
    let next := turn % 3 + 1
    match classHead l turn with
    | none =>
      let d1 := setAt d (turn - 1) 0
      drrPick s x l n next (setAt d1 (next - 1) (d1.getD (next - 1) 0 + drrQuantum s x next))
    | some f =>
      if f.frame.length ≤ d.getD (turn - 1) 0 then some (f, setAt d (turn - 1) (d.getD (turn - 1) 0 - f.frame.length), turn)
      else drrPick s x l n next (setAt d (next - 1) (d.getD (next - 1) 0 + drrQuantum s x next))

/-- The frame that a port's egress serves next: TC0 first, then TC1 to TC3 by deficit round robin (R339). -/
def egressNext (s : State) (x p : Nat) : Option (QFrame × List Nat × Nat) :=
  let v := portGet s x p
  match classHead v.waiting 0 with
  | some f => some (f, v.deficits, v.turn)
  | none => drrPick s x v.waiting 7 v.turn v.deficits

/-- A list without the first entry equal to one. -/
def dropFirst (l : List QFrame) (f : QFrame) : List QFrame :=
  match l with
  | [] => []
  | a :: r => if a = f then r else a :: dropFirst r f

/-- What the limiter decides of a frame (R457): a rule drops it, it waits for tokens, or it leaves. -/
inductive Egress where
  | dropped (counter : Nat)
  | waits
  | leaves
  deriving DecidableEq, Repr

/-- The egress limiter's rules in order (R457). -/
def egressDecide (s : State) (x p : Nat) (f : TxFrame) : Egress :=
  match egressRule s x p f with
  | some r => .dropped (11 + r)
  | none =>
    let v := portGet s x p
    let other := f.dstMac.toNat != rd s (portPage x p) fNHMAC
    let count := if v.otherSecond = s.now / 1000000000 then v.otherCount else 0
    if other = true ∧ rd s (scanPage x) fEGLPPS ≤ count then .dropped 15
    else if portTokens s x p < min f.length 9216 * 2048 then .waits
    else .leaves

/-- A frame that passes the limiter leaves: tokens taken, a frame to another destination counted, the frame ended at 9,216 bytes (R457),
and the port's counters of its class (R529). -/
def egressPass (s : State) (port : PortId) (f : TxFrame) (cls : Option Nat) (bytes : List Byte) : State :=
  let x := port.xdie.val
  let p := port.port.val
  let v := portGet s x p
  let sec := s.now / 1000000000
  let f1 := { f with length := min f.length 9216 }
  let v1 := { v with tokens := portTokens s x p - f1.length * 2048, tokenAt := s.now }
  let v2 := if f.dstMac.toNat = rd s (portPage x p) fNHMAC then v1
    else { v1 with otherSecond := sec, otherCount := (if v.otherSecond = sec then v.otherCount else 0) + 1 }
  let s1 := emit (portPut s x p v2) (.frame port f1 bytes (decide (9216 ≤ f.length)))
  let s2 := match cls with
    | some c => tally (tally s1 (portPage x p) (64 + c) 1) (portPage x p) (72 + c) f1.length
    | none => s1
  if 9216 ≤ f.length then egressDrop s2 x p 16 else s2

/-- A frame offered to the limiter: `cls` and `bytes` of one that waited at the port. One that finds too few tokens waits: nothing
changes. -/
def egressOffer (s : State) (port : PortId) (f : TxFrame) (cls : Option Nat) (bytes : List Byte) : State :=
  match egressDecide s port.xdie.val port.port.val f with
  | .dropped n => egressDrop s port.xdie.val port.port.val n
  | .waits => s
  | .leaves => egressPass s port f cls bytes

/-- The frame that the port serves next taken from those that wait, unless it waits for tokens (R339, R457). -/
def egressServe (s : State) (port : PortId) : State :=
  let x := port.xdie.val
  let p := port.port.val
  match egressNext s x p with
  | none => s
  | some (f, d, turn) =>
    if egressDecide s x p f.frame = .waits then s
    else
      let v := portGet s x p
      egressOffer (portPut s x p { v with waiting := dropFirst v.waiting f, deficits := d, turn := turn }) port f.frame (some f.cls) f.bytes

/-- EGRESS_FRAME: the frame that the port serves next, or one that firmware offers, at the egress limiter (R339, R457).
A port that is STOPPING sends what waits (R63). -/
def egressFrame (s : State) (port : PortId) (f : Option TxFrame) : State :=
  let drains := blkState s (portPage port.xdie.val port.port.val) == stStopping
  if portUp s port.xdie.val port.port.val = false then s
  else
    match f with
    | some g => if portRuns s port.xdie.val port.port.val then egressOffer s port g none [] else s
    | none => if portRuns s port.xdie.val port.port.val || drains then egressServe s port else s

/-- Whether both ports of a ring are RUNNING (R369). -/
def ringPortsRun (s : State) (r : Ring) : Bool := (ringPorts s.code r).all (fun xp => running s (portPage xp.1 xp.2))

/-- RING_CTRL.TRAIN_MS (R370). -/
def fTRAINMS : FRef := ⟨0x130, 8, 8⟩

/-- Whether TRAIN_MS has passed since training began, in loopback or with the neighbours (R369). -/
def trainOver (s : State) (r : Ring) : Bool :=
  decide (tget 0 s.ringAt (ringNum r) + rd s (xPage 0 0) fTRAINMS * 1000000 ≤ s.now)

/-- RING_LOOPBACK_VERIFIED within TRAIN_MS: the drive is energised (R369, Orders 3 and 4). -/
def ringVerified (s : State) (r : Ring) : State :=
  if rd s (xPage 0 0) (fRSTATE r) = 1 ∧ trainOver s r = false then wr s (xPage 0 0) (fRSTATE r) 2 else s

/-- RING_SWITCH_SETTLED: the ports train with the neighbours from here (R369, Order 5). -/
def ringSettle (s : State) (r : Ring) : State :=
  if rd s (xPage 0 0) (fRSTATE r) = 2 ∧ s.ringSettled.contains r = false then
    { s with ringSettled := r :: s.ringSettled, ringAt := tins s.ringAt (ringNum r) s.now }
  else s

/-- RING_NEIGHBOURS_TRAINED within TRAIN_MS: the ring is OPEN (R369, Orders 5 and 6). -/
def ringTrained (s : State) (r : Ring) : State :=
  let pg := xPage 0 0
  if rd s pg (fRSTATE r) = 2 ∧ s.ringSettled.contains r = true ∧ trainOver s r = false ∧ (ringPorts s.code r).all (fun xp => portUp s xp.1 xp.2) = true then
    let s1 := setBypassed (wr s pg (fRSTATE r) 3) r 0
    let s2 := { s1 with boot := { s1.boot with ringsOpen := r :: s1.boot.ringsOpen.filter (· != r) } }
    tally (raise s2 pg 8) pg (2 * ringNum r) 1
  else s

/-- RING_TRAIN_TIMEOUT: the opening fails TRAIN_MS after training began, in loopback or, once the switch has settled, with the
neighbours (R369, Orders 3 and 5). -/
def ringTimeout (s : State) (r : Ring) : State :=
  let st := rd s (xPage 0 0) (fRSTATE r)
  if (st = 1 ∨ (st = 2 ∧ s.ringSettled.contains r = true)) ∧ trainOver s r = true then ringDrop s r 4 else s

/-- NON_ZAZEL_FRAME (R338). -/
def execNonZazelFrame (port : PortId) (frame : RxFrame) (s : State) : Host.Outcome State Fault Refusal :=
  .next (alive s (fun t => otherFrame t port frame))
/-- LINK_UP (R371). -/
def execLinkUp (port : PortId) (speed : Fin 3) (s : State) : Host.Outcome State Fault Refusal :=
  .next (alive s (fun t => linkUp t port.xdie.val port.port.val speed.val))
/-- LINK_DOWN (R337). -/
def execLinkDown (port : PortId) (s : State) : Host.Outcome State Fault Refusal :=
  .next (alive s (fun t => linkDrop t port.xdie.val port.port.val))
/-- LANE_SPARING (R335). -/
def execLaneSparing (port : PortId) (lane : Fin 4) (s : State) : Host.Outcome State Fault Refusal :=
  .next (alive s (fun t => laneSpare t port.xdie.val port.port.val lane.val))
/-- LLDP_TRANSMIT (R336). -/
def execLldpTransmit (port : PortId) (s : State) : Host.Outcome State Fault Refusal :=
  .next (alive s (fun t => lldpSend t port.xdie.val port.port.val))
/-- LLDPDU_RECEIVE (R336). -/
def execLldpduReceive (port : PortId) (lldpdu : List Byte) (s : State) : Host.Outcome State Fault Refusal :=
  .next (alive s (fun t => lldpTake t port.xdie.val port.port.val lldpdu))
/-- PTP_EVENT_MESSAGE (R336). -/
def execPtpEventMessage (port : PortId) (sent : Bool) (correction : Int) (s : State) : Host.Outcome State Fault Refusal :=
  .next (alive s (fun t => ptpEvent t port sent correction))
/-- EGRESS_FRAME (R457). -/
def execEgressFrame (port : PortId) (frame : Option TxFrame) (s : State) : Host.Outcome State Fault Refusal :=
  .next (alive s (fun t => egressFrame t port frame))
/-- RING_LOOPBACK_VERIFIED (R369). -/
def execRingLoopbackVerified (ring : Ring) (s : State) : Host.Outcome State Fault Refusal := .next (alive s (fun t => ringVerified t ring))
/-- RING_SWITCH_SETTLED (R369). -/
def execRingSwitchSettled (ring : Ring) (s : State) : Host.Outcome State Fault Refusal := .next (alive s (fun t => ringSettle t ring))
/-- RING_NEIGHBOURS_TRAINED (R369). -/
def execRingNeighboursTrained (ring : Ring) (s : State) : Host.Outcome State Fault Refusal := .next (alive s (fun t => ringTrained t ring))
/-- RING_TRAIN_TIMEOUT (R369). -/
def execRingTrainTimeout (ring : Ring) (s : State) : Host.Outcome State Fault Refusal := .next (alive s (fun t => ringTimeout t ring))

end Sys2Proof.Machine
end

