-- ==== Sys2Proof/Machine/Boot.lean ====
section
/-! DEFINITION. Boot, recovery, watchdogs, takeover and live update of the Curator (R459, R496-R509, R515-R518). -/

namespace Sys2Proof.Machine

/-- The boot page of a core (R518). -/
def bootPage (c : Nat) : Nat := xPage c 0x21
/-- BOOT_STATUS.RECOVERED. -/
def fRECOVERED : FRef := ⟨0x100, 0, 1⟩
/-- BOOT_STATUS.SLOT_VALID. -/
def fSLOTVALID : FRef := ⟨0x100, 1, 1⟩
/-- BOOT_ERR.CODE. -/
def fBOOTERR : FRef := ⟨0x120, 0, 8⟩
/-- BOOT_REL.SVN. -/
def fBOOTSVN : FRef := ⟨0x108, 32, 32⟩

/-- Curator core c. -/
def coreGet (s : State) (c : Nat) : CurCore := s.boot.cores.getD c coreInRom
/-- The state with a core replaced. -/
def corePut (s : State) (c : Nat) (x : CurCore) : State :=
  { s with boot := { s.boot with cores := [if c = 0 then x else coreGet s 0, if c = 1 then x else coreGet s 1] } }
/-- The other core. -/
def otherCore (c : Nat) : Nat := 1 - c

/-- BLK_VER.STEPPING of the module's stepping (R47). -/
def steppingCode (st : Stepping) : Nat := match st with | .a0 => 0x00 | .a1 => 0x01 | .b0 => 0x10

/-- BODY_LEN of an image header (R499). -/
def bodyLen (b : List Byte) : Nat := leAt b 20 4
/-- The body of an image. -/
def bodyOf (b : List Byte) : List Byte := (b.drop 512).take (bodyLen b)

/-- Checks 1 to 3 of R500, which look at the header alone: the code of the first that fails. -/
def headerError (s : State) (b : List Byte) : Option Nat :=
  let k := leAt b 28 1
  let signer := (b.drop 96).take 57
  if b.take 4 ≠ ascii "ETRF" ∨ leAt b 4 2 ≠ 1 ∨ leAt b 6 2 ≠ 512 ∨ (firstSet b 29 3).isSome ∨ (firstSet b 153 245).isSome ∨
      bodyLen b ≤ leAt b 24 4 ∨ bodyLen b = 0 ∨ 50331136 < bodyLen b then some 1
  else if 4 ≤ k ∨ s.fuses.keysPresent.testBit k = false ∨ s.fuses.keysRevoked.testBit k = true ∨
      (Config.shake256 signer 32).take 32 ≠ tget [] s.fuses.keyHash k then some 4
  else if Config.ed448Verify signer (ascii "ETRUN-FW") (b.take 398) ((b.drop 398).take 114) = false then some 3
  else none

/-- Checks 4 to 6 of R500. -/
def bodyError (s : State) (b : List Byte) : Option Nat :=
  if Config.shake256 (bodyOf b) 64 ≠ (b.drop 32).take 64 then some 2
  else if leAt b 12 4 < s.fuses.svn then some 5
  else if (leAt b 16 4).testBit (steppingCode s.stepping) = false then some 6
  else none

/-- The checks of R500 in order. -/
def imageError (s : State) (b : List Byte) : Option Nat := match headerError s b with | some c => some c | none => bodyError s b

/-- Eight registers filled with 64 bytes, little-endian (R518). -/
def putEight (s : State) (pg off : Nat) (b : List Byte) : State :=
  (List.range 8).foldl (fun t k => regPut t (pg * 4096 + off + 8 * k) (leAt b (8 * k) 8)) s

/-- A copy of the Curator record as the boot flash holds it (R497): SEQ, LEN, the CRC-64/ECMA-182 of the content, the content. -/
def recordCopy (seq : Nat) : List Byte :=
  let body := Config.recordImage seq
  leBytes 8 seq ++ leBytes 8 (24 + body.length) ++ leBytes 8 (crc64From 0 body) ++ body

/-- The registers of a core's boot page when it jumps to an image (R502, R515, R518). -/
def showBoot (s : State) (c : Nat) (img : List Byte) (recovered : Bool) : State :=
  let pg := bootPage c
  let cfg := Config.shake256 (recordCopy (governing s.boot.copies).1) 64
  let s2 := putEight (putEight (putEight s pg 0x140 (Config.shake256 (img.take 512 ++ bodyOf img) 64))
    pg 0x180 cfg) pg 0x1C0 (Config.shake256 (Config.fuseImage s.fuses.svn s.fuses.keysRevoked) 64)
  let s3 := regPut s2 (pg * 4096 + 0x108) (leAt img 8 4 + leAt img 12 4 * 2 ^ 32)
  wr (wr (wr s3 pg fRECOVERED (b2n recovered)) pg fSLOTVALID 1) pg fBOOTERR 0

/-- CUR_ROLE.ROLE and SYNCED of a core (R517). -/
def setRole (s : State) (c role synced : Nat) : State := wr (wr s (curPage c) fROLE role) (curPage c) fSYNCED synced

/-- A multicast group entry as the engine holds it (R363). -/
def mcastOf (b : List Byte) : Mcast :=
  { group := leAt b 0 2, partition := leAt b 2 1, source := bit (leAt b 3 1) 1, parent := BitVec.ofNat 16 (leAt b 4 2)
    srcSession := BitVec.ofNat 16 (leAt b 6 2)
    children := (List.range 8).map (fun k => ⟨BitVec.ofNat 16 (leAt b (8 + 2 * k) 2), 0, 0, leAt b (8 + 2 * k) 2 != 0xFFFF, none⟩)
    base := leAt b 24 6, srcBase := leAt b 30 6, wKib := leAt b 36 4, detachUs := leAt b 40 4, len := leAt b 44 8
    published := 0, received := [], detached := false, joinAt := 0 }

/-- A group entry put in the first free place of an X-die, or in its own (R363); none where all 256 are taken. -/
def mcastPut (s : State) (x : Nat) (b : List Byte) : Option State :=
  match mcFind s x (leAt b 0 2) with
  | some (k, _) => some (mcPut s k (mcastOf b))
  | none => ((List.range 256).find? (fun k => (tfind s.mcast (256 * x + k)).isNone)).map (fun k => mcPut s (256 * x + k) (mcastOf b))

/-- A group entry of an X-die deleted. -/
def mcastDrop (s : State) (x group : Nat) : State := { s with mcast := s.mcast.filter (fun e => !(e.1 / 256 == x && e.2.group == group)) }

/-- A masked write of a register as the Curator's own firmware makes it. -/
def maskedPut (s : State) (a d m : Nat) : State := regPut s a ((regGet s a &&& (m ^^^ (2 ^ 64 - 1))) ||| (d &&& m))

/-- The Curator record restored from the copy that governs (R497, R502): spare mappings, retired channels, failed frames, multicast
groups, network settings. The module flash is trained and usable from then on (R431; DESIGN CHOICE, notes/assumptions/161). -/
def restoreRecord (s0 : State) : State :=
  let r := (governing s0.boot.copies).2
  let s := { s0 with boot := { s0.boot with rcd := r } }
  let s1 := r.spare.foldl (fun t e => regPut t (cPage e.1 0x100 * 4096 + 0x100) e.2) s
  let s2 := r.retired.foldl (fun t e => wr t (hbmPage t.code e.1) ⟨0x110, 0, 32⟩ e.2) s1
  let s3 := { s2 with frameOwner := r.failedFrames.foldl (fun o f => tput 0x7F o f 0x7E) s2.frameOwner }
  let s4 := wr (wr s3 (resPage s3) ⟨0x100, 1, 1⟩ (b2n (r.failedFlash != []))) (resPage s3) ⟨0x100, 32, 32⟩ r.failedFlash.length
  let s5 := r.groups.foldl (fun t e => (mcastPut t e.1 e.2.2).getD t) (wr s4 (resPage s4) ⟨0x100, 0, 1⟩ 1)
  r.net.foldl (fun t e => maskedPut t e.1 e.2.1 e.2.2) s5

/-- A module-owned page that passes its start check set RUNNING by the Curator. -/
def startOwnPage (s : State) (pg : Nat) : State :=
  match pageAt s pg with
  | none => s
  | some i => if isGalPage i = false ∧ rd s pg fASSIGNED = 0 ∧ blkState s pg = stStopped ∧ startCheck s pg = true then blockStart s pg else s

/-- Module-owned pages set RUNNING by the Curator (notes/assumptions/61): X0.P0 and X1.P0 are brought up first, then the others (R25, R336,
R502). -/
def startOwnPages (s : State) : State :=
  ([portPage 0 0, portPage 1 0] ++ List.range 4096).foldl startOwnPage s

/-- EGL_CFG.LOCK set on every X-die (R458, R502). -/
def lockLimiters (s : State) : State := (List.range (xdieCount s.code)).foldl (fun t x => wr t (scanPage x) ⟨0x150, 32, 1⟩ 1) s

/-- Galleries that belong to no partition are held in Sleep (R489). -/
def holdUnowned (s : State) : State := (List.range 256).foldl (fun t g => holdAsleep t (galPage g)) s

/-- A core becomes the active one after a reset: the record, the limiter, the ports, and what waits on vector 0 (R74, R489, R502). -/
def activate (s : State) (c : Nat) : State :=
  let s1 := setRole { s with boot := { s.boot with active := some c } } c 1 0
  vecTry (holdUnowned (startOwnPages (lockLimiters (restoreRecord s1)))) 0

/-- A core runs an image: its boot page, its watchdog, and the flash released (R502). -/
def runImage (s : State) (c : Nat) (img : List Byte) (recovered : Bool) : State :=
  let s1 := corePut s c { coreGet s c with image := img, sram := [], have_ := [], recovering := false, kickAt := some s.now }
  showBoot { s1 with boot := { s1.boot with flashHolder := if s1.boot.flashHolder = some c then none else s1.boot.flashHolder } } c img recovered

/-- ROM_SELF_TEST_COMPLETE: the result to the arbiter, which makes a core active-to-be and grants it the flash (R502). -/
def selfTest (s : State) (c : Nat) (pass : Bool) : State :=
  if (coreGet s c).tested.isSome ∨ (coreGet s c).image ≠ [] then s
  else
    let s1 := corePut s c { coreGet s c with tested := some pass, failed := !pass }
    let s2 := if pass then s1 else setRole s1 c 0 0
    let a := (coreGet s2 0).tested
    let b := (coreGet s2 1).tested
    if s2.boot.active.isSome ∨ s2.boot.lead.isSome then s2
    else if a = some true then { s2 with boot := { s2.boot with lead := some 0, flashHolder := some 0, grantAt := s2.now } }
    else if a = some false ∧ b = some true then { s2 with boot := { s2.boot with lead := some 1, flashHolder := some 1, grantAt := s2.now } }
    else if a = some false ∧ b = some false then setAlert s2 5
    else s2

/-- Bytes 0 to 141 of the identity certificate, which its signature covers (R514). -/
def certBody (s : State) : List Byte :=
  (padTo 57 s.fuses.idKey).take 57 ++ List.replicate 7 0 ++ (padTo 16 s.fuses.serial).take 16 ++ (padTo 32 (codeText s.code)).take 32 ++
    List.replicate 30 0

/-- The identity certificate: its 256 bytes as the boot flash holds them (R496, R514). -/
def certificate (s : State) : List Byte := certBody s ++ (padTo 114 s.fuses.certSig).take 114

/-- A verifier's check of a certificate against Brodloth's key (R514, R515). -/
def certVerifies (key cert : List Byte) : Bool :=
  Config.ed448Verify key (ascii "ETRUN-CERT") (cert.take 142) (cert.drop 142)

/-- RCV_REQ: the 112 bytes of a request for a range of the image (R504). -/
def recoveryRequest (s : State) (lo len : Nat) : List Byte :=
  ascii "ETRQ" ++ leBytes 4 lo ++ leBytes 4 len ++ leBytes 4 s.fuses.svn ++ (padTo 32 (orderText s.code s.stepping)).take 32 ++
    (padTo 57 s.fuses.idKey).take 57 ++ leBytes 7 0

/-- Where recovery requests go (R504): the server of the Curator record, at the next hop's MAC, or the group ff02::5a5a. -/
def recoveryServer (s : State) (c : Nat) : Nat × Nat :=
  if s.boot.rcd.server = [] then (0x333300005A5A, 0xFF02 * 2 ^ 112 + 0x5A5A)
  else (rd s (portPage c 0) fNHMAC, beNat (padTo 16 s.boot.rcd.server))

/-- A range requested of the recovery server by the ROM of core c, on its X-die's host port while that is up (R504). -/
def requestRange (s : State) (c lo hi : Nat) : State :=
  if portUp s c 0 then
    let d := recoveryServer s c
    let src := linkLocal (portMac s c 0)
    let bytes := ip6Frame s c 0 d.1 src d.2 (Config.udpPort s.free).toNat 23131 0 s.free (recoveryRequest s lo (hi - lo))
    let f : TxFrame := ⟨bytes.length + 4, rd s (portPage c 0) ⟨0x118, 12, 1⟩, BitVec.ofNat 48 (portMac s c 0), BitVec.ofNat 48 d.1,
      .ipv6 (BitVec.ofNat 128 src) (BitVec.ofNat 128 d.2) true⟩
    emit (portQueue s c 0 ⟨0, f, bytes⟩) (.recovery (portOf c 0) lo (hi - lo))
  else s

/-- The ROM of a core begins recovery: it brings up its X-die's host port and requests the header (R25, R503, R504). -/
def beginRecovery (s : State) (c : Nat) : State :=
  let s1 := if blkState s (portPage c 0) = stStopped then blockStart s (portPage c 0) else s
  let x := coreGet s1 c
  let since := if x.recovering then x.since else s.now
  requestRange (corePut s1 c { x with recovering := true, since := since, askedAt := s.now, sram := [], have_ := [] }) c 0 512

/-- IMAGE_LOADED: the ROM of a core has loaded and checked the slot (R500, R502, R503). A standby takes the flash once the active core
runs and the slot is valid. -/
def imageLoaded (s : State) (c : Nat) : State :=
  let x := coreGet s c
  let first := s.boot.lead = some c ∧ s.boot.active = none ∧ s.boot.flashHolder = some c
  let second := s.boot.active = some (otherCore c) ∧ (s.boot.flashHolder = none ∨ s.boot.flashHolder = some c)
  if x.tested ≠ some true ∨ x.image ≠ [] ∨ x.recovering = true ∨ ¬ (first ∨ second) then s
  else
    match imageError s s.boot.slot with
    | none =>
      let img := s.boot.slot.take (512 + bodyLen s.boot.slot)
      let s1 := runImage s c img false
      if first then activate s1 c else setRole s1 c 2 0
    | some e =>
      let s1 := wr (wr s (bootPage c) fBOOTERR e) (bootPage c) fSLOTVALID 0
      if first then beginRecovery s1 c else s1

/-- FLASH_GRANT_TIMEOUT: the flash passes to the other core 2 s after its grant (R502). -/
def grantTimeout (s : State) : State :=
  match s.boot.flashHolder with
  | none => s
  | some c =>
    if s.now < s.boot.grantAt + 2000000000 then s
    else { s with boot := { s.boot with flashHolder := some (otherCore c), grantAt := s.now } }

/-- The ranges that recovery still lacks: the header, or the body in ranges of 1 MiB (R504). -/
def recoveryGaps (x : CurCore) : List (Nat × Nat) :=
  if covered x.have_ 0 512 then
    let hi := 512 + bodyLen (takeBytes x.sram 0 512)
    (missing x.have_ 512 hi).flatMap (fun r => cut ((r.2 - r.1) / 0x100000 + 1) r.1 r.2 0x100000)
  else [(0, 512)]

/-- Every missing range of the image requested by the ROM of a core (R504). -/
def askRanges (s : State) (c : Nat) : State :=
  (recoveryGaps (coreGet s c)).foldl (fun t r => requestRange t c r.1 r.2) (corePut s c { coreGet s c with askedAt := s.now })

/-- The core whose ROM performs recovery. -/
def recoveringCore (s : State) : Option Nat := (List.range 2).find? (fun c => (coreGet s c).recovering)

/-- A recovered image runs from SRAM and is written to the slot (R504, R505). -/
def runRecovered (s : State) (c : Nat) (img : List Byte) : State :=
  let s1 := activate (runImage s c img true) c
  { s1 with boot := { s1.boot with slot := img } }

/-- RCV_DATA: bytes placed at their offset; the checks that the bytes now held allow (R504). -/
def rcvData (s : State) (off : Nat) (bs : List Byte) : State :=
  match recoveringCore s with
  | none => s
  | some c =>
    let x := coreGet s c
    if bs = [] ∨ 8192 < bs.length ∨ 0x3000000 < off + bs.length ∨ portUp s c 0 = false then s
    else
      let y := { x with sram := putBytes x.sram off bs, have_ := addRange x.have_ off (off + bs.length) }
      let s1 := corePut s c y
      let head := takeBytes y.sram 0 512
      let had := covered x.have_ 0 512
      if covered y.have_ 0 512 = false then s1
      else
        match headerError s1 head with
        | some e => beginRecovery (wr s1 (bootPage c) fBOOTERR e) c
        | none =>
          if covered y.have_ 0 (512 + bodyLen head) then
            let img := takeBytes y.sram 0 (512 + bodyLen head)
            match bodyError s1 img with
            | some e => beginRecovery (wr s1 (bootPage c) fBOOTERR e) c
            | none => runRecovered s1 c img
          else if had then s1
          else askRanges s1 c

/-- RECOVERY_RETRY_TIMER: every missing range requested again every 100 ms (R504). -/
def recoveryRetry (s : State) : State :=
  match recoveringCore s with
  | none => s
  | some c => if s.now < (coreGet s c).askedAt + 100000000 then s else askRanges s c

/-- RECOVERY_ROLE_TIMEOUT: after 60 s the role and the recovery pass to the other core's ROM (R504). -/
def recoverySwap (s : State) : State :=
  match recoveringCore s with
  | none => s
  | some c =>
    let d := otherCore c
    if (coreGet s d).tested ≠ some true ∨ s.now < (coreGet s c).since + 60000000000 then s
    else
      let s1 := corePut s c { coreGet s c with recovering := false, sram := [], have_ := [] }
      beginRecovery { s1 with boot := { s1.boot with lead := some d, flashHolder := some d, grantAt := s1.now } } d

/-- STANDBY_SYNCED (R506). -/
def standbySynced (s : State) : State :=
  match (List.range 2).find? (fun c => rd s (curPage c) fROLE == 2 && (coreGet s c).image != []) with
  | some c => wr s (curPage c) fSYNCED 1
  | none => s

/-- CUR_UPD.STATE on both mailbox pages (R517). -/
def showUpdate (s : State) (st : Nat) : State := wr (wr s (curPage 0) fUPDSTATE st) (curPage 1) fUPDSTATE st

/-- UPDATE ends with a result before its hand-over (R508, R509). -/
def updateEnd (s : State) (result : Nat) : State :=
  match s.boot.update with
  | none => s
  | some u => mailDone (showUpdate { s with boot := { s.boot with update := none } } 0) u.session u.slot result []

/-- A core reset into its ROM (R459, R507). -/
def coreReset (s : State) (c : Nat) : State :=
  let s1 := setRole (corePut s c coreInRom) c 3 0
  { s1 with boot := { s1.boot with
      active := if s1.boot.active = some c then none else s1.boot.active, lead := if s1.boot.lead = some c then none else s1.boot.lead
      flashHolder := if s1.boot.flashHolder = some c then none else s1.boot.flashHolder } }

/-- What the expiry of the active core's watchdog does before the hand-over (R459). -/
def activeExpires (s : State) (c : Nat) : State :=
  let s1 := ringsDrop s 2
  coreReset (setAlert (withAlert s1 (fun u => { u with power := { u.power with wdogAlert := true } })) 0) c

/-- WATCHDOG_EXPIRY of a core that has not been serviced for 100 ms (R459, R507). -/
def watchdogExpiry (s : State) (c : Nat) : State :=
  match (coreGet s c).kickAt with
  | none => s
  | some t =>
    if s.now < t + 100000000 then s
    else if s.boot.active = some c then activeExpires s c
    else
      let s1 := updateEnd (coreReset s c) mSTATE
      raiseZero (setAlert s1 0) (activePage s1) 9

/-- WATCHDOG_KICK (R507). -/
def watchdogKick (s : State) (c : Nat) : State :=
  if (coreGet s c).kickAt.isSome then corePut s c { coreGet s c with kickAt := some s.now } else s

/-- The Curator writes x_OPEN = 1: loopback training begins while both ring ports are RUNNING (R369). -/
def ringOpen (s : State) (r : Ring) : State :=
  let pg := xPage 0 0
  let s1 := wr s pg (fROPEN r) 1
  if rd s pg (fRSTATE r) = 0 ∧ ringPortsRun s r = true then wr { s1 with ringAt := tins s1.ringAt (ringNum r) s.now } pg (fRSTATE r) 1 else s1

/-- Orders 6 and 7 of a live update whose new image core b runs as the active core (R508): the slot written, UPDATES counted, and the
request's end. -/
def updateFinish (s : State) (b : Nat) (u : Update) : State :=
  let k := (rd s (curPage b) fUPDATES + 1) % 2 ^ 16
  let s1 := { s with boot := { s.boot with slot := u.image, update := none } }
  let s2 := (List.range 2).foldl (fun t c => wr t (curPage c) fUPDATES k) (showUpdate s1 0)
  mailDone (raise s2 (curPage b) 10) u.session u.slot mDONE []

/-- TAKEOVER: a standby that has synced becomes active (R459, R507, R509). The journal entries that are not complete stay so, with BUSY 1,
and their requests' rows carry them out (R507). An update whose image the new active core runs goes on from Order 6 (R509;
notes/assumptions/159). -/
def takeover (s : State) : State :=
  match s.boot.active, (List.range 2).find? (fun c => rd s (curPage c) fROLE == 2 && rd s (curPage c) fSYNCED == 1) with
  | none, some c =>
    let s1 := setRole { s with boot := { s.boot with active := some c, lead := some c } } c 1 0
    let s2 := raise s1 (curPage c) 8
    let s4 := match s1.boot.update with
      | some u => if (coreGet s1 c).image = u.image then updateFinish s2 c u else updateEnd s2 mSTATE
      | none => s2
    vecTry (s4.boot.ringsOpen.foldl ringOpen s4) 0
  | _, _ => s

/-- No request other than UPDATE executes (R508). -/
def quietNow (s : State) (u : Update) : Bool :=
  rd s rootPage ⟨0x700, 17, 1⟩ == 0 && rd s pwrPage fRBUSY == 0 &&
    (List.range 64).all (fun p => rd s (resPage s) ⟨0x210 + 24 * p, 5, 1⟩ == 0) &&
    s.boot.mail.all (fun e => e.2.state != 1 || e.1 == 16 * u.session + u.slot)

/-- QUIET_POINT: the hand-over of a live update, the former active core on the new image, the slot written (R508). The length of the
pause is a free value of at most 50 ms. -/
def quietPoint (s : State) : State :=
  match s.boot.update, s.boot.active with
  | some u, some a =>
    let b := otherCore a
    if quietNow s u = false ∨ rd s (curPage b) fSYNCED = 0 then s
    else
      match nextFree s with
      | (s1, n) =>
        let pause := (Config.freeWord n).toNat % 50001
        let s2 := setRole (setRole { s1 with boot := { s1.boot with active := some b, lead := some b } } b 1 0) a 2 0
        let s3 := runImage s2 a u.image false
        let s4 := (List.range 2).foldl (fun t c => wr t (curPage c) fPAUSE pause) s3
        vecTry (updateFinish (raise s4 (curPage b) 8) b u) 0
  | _, _ => s

/-- UPDATE_QUIET_TIMEOUT: no quiet point within 10 s (R508). -/
def updateTimeout (s : State) : State :=
  match s.boot.update, s.boot.active with
  | some u, some a =>
    let b := otherCore a
    if s.now < u.since + 10000000000 then s else updateEnd (setRole (runImage s b u.previous false) b 2 0) mSTATE
  | _, _ => s

/-- WATCHDOG_EXPIRY (R459). -/
def execWatchdogExpiry (core : Fin 2) (s : State) : Host.Outcome State Fault Refusal := .next (alive s (fun t => watchdogExpiry t core.val))
/-- WATCHDOG_KICK (R507). -/
def execWatchdogKick (core : Fin 2) (s : State) : Host.Outcome State Fault Refusal := .next (alive s (fun t => watchdogKick t core.val))
/-- TAKEOVER (R507). -/
def execTakeover (s : State) : Host.Outcome State Fault Refusal := .next (alive s takeover)
/-- ROM_SELF_TEST_COMPLETE (R502). -/
def execRomSelfTestComplete (core : Fin 2) (pass : Bool) (s : State) : Host.Outcome State Fault Refusal :=
  .next (alive s (fun t => selfTest t core.val pass))
/-- IMAGE_LOADED (R500, R502). -/
def execImageLoaded (core : Fin 2) (s : State) : Host.Outcome State Fault Refusal := .next (alive s (fun t => imageLoaded t core.val))
/-- FLASH_GRANT_TIMEOUT (R502). -/
def execFlashGrantTimeout (s : State) : Host.Outcome State Fault Refusal := .next (alive s grantTimeout)
/-- RCV_DATA (R504). -/
def execRcvData (offset : Word32) (bytes : List Byte) (s : State) : Host.Outcome State Fault Refusal :=
  .next (alive s (fun t => rcvData t offset.toNat bytes))
/-- RECOVERY_RETRY_TIMER (R504). -/
def execRecoveryRetryTimer (s : State) : Host.Outcome State Fault Refusal := .next (alive s recoveryRetry)
/-- RECOVERY_ROLE_TIMEOUT (R504). -/
def execRecoveryRoleTimeout (s : State) : Host.Outcome State Fault Refusal := .next (alive s recoverySwap)
/-- STANDBY_SYNCED (R506). -/
def execStandbySynced (s : State) : Host.Outcome State Fault Refusal := .next (alive s standbySynced)
/-- QUIET_POINT (R508). -/
def execQuietPoint (s : State) : Host.Outcome State Fault Refusal := .next (alive s quietPoint)
/-- UPDATE_QUIET_TIMEOUT (R508). -/
def execUpdateQuietTimeout (s : State) : Host.Outcome State Fault Refusal := .next (alive s updateTimeout)

end Sys2Proof.Machine
end

