-- ==== Sys2Proof/Machine/Collective.lean ====
section
/-! DEFINITION. Gradient reduction (R374-R391, R399, R409): groups, the fixed order of points, BS8 at the points, the mirror of roots
in the Vault, and the segments. -/

namespace Sys2Proof.Machine

/-- COLL_CFG.SEG_BLOCKS (R402). -/
def fSEGBLOCKS : FRef := ⟨0x100, 0, 8⟩

/-- Member m of a member table (R375). -/
def memberAt (ms : List Byte) (m : Nat) : List Byte := (ms.drop (8 * m)).take 8
/-- SESSION of a member. -/
def memberSession (ms : List Byte) (m : Nat) : Nat := leAt (memberAt ms m) 0 2
/-- EPOCH of a member. -/
def memberEpoch (ms : List Byte) (m : Nat) : Nat := leAt (memberAt ms m) 4 4
/-- MEMBERS of a group descriptor (R374). -/
def groupCount (g : List Byte) : Nat := leAt g 0 4
/-- SELF of a group descriptor. -/
def groupSelf (g : List Byte) : Nat := leAt g 4 2
/-- Whether member m is present (R375). -/
def isHere (g ms : List Byte) (m : Nat) : Bool := decide (m < groupCount g) && leAt (memberAt ms m) 2 1 % 4 == 1
/-- The present members, ascending. -/
def hereMembers (g ms : List Byte) : List Nat := (List.range (groupCount g)).filter (isHere g ms)

/-- Whether a group descriptor with its member table holds no reserved value (R374, R375). -/
def groupOk (g ms : List Byte) : Bool :=
  decide (1 ≤ groupCount g) && decide (groupCount g ≤ 65536) && decide (groupSelf g < groupCount g) && leAt g 6 2 == 0 &&
    leAt g 8 6 % 8 == 0 && ms.length == 8 * groupCount g &&
    (List.range (groupCount g)).all (fun m => leAt (memberAt ms m) 2 1 / 4 == 0 && leAt (memberAt ms m) 3 1 == 0)

/-- T of a reduction descriptor (R376). -/
def redT (r : RedRun) : Nat := leAt r.desc 0 3
/-- SHARD. -/
def redShard (r : RedRun) : Nat := leAt r.desc 48 8
/-- ELEMENTS. -/
def redElements (r : RedRun) : Nat := leAt r.desc 40 8
/-- This module's member number in the reduction's group. -/
def redSelf (r : RedRun) : Nat := groupSelf r.group
/-- Whether member m is present in the reduction's group. -/
def redHere (r : RedRun) (m : Nat) : Bool := isHere r.group r.members m

/-- Whether any of n members from m on is present. -/
def anyHere (r : RedRun) (m n : Nat) : Bool := (List.range n).any (fun i => redHere r (m + i))

/-- The owners of shards: present members whose first element exists (R377; notes/assumptions/56). -/
def redOwners (r : RedRun) : List Nat := (hereMembers r.group r.members).filter (fun m => decide (m * redShard r < redElements r))

/-- Blocks of the shard of an owner (R377). -/
def redBlocks (r : RedRun) (o : Nat) : Nat := (min (redShard r) (redElements r - o * redShard r) + 31) / 32

/-- The group nodes visited for the shard of owner o, in order (R380). -/
def visited (r : RedRun) (o : Nat) : List Nat :=
  let n := (groupCount r.group + 7) / 8
  ((List.range n).map (fun j => (o / 8 + 1 + j) % n)).filter (fun k => anyHere r (8 * k) 8)

/-- The delegate of node n for the shard of owner o (R382). -/
def delegateOf (r : RedRun) (o n : Nat) : Nat :=
  if redHere r (8 * n + o % 8) then 8 * n + o % 8
  else ((List.range 8).map (fun l => 8 * n + l)).find? (redHere r) |>.getD (8 * n)

/-- A point (R380). -/
inductive Point where
  | leaf (m : Nat)
  | inner (k n i : Nat)
  | chain (n : Nat)
  deriving DecidableEq, Repr

/-- The code of a point (R383). -/
def pointCode (p : Point) : Nat :=
  match p with
  | .leaf m => m
  | .inner k n i => 0x800000 + k * 2 ^ 20 + n * 4 + i
  | .chain n => 0xC00000 + n

/-- The point of a code, if it is one (R380, R383). -/
def pointOf (c : Nat) : Option Point :=
  if c < 0x10000 then some (.leaf c)
  else if 0xC00000 ≤ c ∧ c < 0xC02000 then some (.chain (c - 0xC00000))
  else
    let k := (c - 0x800000) / 2 ^ 20
    let n := (c - 0x800000) % 2 ^ 20 / 4
    if 0x900000 ≤ c ∧ c < 0xC00000 ∧ n < 8192 ∧ c % 4 < 8 / 2 ^ k then some (.inner k n (c % 4)) else none

/-- The point whose value leaves node n for the shard of owner o: P(n) at the first node visited, C(n) at every other (R380). -/
def topPoint (r : RedRun) (o n : Nat) : Point := if (visited r o).head? = some n then .inner 3 n 0 else .chain n

/-- Whether a point is the root of the shard of owner o (R380). -/
def isRoot (r : RedRun) (o : Nat) (p : Point) : Bool := (visited r o).getLast? == some (o / 8) && p == topPoint r o (o / 8)

/-- Whether a point has a present member under it. -/
def pointHere (r : RedRun) (p : Point) : Bool :=
  match p with
  | .leaf m => redHere r m
  | .inner k n i => anyHere r (8 * n + i * 2 ^ k) (2 ^ k)
  | .chain n => anyHere r (8 * n) 8

/-- The two children of a point for the shard of owner o; none where the point does not exist (R380). -/
def childrenOf (r : RedRun) (o : Nat) (p : Point) : Option (Point × Point) :=
  match p with
  | .leaf _ => none
  | .inner k n i =>
    if k = 1 then some (.leaf (8 * n + 2 * i), .leaf (8 * n + 2 * i + 1)) else some (.inner (k - 1) n (2 * i), .inner (k - 1) n (2 * i + 1))
  | .chain n =>
    let vs := visited r o
    let j := vs.idxOf n
    if j = 0 ∨ vs.length ≤ j then none else some (topPoint r o (vs.getD (j - 1) 0), .inner 3 n 0)

/-- ceil(log2 n). -/
def ceilLog2 (n : Nat) : Nat := blen (n - 1)

/-- λ of a point (R385). -/
def lambdaOf (r : RedRun) (o : Nat) (p : Point) : Nat :=
  let c := match p with | .leaf _ => 1 | .inner k _ _ => 2 ^ k | .chain n => 8 * ((visited r o).idxOf n + 1)
  let l := ceilLog2 c
  if leAt r.desc 5 1 = 0 then l else (l + 1) / 2

/-- The exponent at which a point encodes (R385). -/
def pointExp (r : RedRun) (o : Nat) (p : Point) : Int := max (-126) (min 120 (r.exp - 7 + lambdaOf r o p))

/-- What an encoding point adds to its wire entry for one block (R387). `nf`: what counts in NONFINITE. -/
def encodeCounts (sums : List Nat) (lam : Nat) (out : List Byte) (wide : Bool) (nf : Nat) : Counts :=
  let big := sums.foldl (fun m x => if (val32 x).finite then max m (packFtz (scaleVal (val32 x).mag (-(lam : Int)))) else m) 0
  ⟨32, if bs8Escalated out then 0 else ((out.drop 1).filter (· == 0)).length, b2n wide, nf, big⟩

/-- Two counts together. -/
def addCount (a b : Counts) : Counts :=
  ⟨a.elements + b.elements, a.zeros + b.zeros, a.sats + b.sats, a.nonfinite + b.nonfinite, max a.peak b.peak⟩

/-- One block encoded at a point, with its counts (R383, R386, R387). -/
def encodePoint (r : RedRun) (key : Quad) (step o block : Nat) (p : Point) (force : Bool) (sums : List Nat) (nf : Nat) : List Byte × Counts :=
  let e0 := o * redShard r + 32 * block
  let words := (List.range 32).map (fun i => drawWord key 2 (redT r) step (pointCode p * 2 ^ 42 + e0 + i))
  let b := bs8Encode (pointExp r o p) force sums words
  let finite := sums.all (fun x => (val32 x).finite)
  (b.1, encodeCounts sums (lambdaOf r o p) b.1 (b.2 && !force && finite) nf)

/-- The reserved values of a reduction descriptor (R376, R379). -/
def redDescOk (r : RedRun) : Bool :=
  let d := r.desc
  let n := leAt d 9 1
  decide (leAt d 3 1 ≤ 2) && decide (leAt d 5 1 ≤ 1) && decide (1 ≤ n) && decide (n ≤ 8) && (firstSet d 10 6).isNone &&
    (firstSet d 34 6).isNone && (firstSet d (64 + 8 * n) (64 - 8 * n)).isNone && leAt d 28 6 % 64 == 0 &&
    (List.range n).all (fun i => decide (leAt d (64 + 8 * i) 2 < 1024) && leAt d (66 + 8 * i) 2 == 0) &&
    decide (1 ≤ redElements r) && decide (redElements r ≤ 2 ^ 42) && redShard r != 0 && redShard r % 32 == 0

/-- Whether the descriptor of a reduction on X-die x is accepted (R379). -/
def redOk (x : Nat) (r : RedRun) : Bool :=
  redDescOk r && groupOk r.group r.members && redHere r (redSelf r) &&
    (List.range (groupCount r.group)).all (fun m => m == redSelf r || leAt (memberAt r.members m) 2 1 % 2 == 0 ||
      memberSession r.members m / 8192 == x) &&
    decide (520 * (redShard r / 32) * (groupCount r.group / 8 + 1) ≤ leAt r.desc 56 8)

/-- Reduction RID of partition p on X-die x. -/
def redFind (s : State) (x p rid : Nat) : Option RedRun := (partGet s p).coll.reds.find? (fun r => r.xdie == x && r.rid == rid)

/-- The state with a reduction replaced. -/
def redPut (s : State) (p : Nat) (r : RedRun) : State :=
  let x := partGet s p
  partPut s p { x with coll := { x.coll with reds := x.coll.reds.map (fun q => if q.xdie = r.xdie ∧ q.rid = r.rid then r else q) } }

/-- A reduction fails with a cause (R399, R402); one that has failed stays as it is. -/
def redFail (s : State) (x p rid cause : Nat) : State :=
  match redFind s x p rid with
  | none => s
  | some r => if r.failed.isSome then s else collFail (redPut s p { r with failed := some cause }) x p rid cause (stepNow s p)

/-- A reduction fails on data it cannot read or write: cause 0x7, with the address (R229, R399, R571). -/
def redFailData (s : State) (x p rid va : Nat) (e : AccErr) : State := redFail (recordAccess s (collPage x) (some p) va e) x p rid 7

/-- Whether the collective engine of X-die x may originate a segment of partition p (R362, R399, R415). -/
def mayOriginate (s : State) (x p : Nat) : Bool := running s (collPage x) && !onHold s p && !contextStopped s x p

/-- Whether a reduction goes on. -/
def redLive (r : RedRun) : Bool := r.desc != [] && r.failed.isNone

/-- The place of a block in BUF: the manual does not give BUF's layout, so the place is a free value (R391;
notes/assumptions/57). -/
def bufAddr (r : RedRun) (code o block : Nat) : Nat := leAt r.desc 28 6 + Config.bufPlace code o block % (leAt r.desc 56 8 - 64)

/-- An encoded block kept for the points of this module, in BUF and with the engine (R391); a block already held is replaced. -/
def keepBlock (s : State) (x p rid code o block : Nat) (b : List Byte) : State × Option (Nat × AccErr) :=
  match redFind s x p rid with
  | none => (s, none)
  | some r =>
    match vstore s p (bufAddr r code o block) b with
    | (s1, some e) => (s1, some e)
    | (s1, none) =>
      let held := r.points.filter (fun v => !(v.point == code && v.owner == o && v.block == block))
      (redPut s1 p { r with points := ⟨code, o, block, b⟩ :: held }, none)

/-- Blocks kept from a block number on. -/
def keepBlocks (s : State) (x p rid code o first : Nat) (bs : List (List Byte)) : State × Option (Nat × AccErr) :=
  match bs with
  | [] => (s, none)
  | b :: r => match keepBlock s x p rid code o first b with | (s1, none) => keepBlocks s1 x p rid code o (first + 1) r | e => e

/-- Blocks packed into messages: (first block, how many, bytes) (R389). -/
def packSegs (lim first : Nat) (cur : Nat × Nat × List Byte) (bs : List (List Byte)) : List (Nat × Nat × List Byte) :=
  match bs with
  | [] => if cur.2.1 = 0 then [] else [cur]
  | b :: r =>
    if cur.2.1 = 0 then packSegs lim (first + 1) (first, 1, b) r
    else if cur.2.1 < lim ∧ cur.2.2.length + b.length ≤ 8184 then packSegs lim (first + 1) (cur.1, cur.2.1 + 1, cur.2.2 ++ b) r
    else cur :: packSegs lim (first + 1) (first, 1, b) r

/-- One segment of partition p originated on a member's session (R388): nothing leaves where the session is not OPEN. The message it
began. -/
def sendSeg (s : State) (i epoch kind : Nat) (h : SegHdr) (a b : Nat) (bs : List Byte) : State :=
  send s i (.seg (BitVec.ofNat 16 i) epoch kind h a b bs)

/-- The blocks of a point sent to a member, each message kept with its reduction until it is acknowledged (R389, R392). -/
def sendBlocks (s : State) (x p rid : Nat) (p_ : Point) (o dest first : Nat) (bs : List (List Byte)) : State :=
  match redFind s x p rid with
  | none => s
  | some r =>
    let i := memberSession r.members dest
    let h : SegHdr := ⟨BitVec.ofNat 16 rid, BitVec.ofNat 24 (pointCode p_), BitVec.ofNat 16 o, BitVec.ofNat 16 dest,
      BitVec.ofNat 32 (stepNow s p), false⟩
    (packSegs (rd s (collPage x) fSEGBLOCKS) first (0, 0, []) bs).foldl (fun t g =>
      match redFind t x p rid with
      | none => t
      | some q =>
        if sessOpen t i then
          sendSeg (redPut t p { q with unacked := q.unacked ++ [(i, nextSeq t i)], sent := q.sent ++ [(i, nextSeq t i)] }) i (memberEpoch r.members dest) 1 h g.1 g.2.1 g.2.2
        else redPut t p { q with unacked := q.unacked ++ [(65536 + i, 0)] }) s

/-- One element of this module's contribution as FP32, from its bytes (R376, R380). -/
def leafValue (fmt : Nat) (b : List Byte) : Nat := if fmt = 0 then leNat b else fromStore (fmt - 1) (leNat b)

/-- The 32 elements of a block of the contribution; a restored rank contributes zeros (R377, R419). -/
def leafElements (s : State) (p : Nat) (r : RedRun) (o block : Nat) : Except (Nat × AccErr) (List Nat) :=
  let fmt := leAt r.desc 3 1
  let size := if fmt = 0 then 4 else 2
  let e0 := o * redShard r + 32 * block
  let n := min 32 (redElements r - e0)
  if rd s (resPage s) (fRNULL p) = 1 then .ok (List.replicate 32 0)
  else
    match vload s p (leAt r.desc 16 6 + size * e0) (size * n) with
    | .error e => .error e
    | .ok b => .ok ((List.range 32).map (fun i => if i < n then leafValue fmt ((b.drop (size * i)).take size) else 0))

/-- The leaf of this module for blocks of an owner's shard, from a block on (R380, R386). -/
def encodeLeaves (s : State) (p : Nat) (r : RedRun) (key : Quad) (step o n block : Nat) : Except (Nat × AccErr) (List (List Byte) × Counts) :=
  match n with
  | 0 => .ok ([], noCounts)
  | k + 1 =>
    match leafElements s p r o block with
    | .error e => .error e
    | .ok xs =>
      let nf := (xs.filter (fun v => !(val32 v).finite)).length
      let b := encodePoint r key step o block (.leaf (redSelf r)) false xs nf
      match encodeLeaves s p r key step o k (block + 1) with
      | .error e => .error e
      | .ok (bs, c) => .ok (b.1 :: bs, addCount b.2 c)

/-- The wire counts of a reduction added to its census entry, and the blocks counted (R387, R529). -/
def countPoints (s : State) (x p rid g : Nat) (r : RedRun) (bs : List (List Byte)) (c : Counts) : State :=
  let pg := collPage x
  let s1 := tally (tally s pg 3 bs.length) pg 4 (bs.filter bs8Escalated).length
  match addCounts s1 g (leAt r.desc 6 2) (stepNow s p) c with
  | (s2, none) => s2
  | (s2, some (va, e)) => redFailData s2 x p rid va e

/-- The contribution to one owner's shard after it is read (R440). -/
def leafHeal (s : State) (p : Nat) (r : RedRun) (o : Nat) : State :=
  let size := if leAt r.desc 3 1 = 0 then 4 else 2
  let e0 := o * redShard r
  if rd s (resPage s) (fRNULL p) = 1 then s else vheal s p (leAt r.desc 16 6 + size * e0) (size * min (redShard r) (redElements r - e0))

/-- The leaves of one owner's shard encoded, and kept or sent to the delegate of this node (R382, R386); one whose encoding fails its
check is an uncorrectable word of BUF (R443). -/
def fireOwner (s : State) (x p rid g o : Nat) (fails : Option (Half × Nat)) : State :=
  match redFind s x p rid with
  | none => s
  | some r =>
    let bad := fails.filter (fun f => f.1.toNat == o && decide (f.2 < redBlocks r o))
    if r.failed.isSome then s
    else if bad.isSome then
      let e := failedWord s p (bufAddr r (redSelf r) o (bad.getD (0, 0)).2)
      redFailData s x p rid e.1 e.2
    else
      match encodeLeaves s p r (keyFor s g) (stepNow s p) o (redBlocks r o) 0 with
      | .error (va, e) => redFailData s x p rid va e
      | .ok (bs, c) =>
        let s1 := countPoints (leafHeal s p r o) x p rid g r bs c
        let d := delegateOf r o (redSelf r / 8)
        if d = redSelf r then
          match keepBlocks s1 x p rid (redSelf r) o 0 bs with
          | (s2, none) => s2
          | (s2, some (va, e)) => redFailData s2 x p rid va e
        else sendBlocks s1 x p rid (.leaf (redSelf r)) o d 0 bs

/-- The trigger entries of a reduction (R376). -/
def redTriggers (r : RedRun) : List (Nat × Nat) :=
  (List.range (min 8 (leAt r.desc 9 1))).map (fun i => (leAt r.desc (64 + 8 * i) 2, leAt r.desc (68 + 8 * i) 4))

/-- REDUCTION_FIRE (R378, R379). -/
def redFire (s : State) (x p rid : Nat) (fails : Option (Half × Nat)) : State :=
  match redFind s x p rid, leadOf s p with
  | some r, some g =>
    let ts := (redTriggers r).filter (fun e => decide (e.1 < 1024))
    if redLive r = false ∨ r.fired = true ∨ running s (collPage x) = false then s
    else if ts.any (fenceHalted s) then redFail s x p rid 2
    else if ts.all (fenceMet s) = false then s
    else if redOk x r = false then redFail (redPut s p { r with fired := true }) x p rid 1
    else if mayOriginate s x p = false ∧ (redOwners r).any (fun o => delegateOf r o (redSelf r / 8) != redSelf r) = true then s
    else
      let s1 := tally (redPut s p { r with fired := true }) (collPage x) 5 1
      (redOwners r).foldl (fun t o => fireOwner t x p rid g o fails) s1
  | _, _ => s

/-- A block held of a point. -/
def heldBlock (r : RedRun) (c o block : Nat) : Option (List Byte) :=
  (r.points.find? (fun v => v.point == c && v.owner == o && v.block == block)).map (·.bytes)

/-- A child of a point as the engine has it: absent, still to come, or there (R381). -/
inductive Child where
  | absent
  | missing
  | block (b : List Byte)
  deriving DecidableEq, Repr

/-- A child's block for the shard of owner o. -/
def childOf (r : RedRun) (o block : Nat) (p : Point) : Child :=
  if pointHere r p = false then .absent
  else match heldBlock r (pointCode p) o block with | some b => .block b | none => .missing

/-- The EPOCH of the partition a peer session leads to, from the peer table; where no entry names the session, a free value (R360,
R361; notes/assumptions/58). -/
def peerEpoch (s : State) (p i : Nat) : State × Nat :=
  let x := sessXdie i
  match (List.range (rd s (ztPage x) (fPEERCOUNT p))).findSome? (fun k =>
      match peerEntry s x p k with | some e => if e.1 = i then some e.2 else none | none => none) with
  | some e => (s, e)
  | none => match nextFree s with | (t, n) => (t, (Config.freeWord n).toNat % 2 ^ 32)

/-- A write into the Vault at an offset, and the messages it began, at most 8 MiB each (R405, R409, R411). -/
def vaultWrite (s : State) (p off : Nat) (bs : List Byte) (cls : Nat) : State × List Word32 :=
  let d := (partGet s p).res.desc
  let i := rdVAULT d
  match peerEpoch s p i with
  | (s1, e) =>
    (cut (bs.length / 0x800000 + 1) 0 bs.length 0x800000).foldl (fun (t : State × List Word32) c =>
      (sendWrite t.1 i e (rdVBASE d + off + c.1) ((bs.drop c.1).take (c.2 - c.1)) cls, t.2 ++ [nextSeq t.1 i])) (s1, [])

/-- A record of the Vault header (R408). -/
def headerRecord (step state len time : Nat) : List Byte :=
  leBytes 4 step ++ leBytes 1 state ++ leBytes 3 0 ++ leBytes 8 len ++ leBytes 8 time ++ leBytes 8 0

/-- Whether the Vault of a partition can be written to now: a Vault, and its session OPEN and bound to the partition as a peer. -/
def vaultOpen (s : State) (p : Nat) : Bool :=
  hasVault (partGet s p).res &&
    (match sessGet s (rdVAULT (partGet s p).res.desc) with
     | some y => decide (y.phase = .opened) && decide (y.role = .peer) && y.partition == p
     | none => false)

/-- Length of a half of the partition's Vault, as its descriptors stand; 0 where they cannot be read. -/
def halfLen (s : State) (p : Nat) : Nat :=
  let d := (partGet s p).res.desc
  match readCommon s p d, readOpts s p (rdCOMMIT d) with
  | .ok cs, .ok os => halfBytes s p (os.map dirEntry) cs
  | _, _ => 0

/-- The record of the gradient slot of step n written with a STATE (R408, R409). -/
def slotRecord (s : State) (p n state : Nat) : State :=
  let bs := headerRecord n state (slotBytes (partGet s p).coll.reds) s.now
  match vaultWrite s p (64 + 32 * (n % 2)) bs 2 with
  | (s1, ms) =>
    let r := (partGet s1 p).res
    resPut s1 p { r with mirrorMsgs := r.mirrorMsgs ++ ms, mirrorStep := some n }

/-- A root block mirrored in the gradient slot of step n (R409). Without a Vault, nothing. -/
def mirrorRoot (s : State) (x p rid n block : Nat) (bs : List Byte) : State :=
  let rs := (partGet s p).coll.reds
  if vaultOpen s p = false then s
  else
    let s1 := if (partGet s p).res.mirrorStep = some n then s else slotRecord s p n 1
    let off := slotOffset (halfLen s1 p) (slotBytes rs) (n % 2) + slotAt rs (rs.findIdx (fun r => r.xdie == x && r.rid == rid)) + 128 * block
    match vaultWrite s1 p off bs 2 with
    | (s2, ms) =>
      let r := (partGet s2 p).res
      tally (tally (resPut s2 p { r with mirrorMsgs := r.mirrorMsgs ++ ms }) (resPage s2) 1 bs.length) (collPage x) 14 1

/-- The root of a block written to DST, and mirrored; positions beyond ELEMENTS are not written (R377, R380, R409). -/
def writeRoot (s : State) (x p rid o block : Nat) (sums : List Nat) : State :=
  match redFind s x p rid with
  | none => s
  | some r =>
    let n := min 32 (redElements r - (o * redShard r + 32 * block))
    let bs := (sums.take n).flatMap (leBytes 4)
    match vstore s p (leAt r.desc 22 6 + 128 * block) bs with
    | (s1, some (va, e)) => redFailData s1 x p rid va e
    | (s1, none) => mirrorRoot (redPut s1 p { r with roots := r.roots ++ [block] }) x p rid (stepNow s p) block bs

/-- A point's block, once computed, kept for its parent here or sent to the delegate of the next node (R382). -/
def placePoint (s : State) (x p rid o block : Nat) (pt : Point) (b : List Byte) : State :=
  match redFind s x p rid with
  | none => s
  | some r =>
    let s1 := redPut s p { r with points := ⟨pointCode pt, o, block, b⟩ :: r.points }
    let n := redSelf r / 8
    let vs := visited r o
    if pt = topPoint r o n then
      match vs[vs.idxOf n + 1]? with
      | some m => sendBlocks s1 x p rid pt o (delegateOf r o m) block [b]
      | none => s1
    else s1

/-- A point of one block computed from its children (R380, R381, R386, R387). -/
def runPoint (s : State) (x p rid g o block : Nat) (pt : Point) (r : RedRun) (a b : Child) : State :=
  let root := isRoot r o pt
  match a, b with
  | .block l, .block q =>
    let ls := bs8Decode l
    let qs := bs8Decode q
    let sums := (List.range 32).map (fun i => fadd (ls.getD i 0) (qs.getD i 0))
    if root then writeRoot s x p rid o block sums
    else
      let nf := ((List.range 32).filter (fun i => (val32 (ls.getD i 0)).finite && (val32 (qs.getD i 0)).finite &&
        !(val32 (sums.getD i 0)).finite)).length
      let e := encodePoint r (keyFor s g) (stepNow s p) o block pt (bs8Escalated l || bs8Escalated q) sums nf
      placePoint (countPoints s x p rid g r [e.1] e.2) x p rid o block pt e.1
  | .block l, .absent => if root then writeRoot s x p rid o block (bs8Decode l) else placePoint s x p rid o block pt l
  | .absent, .block q => if root then writeRoot s x p rid o block (bs8Decode q) else placePoint s x p rid o block pt q
  | _, _ => s

/-- Whether a point has been computed for a block: its block is held, or the root is written. -/
def pointDone (r : RedRun) (o block : Nat) (pt : Point) : Bool :=
  if isRoot r o pt then r.roots.contains block else (heldBlock r (pointCode pt) o block).isSome

/-- Whether a point belongs to this module's node as a delegate for the shard of owner o (R382). -/
def pointMine (r : RedRun) (o : Nat) (pt : Point) : Bool :=
  let n := redSelf r / 8
  delegateOf r o n == redSelf r && (redOwners r).contains o &&
    (match pt with | .leaf _ => false | .inner _ m _ => m == n | .chain m => m == n)

/-- Whether the blocks of an inbound point can be read from BUF (R399). -/
def bufReadable (s : State) (p : Nat) (r : RedRun) (o block : Nat) (pts : List Point) : Option (Nat × AccErr) :=
  pts.findSome? (fun q =>
    let foreign := match q with | .leaf _ => true | .inner 3 m _ => m != redSelf r / 8 | .inner _ _ _ => false | .chain m => m != redSelf r / 8
    match foreign, heldBlock r (pointCode q) o block with
    | true, some b =>
      match vload s p (bufAddr r (pointCode q) o block) b.length with
      | .error e => some e
      | .ok _ => none
    | _, _ => none)

/-- Where a point's block is written: its place in BUF, or in DST for the root (R382, R391). -/
def pointAddr (r : RedRun) (o block : Nat) (pt : Point) : Nat :=
  if isRoot r o pt then leAt r.desc 22 6 + 128 * block else bufAddr r (pointCode pt) o block

/-- POINT_COMPUTE (R380, R382); a result whose check fails is an uncorrectable word where it would have been written (R443). -/
def pointCompute (s : State) (x p rid code o block : Nat) (fails : Bool) : State :=
  match redFind s x p rid, leadOf s p, pointOf code with
  | some r, some g, some pt =>
    if redLive r = false ∨ redOk x r = false ∨ running s (collPage x) = false then s
    else if pointMine r o pt = false ∨ redBlocks r o ≤ block ∨ pointDone r o block pt = true then s
    else
      match childrenOf r o pt with
      | none => s
      | some (a, b) =>
        let ca := childOf r o block a
        let cb := childOf r o block b
        let leaves := pt == topPoint r o (redSelf r / 8) && !isRoot r o pt
        if ca = .missing ∨ cb = .missing ∨ (leaves = true ∧ mayOriginate s x p = false) then s
        else
          match bufReadable s p r o block [a, b] with
          | some (va, e) => redFailData s x p rid va e
          | none =>
            let e := failedWord s p (pointAddr r o block pt)
            if fails then redFailData s x p rid e.1 e.2 else runPoint s x p rid g o block pt r ca cb
  | _, _, _ => s

/-- Whether a reduction has completed on this module (R392): it has fired, each shard it computes for has its top point in every
block, every segment it originated has been acknowledged. -/
def redComplete (r : RedRun) : Bool :=
  r.fired && r.failed.isNone && r.unacked.isEmpty &&
    ((redOwners r).filter (fun o => delegateOf r o (redSelf r / 8) == redSelf r)).all (fun o =>
      (List.range (redBlocks r o)).all (fun k => pointDone r o k (topPoint r o (redSelf r / 8))))

/-- REDUCTION_FIRE (R378). -/
def execReductionFire (xdie : Fin 6) (p : Fin 64) (run : FireRun) (s : State) : Host.Outcome State Fault Refusal :=
  .next (alive s (fun t => redFire t xdie.val p.val run.rid.toNat run.fails))
/-- POINT_COMPUTE (R380). -/
def execPointCompute (xdie : Fin 6) (p : Fin 64) (rid : Half) (point : BitVec 24) (owner : Half) (run : PointRun) (s : State) :
    Host.Outcome State Fault Refusal :=
  .next (alive s (fun t => pointCompute t xdie.val p.val rid.toNat point.toNat owner.toNat run.block run.fails))

end Sys2Proof.Machine
end

