-- ==== Sys2Proof/Machine/Combine.lean ====
section
/-! DEFINITION. Inbound segments (R390, R391), the job combine (R392-R394, R415, R418) and pipeline channels (R395-R398). -/

namespace Sys2Proof.Machine

/-- How an inbound segment or bulk packet is answered: taken; left unacknowledged, to come again; or its message fails with a
STATUS and a detail (R358). -/
inductive Answer where
  | taken
  | hold
  | refuse (code detail : Nat)
  deriving DecidableEq, Repr

/-- The STATUS of an access to a structure that cannot be made (R390, R571). -/
def dataStatus (va : Nat) (e : AccErr) : Answer :=
  match e with
  | .data a => .refuse 4 a
  | .table a _ => .refuse 4 a
  | _ => .refuse 4 va

/-- NBLK blocks taken from bytes, or none where they do not fit exactly (R389, R100). -/
def splitBlocks (n : Nat) (bs : List Byte) : Option (List (List Byte)) :=
  match n with
  | 0 => if bs = [] then some [] else none
  | k + 1 =>
    let z := if bs.headD 0 = 0x80 then 65 else 33
    if bs.length < z then none
    else match splitBlocks k (bs.drop z) with | some r => some (bs.take z :: r) | none => none

/-- The checks of orders 3 to 5 that every segment shares (R390): the epoch, a stopped context, the step and reserved fields. -/
def segCheck (s : State) (x p epoch : Nat) (h : SegHdr) : Answer :=
  if epoch ≠ rd s rootPage (fPEPOCH p) then .refuse 2 (rd s rootPage (fPEPOCH p))
  else if contextStopped s x p then .refuse 5 0
  else if h.step.toNat ≠ stepNow s p then .refuse 6 12
  else if h.reserved then .refuse 6 3
  else .taken

/-- EV_COLL_STALE and the record of CODE 0x05 (R360, R390). -/
def collStale (s : State) (x p : Nat) : State :=
  let s1 := recordErr s (ztPage x) 0x05 (some p) 0 false 0
  tally (raise s1 (collPage x) 9) (collPage x) 11 1

/-- The out-message that a relayed message became, kept with the session it came on (R390). -/
def relayOf (s : State) (i : Nat) (msg : Word32) : Option (Nat × Word32) :=
  match sessGet s i with
  | none => none
  | some y => (y.relays.find? (fun r => r.1 == msg)).map (·.2)

/-- A segment sent on unchanged to another member (R390): the packets of one message stay one message. Where the member has no
session it is refused; where that is not OPEN it waits. -/
def relaySeg (s : State) (x i : Nat) (ms : List Byte) (count : Nat) (k : Pkt) (h : SegHdr) (kind a b : Nat) (bs : List Byte) : State × Answer :=
  let d := h.dest.toNat
  let j := memberSession ms d
  if count ≤ d ∨ j = 0xFFFF then (s, .refuse 6 10)
  else if sessOpen s j = false then (s, .hold)
  else
    let o := Out.seg (BitVec.ofNat 16 j) k.epoch.toNat kind h a b bs
    let s1 := tally s (collPage x) 2 1
    match relayOf s i k.msg with
    | some (j2, m) => if j2 = j then (pump (enqueue s1 j (some m) o (k.first, k.last)) j, .taken) else (pump (enqueue s1 j none o (k.first, k.last)) j, .taken)
    | none =>
      let m := nextSeq s1 j
      let s2 := match sessGet s1 i with
        | some y => if k.first && k.last then s1 else sessPut s1 i { y with relays := y.relays ++ [(k.msg, j, m)] }
        | none => s1
      (pump (enqueue s2 j none o (k.first, k.last)) j, .taken)

/-- A refused segment: what the engine records beside the STATUS (R390). `rid`: the reduction that fails with cause 0x4, if any. -/
def refuseSeg (s : State) (x p : Nat) (rid : Option Nat) (a : Answer) : State × Answer :=
  match a with
  | .refuse 2 _ => (collStale s x p, a)
  | .refuse 6 _ => (match rid with | some n => redFail s x p n 4 | none => s, a)
  | _ => (s, a)

/-- Whether an inbound point is one that this module combines for the shard of owner o (R382, R391). -/
def inboundOk (r : RedRun) (o code : Nat) : Bool :=
  let n := redSelf r / 8
  let vs := visited r o
  (redOwners r).contains o && delegateOf r o n == redSelf r &&
    (match pointOf code with
     | some (.leaf m) => m / 8 == n && m != redSelf r && redHere r m
     | some q => vs.contains n && vs.idxOf n != 0 && q == topPoint r o (vs.getD (vs.idxOf n - 1) 0)
     | none => false)

/-- The first byte of the payload at which a block's SCALE is reserved (R101). -/
def badScale (off : Nat) (bs : List (List Byte)) : Option Nat :=
  match bs with
  | [] => none
  | b :: r => if scaleReserved (leAt b 0 1) then some off else badScale (off + b.length) r

/-- Blocks that passed the shared checks (R390, R391). -/
def storeBlocks (s : State) (x p : Nat) (h : SegHdr) (first nblk : Nat) (bs : List Byte) (r : RedRun) : State × Answer :=
  let o := h.owner.toNat
  let c := h.point.toNat
  match splitBlocks nblk bs with
  | none => refuseSeg s x p (some r.rid) (.refuse 6 20)
  | some bl =>
    match badScale 24 bl with
    | some off => refuseSeg s x p (some r.rid) (.refuse 6 off)
    | none =>
      if redOk x r = false ∨ inboundOk r o c = false then refuseSeg s x p (some r.rid) (.refuse 6 4)
      else if redBlocks r o < first + nblk then refuseSeg s x p (some r.rid) (.refuse 6 16)
      else
        match keepBlocks s x p r.rid c o first bl with
        | (s1, none) => (s1, .taken)
        | (s1, some (va, e)) => (redFailData s1 x p r.rid va e, dataStatus va e)

/-- A BLOCKS segment received on session i of partition p (R390). -/
def takeBlocks (s : State) (i p : Nat) (k : Pkt) (h : SegHdr) (first nblk : Nat) (bs : List Byte) : State × Answer :=
  let x := sessXdie i
  if running s (collPage x) = false then (s, .hold)
  else
    match redFind s x p h.rid.toNat with
    | none => refuseSeg s x p none (match segCheck s x p k.epoch.toNat h with | .taken => .refuse 6 0 | a => a)
    | some r =>
      if redSelf r ≠ h.dest.toNat ∧ groupOk r.group r.members = true then
        relaySeg s x i r.members (groupCount r.group) k h 1 first nblk bs
      else
        match segCheck s x p k.epoch.toNat h with
        | .taken => storeBlocks s x p h first nblk bs r
        | a => refuseSeg s x p (some r.rid) a

/-- Position of this module among the present members of the job group (R393); none where it cannot take part (R392). -/
def jobPlace (x : Coll) : Option (List Nat × Nat) :=
  let hs := hereMembers x.job x.jobMembers
  if groupOk x.job x.jobMembers && hs.contains (groupSelf x.job) then some (hs, hs.idxOf (groupSelf x.job)) else none

/-- i AND −i. -/
def lowBit (i : Nat) : Nat := if i = 0 then 0 else (List.range 17).foldr (fun k a => if i.testBit k then 2 ^ k else a) 0

/-- The children of position i among n (R393). -/
def jobChildren (n i : Nat) : List Nat :=
  ((List.range 17).filter (fun j => (i == 0 || decide (2 ^ j < lowBit i)) && decide (i + 2 ^ j < n))).map (fun j => i + 2 ^ j)

/-- Which valid entries of the lead's table are shadow entries, in table order; none where one cannot be read (R205, R393). -/
def entryKinds (s : State) (p : Nat) : List Bool :=
  match leadOf s p with
  | none => []
  | some g => match allEntries s p g with | .ok es => es.map (fun e => isShadow e.2) | .error _ => []

/-- Two statistics records combined (R206); the STEP field keeps its bytes. -/
def mergeStat (a b : List Byte) : List Byte :=
  [0, 8, 16, 24].flatMap (fun o => leBytes 8 (satAdd 64 (leAt a o 8) (leAt b o 8))) ++ leBytes 4 (max (leAt a 32 4) (leAt b 32 4)) ++
    (a.drop 36).take 4

/-- Two shadow records combined (R206). -/
def mergeShadow (a b : List Byte) : List Byte :=
  (List.range 17).flatMap (fun i => leBytes 4 (satAdd 32 (leAt a (4 * i) 4) (leAt b (4 * i) 4)))

/-- Records in table order combined (R206, R393). -/
def mergeRecords (ks : List Bool) (a b : List Byte) : List Byte :=
  match ks with
  | [] => []
  | k :: r =>
    let z := if k then 68 else 40
    (if k then mergeShadow (a.take z) (b.take z) else mergeStat (a.take z) (b.take z)) ++ mergeRecords r (a.drop z) (b.drop z)

/-- Two entries combined (R206, R284, R393). -/
def mergeEntry (ks : List Bool) (a b : Combined) : Combined :=
  ⟨a.finite && b.finite, a.complete && b.complete, (a.contrib + b.contrib) % 2 ^ 32, a.step, mergeRecords ks a.records b.records⟩

/-- A combine message (R393). -/
def combineBytes (ks : List Bool) (c : Combined) : List Byte :=
  leBytes 1 (b2n c.finite + 2 * b2n c.complete) ++ leBytes 3 0 ++ leBytes 4 c.contrib ++ leBytes 4 c.step ++ leBytes 4 ks.length ++ c.records

/-- A combine message read. -/
def combineOf (b : List Byte) : Combined := ⟨bit (leAt b 0 1) 0, bit (leAt b 0 1) 1, leAt b 4 4, leAt b 8 4, b.drop 16⟩

/-- A combine message sent to a member of the job group (R389, R393). -/
def sendCombine (s : State) (p kind dest : Nat) (c : Combined) : State :=
  let x := (partGet s p).coll
  let i := memberSession x.jobMembers dest
  let e := memberEpoch x.jobMembers dest
  let b := combineBytes (entryKinds s p) c
  let h : SegHdr := ⟨0xFFFF, 0, 0, BitVec.ofNat 16 dest, BitVec.ofNat 32 c.step, false⟩
  tally (sendMessage s i ((cut (b.length / 8184 + 1) 0 b.length 8184).map (fun r =>
    Out.seg (BitVec.ofNat 16 i) e kind h r.1 0 ((b.drop r.1).take (r.2 - r.1))))) (collPage 0) 15 1

/-- The working records of the step overwritten with combined ones (R206, R394): an entry that cannot be written is recorded. -/
def putRecords (s : State) (p g n : Nat) (es : List (Nat × List Byte)) (rs : List Byte) : State :=
  match es with
  | [] => s
  | e :: r =>
    let z := recordSize e.2
    let s1 := match vstore s p (entryAt s g e.1 + 16 + z * (n % 2)) (rs.take z) with
      | (t, none) => t
      | (t, some (va, x)) => recordAccess t (cenPage g) (some p) va x
    putRecords s1 p g n r (rs.drop z)

/-- The combined result applied (R394): passed to the children, the records overwritten, the gate opened; a gate that does not allow
the commit skips it (R285, R287). A result of the step that is already applied stands (R418). -/
def applyResult (s : State) (p : Nat) (c : Combined) : State :=
  let x := partGet s p
  if x.stp.job.isSome ∨ c.step ≠ stepNow s p then s
  else
    let s1 := partPut s p { x with coll := { x.coll with result := some c, heldDown := none }, stp := { x.stp with job := some (c.finite, c.complete, c.contrib), gateAt := s.now } }
    let s2 := match jobPlace x.coll with
      | some (hs, i) => if x.coll.alone then s1 else (jobChildren hs.length i).foldl (fun t k => sendCombine t p 3 (hs.getD k 0) c) s1
      | none => s1
    let s3 := match leadOf s2 p with
      | some g => match allEntries s2 p g with
        | .ok es => putRecords s2 p g c.step es c.records
        | .error (va, e) => recordAccess s2 (cenPage g) (some p) va e
      | none => s2
    let s4 := tally (raise s3 (collPage 0) 11) (collPage 0) 7 1
    if c.finite && c.complete && c.contrib != 0 then s4 else skipStep s4 p

/-- The complete inbound COMBINE_UP messages of the step. -/
def upsIn (x : Coll) (n : Nat) : List Combined :=
  (x.ups.filterMap (fun u => match u.2.2.2 with
    | some len => if covered u.2.1 0 len then some (combineOf (takeBytes u.2.2.1 0 len)) else none
    | none => none)).filter (fun c => c.step == n)

/-- The combine goes on: once every child's message is there, the merged entry goes upward, or completes the combine (R393). -/
def combinePump (s : State) (p : Nat) : State :=
  let x := (partGet s p).coll
  match x.merged, jobPlace x with
  | some own, some (hs, i) =>
    let ups := upsIn x own.step
    if x.entered = false ∨ x.alone = true ∨ x.upSent = true ∨ running s (collPage 0) = false ∨ mayOriginate s 0 p = false ∨
        ups.length < (jobChildren hs.length i).length then s
    else
      let all := ups.foldl (mergeEntry (entryKinds s p)) own
      let s1 := partPut s p { partGet s p with coll := { x with upSent := true } }
      if i = 0 then applyResult s1 p all else sendCombine s1 p 2 (hs.getD (i - lowBit i) 0) all
  | _, _ => s

/-- CONTRIB of the job-group descriptor, read at the entry (R374, R392); none where it cannot be read. -/
def readContrib (s : State) (p : Nat) : Except (Nat × AccErr) Nat :=
  let t := ((partGet s p).coll.tabs.getD 0 (0, 0, 0)).2.1
  match vload s p (bits t 0 48 + 16 * bits t 56 8 + 14) 2 with
  | .error e => .error e
  | .ok b => .ok (leNat b)

/-- Whether the mirror of the step's roots is acknowledged (R392, R409). -/
def mirrorQuiet (s : State) (p n : Nat) : Bool :=
  let x := partGet s p
  !hasVault x.res || (x.res.mirrorMsgs.isEmpty && (x.coll.reds.all (fun r => r.roots.isEmpty) || x.res.mirrorStep == some n))

/-- Whether the module may enter the combine of its step (R392). -/
def mayEnter (s : State) (p : Nat) : Bool :=
  let x := partGet s p
  x.stp.closed && !x.coll.entered && (leadOf s p).isSome && running s (collPage 0) && x.coll.reds.all (fun r => redComplete r || r.failed.isSome) &&
    mirrorQuiet s p (stepNow s p)

/-- The module's own flags, contribution and records; what it cannot read, and an entry whose arithmetic fails its check, makes it
incomplete (R205, R208, R284, R392, R443). -/
def ownEntry (s : State) (p g : Nat) (alone : Bool) (fails : Option Nat) : State × Combined :=
  let n := stepNow s p
  let x := partGet s p
  let done := !x.stp.failed.contains n && x.coll.reds.all (fun r => r.failed.isNone)
  match allEntries s p g with
  | .error (va, e) => (recordAccess s (cenPage g) (some p) va e, ⟨true, false, 0, n, []⟩)
  | .ok es =>
    match es.find? (fun e => fails == some e.1) with
    | some e =>
      let x := failedWord s p (entryAt s g e.1)
      (recordAccess s (cenPage g) (some p) x.1 x.2, ⟨true, false, 0, n, []⟩)
    | none =>
    let fin := finiteFlag n es
    let recs := es.flatMap (fun e => workingOf e.2 n)
    if alone then (s, ⟨fin, done, 0, n, recs⟩)
    else
      match readContrib s p with
      | .error (va, e) => (recordAccess s (collPage 0) (some p) va e, ⟨fin, false, 0, n, recs⟩)
      | .ok k => (s, ⟨fin, done, k, n, recs⟩)

/-- COMBINE_ENTRY (R392, R409): entered once; afterwards the row moves a combine that waited. A module that combines alone enters
COMPLETE 0, whatever its own flag. -/
def combineEntry (s : State) (p : Nat) (fails : Option Nat) : State :=
  match leadOf s p with
  | none => s
  | some g =>
    if mayEnter s p = false then combinePump s p
    else
      let n := stepNow s p
      let alone := (jobPlace (partGet s p).coll).isNone
      match ownEntry s p g alone fails with
      | (s1, own) =>
        let c := if alone then { own with complete := false } else own
        let s2 := (partGals s1 p).foldl (fun t h => wr t (cenPage h) fLASTFIN (b2n c.finite)) s1
        let y := partGet s2 p
        let s3 := partPut s2 p { y with stp := { y.stp with lFinite := own.finite, lComplete := own.complete },
                                        coll := { y.coll with entered := true, alone := alone, merged := some c } }
        let s4 := if vaultOpen s3 p = true ∧ y.res.mirrorStep = some n then slotRecord s3 p n 2 else s3
        if alone then applyResult (collFail s4 0 p 0xFFFF 1 n) p c else combinePump s4 p

/-- Bytes of an inbound combine message added: ranges held, bytes, and the length once the last packet has come (R342). -/
def addPiece (u : List (Nat × Nat) × List (Nat × Byte) × Option Nat) (off : Nat) (bs : List Byte) (last : Bool) :
    List (Nat × Nat) × List (Nat × Byte) × Option Nat :=
  (addRange u.1 off (off + bs.length), putBytes u.2.1 off bs, if last then some (off + bs.length) else u.2.2)

/-- A COMBINE_UP segment taken in (R393). -/
def takeUp (s : State) (i p : Nat) (k : Pkt) (off : Nat) (bs : List Byte) : State :=
  let x := partGet s p
  let key := 2 ^ 32 * i + k.msg.toNat
  let old := (x.coll.ups.find? (fun u => u.1 == key)).map (·.2) |>.getD ([], [], none)
  let ups := x.coll.ups.filter (fun u => u.1 != key) ++ [(key, addPiece old off bs k.last)]
  combinePump (partPut s p { x with coll := { x.coll with ups := ups } }) p

/-- A COMBINE_DOWN segment taken in; under HOLD the result is kept and not applied (R394, R415). -/
def takeDown (s : State) (p : Nat) (k : Pkt) (off : Nat) (bs : List Byte) : State :=
  let x := partGet s p
  let d := addPiece x.coll.downIn off bs k.last
  let whole := match d.2.2 with | some len => covered d.1 0 len | none => false
  if whole = false then partPut s p { x with coll := { x.coll with downIn := d } }
  else
    let c := combineOf (takeBytes d.2.1 0 (d.2.2.getD 0))
    let s1 := partPut s p { x with coll := { x.coll with downIn := ([], [], none) } }
    if x.stp.job.isSome then s1
    else if onHold s p then partPut s1 p { partGet s1 p with coll := { (partGet s1 p).coll with heldDown := some c } }
    else applyResult s1 p c

/-- A combine segment received on session i of partition p (R390, R393, R394). -/
def takeCombine (s : State) (i p kind : Nat) (k : Pkt) (h : SegHdr) (off : Nat) (bs : List Byte) : State × Answer :=
  let x := sessXdie i
  let c := (partGet s p).coll
  if running s (collPage x) = false then (s, .hold)
  else if groupOk c.job c.jobMembers = true ∧ groupSelf c.job ≠ h.dest.toNat then
    relaySeg s x i c.jobMembers (groupCount c.job) k h kind off 0 bs
  else
    match segCheck s x p k.epoch.toNat h with
    | .taken => (if kind = 2 then takeUp s i p k off bs else takeDown s p k off bs, .taken)
    | a => refuseSeg s x p none a

/-- A channel entry (R396), read through the table that governs the step. -/
def chanAddr (s : State) (x p ch : Nat) : Option Nat :=
  let t := ((partGet s p).coll.tabs.getD x (0, 0, 0)).2.2
  if bits t 48 16 ≤ ch then none else some (bits t 0 48 + 64 * ch)

/-- A channel stops with cause 0x6 (R398). -/
def chanStop (s : State) (x p ch : Nat) : State :=
  let y := partGet s p
  let pg := collPage x
  let s1 := partPut s p { y with coll := { y.coll with chStopped := y.coll.chStopped ++ [(x, ch)] } }
  let s2 := regPut s1 (pg * 4096 + 0x108) (0xFFFF + p * 2 ^ 16 + 6 * 2 ^ 24 + stepNow s p * 2 ^ 32)
  raise (recordErr s2 pg 0x80 (some p) 0 false (0xFFFF + 6 * 2 ^ 16)) pg 10

/-- A channel that an access cannot serve stops (R571). -/
def chanData (s : State) (x p ch va : Nat) (e : AccErr) : State := chanStop (recordAccess s (collPage x) (some p) va e) x p ch

/-- The TAIL of a partition's queue advanced by n commands, if R307 accepts it. -/
def advanceTail (s : State) (p qid n : Nat) : Option State :=
  let g := qid / 4
  let q := qid % 4
  let tail := (rd s (galPage g) (fQTAIL q) + n) % 2 ^ 32
  if ownsQueue s p qid && tailOk s g q tail then some (noteTail (wr s (galPage g) (fQTAIL q) tail) g q tail) else none

/-- Whether a channel acts: the engine RUNNING and the channel not stopped. -/
def chanLive (s : State) (x p ch : Nat) : Bool := running s (collPage x) && !(partGet s p).coll.chStopped.contains (x, ch)

/-- A store into a channel's structures; the channel stops where it fails. -/
def chanStore (s : State) (x p ch va : Nat) (bs : List Byte) : State :=
  match vstore s p va bs with
  | (s1, none) => s1
  | (s1, some (a, e)) => chanData s1 x p ch a e

/-- CHANNEL_ARRIVAL (R397). -/
def chanArrive (s : State) (x p ch : Nat) : State :=
  match chanAddr s x p ch with
  | none => s
  | some a =>
    if chanLive s x p ch = false then s
    else
      match vload s p a 64 with
      | .error (va, e) => chanData s x p ch va e
      | .ok b =>
        let slot := leAt b 40 4 % max 1 (leAt b 12 4)
        let st := leAt b 22 6 + 16 * slot
        if leAt b 0 1 ≠ 2 ∨ leAt b 12 4 = 0 then s
        else
          match vload s p st 16 with
          | .error (va, e) => chanData s x p ch va e
          | .ok r =>
            if leAt r 0 8 < leAt b 32 8 then s
            else
              match advanceTail s p (leAt b 6 2) (leAt b 8 4) with
              | none => chanStop s x p ch
              | some s1 =>
                let tail := rd s1 (galPage (leAt b 6 2 / 4)) (fQTAIL (leAt b 6 2 % 4))
                let s2 := chanStore s1 x p ch st (leBytes 8 0 ++ leBytes 4 tail)
                tally (chanStore s2 x p ch (a + 40) (leBytes 4 ((leAt b 40 4 + 1) % 2 ^ 32))) (collPage x) 8 1

/-- CHANNEL_RELEASE (R397). -/
def chanRelease (s : State) (x p ch : Nat) : State :=
  match chanAddr s x p ch with
  | none => s
  | some a =>
    if chanLive s x p ch = false ∨ mayOriginate s x p = false then s
    else
      match vload s p a 64 with
      | .error (va, e) => chanData s x p ch va e
      | .ok b =>
        let slot := leAt b 44 4 % max 1 (leAt b 12 4)
        let i := leAt b 2 2
        if leAt b 0 1 ≠ 2 ∨ leAt b 12 4 = 0 ∨ leAt b 44 4 = leAt b 40 4 ∨ sessOpen s i = false then s
        else
          match vload s p (leAt b 22 6 + 16 * slot) 16 with
          | .error (va, e) => chanData s x p ch va e
          | .ok r =>
            let qid := leAt b 6 2
            if ownsQueue s p qid = false ∨ 2 ^ 31 ≤ (rd s (galPage (qid / 4)) (fQDONE (qid % 4)) + 2 ^ 32 - leAt r 8 4) % 2 ^ 32 then s
            else
              let s1 := chanStore s x p ch (a + 44) (leBytes 4 ((leAt b 44 4 + 1) % 2 ^ 32))
              let h : SegHdr := ⟨0xFFFF, 0, 0, BitVec.ofNat 16 (leAt b 4 2), BitVec.ofNat 32 (stepNow s p), false⟩
              match peerEpoch s1 p i with
              | (s2, e) => tally (tally (sendSeg s2 i e 4 h slot 0 []) (collPage x) 9 1) (collPage x) 10 1

/-- A CREDIT segment received on session i of partition p (R390, R397). -/
def takeCredit (s : State) (i p : Nat) (k : Pkt) (h : SegHdr) : State × Answer :=
  let x := sessXdie i
  let ch := h.dest.toNat
  if running s (collPage x) = false then (s, .hold)
  else
    match segCheck s x p k.epoch.toNat h with
    | .taken =>
      match chanAddr s x p ch with
      | none => (s, .refuse 6 10)
      | some a =>
        if chanLive s x p ch = false then (s, .taken)
        else
          match vload s p a 64 with
          | .error (va, e) => (chanData s x p ch va e, dataStatus va e)
          | .ok b =>
            if leAt b 0 1 ≠ 1 then (s, .refuse 6 10)
            else match advanceTail s p (leAt b 6 2) (leAt b 8 4) with | some s1 => (s1, .taken) | none => (chanStop s x p ch, .taken)
    | a => refuseSeg s x p none a

/-- Bytes of [lo, hi) in slot j of a window (R396). -/
def slotShare (lo hi base size j : Nat) : Nat := min hi (base + (j + 1) * size) - max lo (base + j * size)

/-- RECEIVED of one slot raised; more than SLOT_BYTES stops the channel (R397, R398). -/
def countSlot (s : State) (x p ch : Nat) (b : List Byte) (lo hi j : Nat) : State :=
  let n := slotShare lo hi (leAt b 16 6) (leAt b 32 8) j
  let st := leAt b 22 6 + 16 * j
  if n = 0 ∨ chanLive s x p ch = false then s
  else
    match vload s p st 8 with
    | .error (va, e) => chanData s x p ch va e
    | .ok r =>
      if leAt b 32 8 < leNat r + n then chanStop s x p ch else chanStore s x p ch st (leBytes 8 (leNat r + n))

/-- Bytes [lo, hi) that a bulk write of partition p wrote, counted in the windows of X-die x (R397). -/
def countWindows (s : State) (x p lo hi : Nat) : State :=
  let t := ((partGet s p).coll.tabs.getD x (0, 0, 0)).2.2
  (List.range (bits t 48 16)).foldl (fun u ch =>
    match vload u p (bits t 0 48 + 64 * ch) 64 with
    | .error (va, e) => if chanLive u x p ch then chanData u x p ch va e else u
    | .ok b => if leAt b 0 1 = 2 then (List.range (leAt b 12 4)).foldl (fun v j => countSlot v x p ch b lo hi j) u else u) s

/-- COMBINE_ENTRY (R392). -/
def execCombineEntry (run : CombineRun) (s : State) : Host.Outcome State Fault Refusal :=
  .next (alive s (fun t => combineEntry t run.part.val run.fails))
/-- CHANNEL_ARRIVAL (R397). -/
def execChannelArrival (xdie : Fin 6) (p : Fin 64) (ch : Half) (s : State) : Host.Outcome State Fault Refusal :=
  .next (alive s (fun t => chanArrive t xdie.val p.val ch.toNat))
/-- CHANNEL_RELEASE (R397). -/
def execChannelRelease (xdie : Fin 6) (p : Fin 64) (ch : Half) (s : State) : Host.Outcome State Fault Refusal :=
  .next (alive s (fun t => chanRelease t xdie.val p.val ch.toNat))

end Sys2Proof.Machine
end

