-- ==== Sys2Proof/Machine/Commands.lean ====
section
/-! DEFINITION. The commands that need no unit of their own (R310, R318, R321, R328), TRANSFER and ROTATE (R235, R241), and the
completion of commands (R316). -/

namespace Sys2Proof.Machine

/-- The acceptance of a command by the row of one opcode (R315). -/
def commandRow (s : State) (g q op : Nat) (check : State → Nat → List Byte → Check) (start : State → Nat → List Byte → State) :
    Host.Outcome State Fault Refusal :=
  .next (alive s (fun t => acceptRow t g q (fun b => cmdOp b == op || reservedOp b) check start))

/-- A command that ends as soon as it is accepted. -/
def endNow (s : State) (g q index status : Nat) (b : List Byte) : State := completeCmd s g q index status 1 0 b true

/-- Orders 5 and 8 of R315 for a FENCE (R318). -/
def checkFence (s : State) (g q index : Nat) (b : List Byte) : Check :=
  let p := (pageOwner s (galPage g)).getD 64
  let es := (fenceEntries b).zipIdx
  match es.find? (fun e => !ownsQueue s p e.1.1), es.find? (fun e => fenceSelf g q index e.1) with
  | some e, _ => .refuse cREFOWNER 0x07 (40 + 8 * e.2)
  | none, some e => .refuse cREFDESC 0x81 (44 + 8 * e.2)
  | none, none => .pass

/-- A FENCE that has passed its checks: a named queue that halted before its INDEX makes it fail (R318). -/
def startFence (s : State) (g q index : Nat) (b : List Byte) : State :=
  endNow s g q index (if (fenceEntries b).any (fenceHalted s) then cDEPEND else cDONE) b

/-- STEP_END: the queue presents nothing more of the step (R321). -/
def startStepEnd (s : State) (g q index : Nat) (b : List Byte) : State :=
  endNow (qauxPut s g q { qaux s g q with stepEnded := true }) g q index cDONE b

/-- Whether a gallery's C-die runs below its nominal duty or its rail is in warning (R328). -/
def throttled (s : State) (g : Nat) : Bool := rd s (monitorPage (g / 64)) fWARN == 1 || decide (dutyOf s (g / 64) < 16)

/-- Whether a frame of a partition is in flight (R328). -/
def frameInFlight (s : State) (p : Nat) : Bool :=
  (partGals s p).any (fun h => (galGet s (galPage h)).queues.any (fun k => !k.frames.isEmpty))

/-- FRAME: a frame begins at the acceptance; its own completion does not end it (R328). Two frames of one partition in flight
break the condition of both. -/
def startFrame (s : State) (g q index : Nat) (b : List Byte) : State :=
  let s1 := tally (endNow s g q index cDONE b) (galPage g) 25 1
  match pageOwner s (galPage g) with
  | none => s1
  | some p =>
    let two := frameInFlight s1 p
    let s2 := if two then voidPart s1 (galPage g) else s1
    let x := qaux s2 g q
    qauxPut s2 g q { x with frames := x.frames ++ [⟨s.now, none, two || throttled s g⟩] }

/-- Order 8 of R315 for a TRANSFER (R235, R261). -/
def checkTransfer (s : State) (g : Nat) (b : List Byte) : Check :=
  let m := leAt b 38 1 % 2
  if rd s (movPage g) (fMEN m) = 0 then .refuse cREFDESC 0x81 38
  else match checkDesc s g m (leAt b 32 6) 32 with | .error c => c | .ok _ => .pass

/-- A TRANSFER that has passed its checks is given to its mover (R310). -/
def startTransfer (s : State) (g q index : Nat) (b : List Byte) : State :=
  let m := leAt b 38 1 % 2
  let s1 := addBegun s g (begunOf q index b 0 0 0 .running)
  giveJob s1 g m q index (leAt b 32 6) (descAt s g (leAt b 32 6))

/-- The rules of R241 that a rotation descriptor must keep on gallery g, but for its members' owner. -/
def rotationOk (s : State) (g : Nat) (d : List Byte) : Bool :=
  let n := leAt d 0 1
  let w := caddyWord s (movPage g) (leAt d 1 1)
  decide (2 ≤ n) && decide (n ≤ 64) && caddyIs s g (leAt d 1 1) 4 && leAt d 2 2 == 0 && leAt d 4 4 == slotSize w &&
    (firstSet d 8 8).isNone && (firstSet d (16 + 2 * n) (128 - 2 * n)).isNone && (ringMembers d).contains g

/-- Orders 5 and 8 of R315 for a ROTATE (R241, R261). -/
def checkRotate (s : State) (g : Nat) (b : List Byte) : Check :=
  let own := pageOwner s (galPage g)
  if leAt b 32 6 % 16 ≠ 0 then .refuse cREFDESC 0x81 32
  else
    match vload s (own.getD 0) (leAt b 32 6) 144 with
    | .error (va, e) => .unreadable va e
    | .ok d =>
      let ms := ringMembers d
      if ms.any (fun h => decide (255 < h) || pageOwner s (galPage h) != own) || ms.eraseDups.length != ms.length then
        .refuse cREFOWNER 0x07 0xFF
      else if rotationOk s g d = false then .refuse cREFDESC 0x81 0xFF
      else if rd s (movPage g) (fMEN 1) = 0 then .refuse cREFDESC 0x81 0xFF
      else .pass

/-- A ROTATE that has passed its checks, with its descriptor (R241); one of no hops is over. -/
def startRotate (s : State) (g q index : Nat) (b : List Byte) : State :=
  match vload s ((pageOwner s (galPage g)).getD 0) (leAt b 32 6) 144 with
  | .error _ => s
  | .ok d => addBegun s g (begunOf q index (b ++ d) 0 0 0 (if leAt b 38 1 = 0 then .ended cDONE 0 else .running))

/-- The census records that an ARRAY command updates: CEN_A, CEN_W and CEN_SH, each by its working record of the command's step (R203,
R311). -/
def censusPlace (s : State) (g : Nat) (c : Begun) (i : Nat) : Nat :=
  rd s (cenPage g) fCENBASE + 256 * leAt c.bytes (50 + 2 * i) 2 + 16 + (if i = 2 then 68 else 40) * (cmdStep c.bytes % 2)

/-- The census update of an ARRAY command, or that the record its arithmetic fails for is an uncorrectable word (R443). -/
def checkedCensus (s : State) (g : Nat) (c : Begun) (fails : Option Nat) : State × Option (Nat × AccErr) :=
  match fails.filter (fun i => decide (i < 3) && leAt c.bytes (50 + 2 * i) 2 != 0xFFFF && rd s (cenPage g) fCENEN == 1) with
  | none => arrayCensus s g c
  | some i =>
    let va := censusPlace s g c i
    match translate s ((pageOwner s (galPage g)).getD 0) va true with
    | .ok (.phys b) => (s, some (va, .data (b + va % frameSize)))
    | .ok (.peer _ _ cur) => (s, some (va, .fault 5 false cur))
    | .error e => (s, some (va, e))

/-- An ARRAY that ended DONE adds its counts to the census as it completes (R203, R208). -/
def closeArray (s : State) (g : Nat) (c : Begun) (fails : Option Nat) : State :=
  match checkedCensus s g c fails with
  | (s1, none) => completeBegun s1 g c.queue c.index
  | (s1, some (va, e)) =>
    let s2 := recordAccess s1 (cenPage g) (pageOwner s1 (cenPage g)) va e
    completeBegun (begunPut s2 g { c with phase := .ended cFDATA 0 }) g c.queue c.index

/-- COMMAND_COMPLETION: the vector unit goes on with the command it runs; a command that has ended completes (R316). -/
def commandCompletion (s : State) (g q : Nat) (run : CmdRun) : State :=
  let index := run.index.toNat
  match begunFind s g q index with
  | none => s
  | some c =>
    match c.phase with
    | .waiting => s
    | .ended 0 _ => if cmdOp c.bytes = 1 then closeArray s g c run.fails else completeBegun s g q index
    | .ended _ _ => completeBegun s g q index
    | .running =>
      if running s (galPage g) = false ∧ blkState s (galPage g) ≠ stStopping then s
      else
        match cmdOp c.bytes with
        | 3 => completeBegun (runVector s g c run.fails) g q index
        | 4 => completeBegun (runAttention s g c run.check run.fails) g q index
        | 6 => completeBegun (runSketch s g c run.fails) g q index
        | _ => s

/-- NOP (R310). -/
def execNop (g : Fin 256) (q : Fin 4) (s : State) : Host.Outcome State Fault Refusal :=
  commandRow s g.val q.val 0 (fun _ _ _ => .pass) (fun u i b => endNow u g.val q.val i cDONE b)
/-- TRANSFER (R310). -/
def execTransfer (g : Fin 256) (q : Fin 4) (s : State) : Host.Outcome State Fault Refusal :=
  commandRow s g.val q.val 2 (fun u _ b => checkTransfer u g.val b) (fun u i b => startTransfer u g.val q.val i b)
/-- ROTATE (R310). -/
def execRotate (g : Fin 256) (q : Fin 4) (s : State) : Host.Outcome State Fault Refusal :=
  commandRow s g.val q.val 7 (fun u _ b => checkRotate u g.val b) (fun u i b => startRotate u g.val q.val i b)
/-- FENCE (R318). -/
def execFence (g : Fin 256) (q : Fin 4) (s : State) : Host.Outcome State Fault Refusal :=
  commandRow s g.val q.val 8 (fun u i b => checkFence u g.val q.val i b) (fun u i b => startFence u g.val q.val i b)
/-- STEP_END (R321). -/
def execStepEnd (g : Fin 256) (q : Fin 4) (s : State) : Host.Outcome State Fault Refusal :=
  commandRow s g.val q.val 9 (fun _ _ _ => .pass) (fun u i b => startStepEnd u g.val q.val i b)
/-- FRAME (R328). -/
def execFrame (g : Fin 256) (q : Fin 4) (s : State) : Host.Outcome State Fault Refusal :=
  commandRow s g.val q.val 10 (fun _ _ _ => .pass) (fun u i b => startFrame u g.val q.val i b)
/-- COMMAND_COMPLETION (R316). -/
def execCommandCompletion (g : Fin 256) (q : Fin 4) (run : CmdRun) (s : State) : Host.Outcome State Fault Refusal :=
  .next (alive s (fun t => commandCompletion t g.val q.val run))

end Sys2Proof.Machine
end

