-- ==== Sys2Proof/Machine/Drain.lean ====
section
/-! DEFINITION. Two rows that any page or vector may see: the completion of a stopping page's drain (R62-R65), and the time limit of an
event vector (R72, R74). -/

namespace Sys2Proof.Machine

/-- Whether a gallery's control page has finished its commands (R63): a COMMIT that waits at its gate or that a stop has left at a
cursor does not hold the stop, a group of it that has begun does (R292). -/
def controlDrained (s : State) (pg : Nat) : Bool :=
  (galGet s pg).begun.all (fun c => cmdOp c.bytes == 5 && c.phase == .waiting) &&
    (match pageOwner s pg with
     | some p =>
       match (partGet s p).stp.run with
       | some r => (commitsOf s p).zipIdx.all (fun e => galPage e.1.1 != pg || !groupBegun (curGet r e.2))
       | none => true
     | none => true)

/-- Whether the transport contexts of an X-die have finished their messages (R362). -/
def transportDrained (s : State) (x : Nat) : Bool :=
  s.sess.all (fun e => e.1 / 8192 != x || decide (e.2.role = .administrator) || e.2.tx == [])

/-- Whether the movers of a gallery have finished the elements they have begun (R239): one that waits for another module has begun, one
that waits in FAULT_WAIT has not (R260). -/
def moversDrained (s : State) (pg : Nat) : Bool :=
  (galGet s (galBase pg)).movers.all (fun m => match m.jobs with | j :: _ => decide (j.peer = .none) | [] => true)

/-- Whether the segments that a collective engine has sent are acknowledged (R63, R399); those of a closed session wait for nothing. -/
def collectiveDrained (s : State) (x : Nat) : Bool :=
  s.parts.all (fun e => e.2.coll.reds.all (fun r => r.xdie != x || r.unacked.all (fun u => decide (65536 ≤ u.1))))

/-- Whether the messages of the checkpoint engine are acknowledged (R63, R431). -/
def resilDrained (s : State) : Bool :=
  s.parts.all (fun e => e.2.res.streamMsgs == [] && e.2.res.mirrorMsgs == [] && e.2.res.storeMsgs == [])

/-- Whether the drain of a page is complete (R63). A unit of work of any other page is finished within one command of this model. -/
def drained (s : State) (pg : Nat) : Bool :=
  match pageAt s pg with
  | none => false
  | some i =>
    match i.type with
    | .galleryControl => controlDrained s pg
    | .arrayBays => arrayDrained s pg
    | .movers => moversDrained s pg
    | .transport => transportDrained s i.xdie
    | .port => (portGet s i.xdie i.num).waiting == []
    | .collective => collectiveDrained s i.xdie
    | .flash => resilDrained s
    | _ => true

/-- Whether a caddy has no FREE slot for its producer (R232). -/
def caddyShut (s : State) (g c : Nat) : Bool := caddyValid (caddyWord s (movPage g) c) && cadFree (cadGet s (galPage g) c) == 0

/-- Whether a downstream block withholds the credits that a stopping page needs: the output caddy of a VECTOR command of a control page, the
accumulator caddy of an ARRAY command of an array page (R49, R65, R232). The output of other pages takes no credits in this model. -/
def withheld (s : State) (pg : Nat) : Bool :=
  match pageAt s pg with
  | none => false
  | some i =>
    let mine := (galGet s (galBase pg)).begun.filter (fun c => c.phase == .running)
    match i.type with
    | .galleryControl => mine.any (fun c => cmdOp c.bytes == 3 && caddyRole (caddyWord s (pg + 2) (vout c.bytes)) == 3 && caddyShut s i.num (vout c.bytes))
    | .arrayBays => mine.any (fun c => cmdOp c.bytes == 1 && caddyShut s i.num (leAt c.bytes 46 1))
    | _ => false

/-- BLK_STATE.WAITING: a STOPPING page that its drain keeps so because a downstream block withholds credits (R49, R65). -/
def waitingNow (s : State) (pg : Nat) : Bool := blkState s pg == stStopping && !drained s pg && withheld s pg

/-- X-die 0 counts as unavailable, and events are delivered from the mirror until the next M reset, once its control page is FAULTED
(R71; DESIGN CHOICE, notes/assumptions/115). -/
def takeMirror (s : State) : State := if blkState s (xPage 0 0) = stFaulted then { s with mirrored := true } else s

/-- What reaching STOPPED does to a block: the link of a port goes down (R334), an array drops its incomplete loads (R147). -/
def restBlock (s : State) (pg : Nat) : State :=
  match pageAt s pg with
  | some i =>
    match i.type with
    | .port => linkDrop s i.xdie i.num
    | .arrayBays => if i.spare then s else dropLoads s i.num
    | _ => s
  | none => s

/-- DRAIN_COMPLETE: a stopping page whose drain is complete; a port's link goes down, and a partition that is being stopped goes on to
its next pages (R62, R66, R334). -/
def drainDone (s : State) (pg : Nat) : State :=
  if blkState s pg = stStopping ∧ drained s pg = true then
    let s1 := restBlock (blockDrained s pg) pg
    match pageOwner s1 pg with
    | some p => if (partGet s1 p).stopping then stopProgress s1 p else s1
    | none => s1
  else s

/-- A fault that a block has detected: the row of R62, and the stack of a channel that has failed uncorrectably degraded (R250). -/
def blockFails (s : State) (pg : Nat) (f : PageFault) : State :=
  match f.channel with
  | some c => channelFails (pageFault s pg f) pg c.val
  | none => pageFault s pg f

/-- A fault of a block, if it has detected one, and then the completion of its drain (R62, R63). -/
def drainRun (s : State) (d : DrainRun) : State :=
  let pg := d.page.toNat
  if (pageAt s pg).isNone then s
  else takeMirror (drainDone (match d.fault with | some f => blockFails s pg f | none => s) pg)

/-- COAL_US_EXPIRY: the oldest pending event of a vector has reached COAL_US (R72, R74). -/
def coalExpiry (s : State) (v : Nat) : State :=
  let us := bits (regGet s (vecAddr v)) 24 16
  let oldest := ((tfind s.vecLast v).getD ⟨0, 0, 0, 0⟩).oldest
  if us ≠ 0 ∧ oldest + us * 1000 ≤ s.now then vecDeliver s v else s

/-- DRAIN_COMPLETE (R62). -/
def execDrainComplete (run : DrainRun) (s : State) : Host.Outcome State Fault Refusal := .next (alive s (fun t => drainRun t run))
/-- COAL_US_EXPIRY (R74). -/
def execCoalUsExpiry (vec : Fin 4096) (s : State) : Host.Outcome State Fault Refusal := .next (alive s (fun t => coalExpiry t vec.val))

end Sys2Proof.Machine
end

