-- ==== Sys2Proof/Machine/Integrity.lean ====
section
/-! DEFINITION. Check-value units, memory scans and scrubbing as they run (R449-R456, R466-R469). -/

namespace Sys2Proof.Machine

/-- The check-value page of an X-die. -/
def cvPage (x : Nat) : Nat := xPage x 0x0B
/-- A field of unit u (R466). -/
def fCV (u off lo w : Nat) : FRef := ⟨0x100 + 0x40 * u + off, lo, w⟩
/-- CVu_STATUS.STATE. -/
def fCVSTATE (u : Nat) : FRef := fCV u 0x30 0 2
/-- CVu_STATUS.FED. -/
def fCVFED (u : Nat) : FRef := fCV u 0x30 16 48
/-- CVu_VALUE. -/
def fCVVALUE (u : Nat) : FRef := fCV u 0x18 0 64
/-- CVu_CFG.SCAN. -/
def fCVSCAN (u : Nat) : FRef := fCV u 0 3 1

/-- The running value after bytes, by the unit's algorithm (R449, R450). -/
def cvFeed (alg value : Nat) (bs : List Byte) : Nat := if alg = 0 then crc32cFrom (value % 2 ^ 32) bs else crc64From value bs

/-- Bytes fed to a unit: VALUE, FED and the Ledger. -/
def cvTake (s : State) (x u : Nat) (bs : List Byte) : State :=
  let pg := cvPage x
  let v := cvFeed (rd s pg (fCV u 0 0 1)) (rd s pg (fCVVALUE u)) bs
  tally (wr (wr s pg (fCVVALUE u) v) pg (fCVFED u) (rd s pg (fCVFED u) + bs.length)) pg (3 * u) bs.length

/-- The end of a run: compared under CMP, DONE, EV_CV_DONE and EV_CV_MISMATCH (R451, R467). -/
def cvEnd (s : State) (x u : Nat) : State :=
  let pg := cvPage x
  let w := if rd s pg (fCV u 0 0 1) = 0 then 32 else 64
  let same := rd s pg (fCVVALUE u) % 2 ^ w == rd s pg (fCV u 0x20 0 64) % 2 ^ w
  let s1 := tally (wr s pg (fCVSTATE u) 2) pg (3 * u + 1) 1
  let s2 := if rd s pg (fCV u 0 1 1) = 0 then s1 else
    let t := wr (wr s1 pg (fCV u 0x30 2 1) (b2n same)) pg (fCV u 0x30 3 1) (b2n !same)
    if same then t else raise (tally t pg (3 * u + 2) 1) pg (16 + u)
  raise s2 pg (8 + u)

/-- A run that fails, its reason recorded (R441, R448, R452). -/
def cvFail (s : State) (x u part va : Nat) (e : AccErr) : State :=
  let pg := cvPage x
  let s1 := wr s pg (fCVSTATE u) 3
  match e with
  | .fault c _ _ => recordErr s1 pg 0x80 (some part) va false (c + u * 2 ^ 8)
  | .table a _ => recordBad s1 pg (some part) a
  | .owner a => recordErr s1 pg 0x07 (some part) a true 0
  | .data a => recordBad s1 pg (some part) a

/-- The bytes of one read of a unit: physical, or virtual in a partition (R451); a physical address that names no storage is a RANGE
fault. -/
def cvRead (s : State) (phys : Bool) (part a n : Nat) : Except (Nat × AccErr) (List Byte) :=
  if phys then
    if inMemory s.code a n then
      match load s a n with | .ok b => .ok b | .error g => .error (a, .data g)
    else .error (a, .fault 6 false false)
  else vload s part a n

/-- The reads of a run, one aligned 4 KiB at a time (R452). -/
def cvRun (s : State) (x u : Nat) (phys : Bool) (part fuel a n : Nat) : State :=
  match fuel with
  | 0 => s
  | k + 1 =>
    if n = 0 then cvEnd s x u
    else
      let m := min n (4096 - a % 4096)
      match cvRead s phys part a m with
      | .error (va, e) => cvFail s x u part va e
      | .ok bs => cvRun (cvTake (if phys then healRange s a m else vheal s part a m) x u bs) x u phys part k (a + m) (n - m)

/-- CV_RUN_COMPLETE: the reads a BUSY unit has left, to the end of its run (R451, R452). -/
def cvComplete (s : State) (x u : Nat) : State :=
  let pg := cvPage x
  if x < xdieCount s.code ∧ running s pg = true ∧ rd s pg (fCVSTATE u) = 1 ∧ rd s pg (fCVSCAN u) = 0 then
    let fed := rd s pg (fCVFED u)
    let n := rd s pg (fCV u 0x10 0 48) - fed
    let owner := pageOwner s pg
    let phys := owner.isNone && rd s pg (fCV u 0 2 1) == 1
    let part := owner.getD (rd s pg (fCV u 0 4 6))
    cvRun s x u phys part (n / 4096 + 3) (rd s pg (fCV u 8 0 48) + fed) n
  else s

/-- SCAN_STATUS.STATE (R468). -/
def fSCSTATE : FRef := ⟨0x120, 0, 2⟩
/-- SCAN_STATUS.DONE_BYTES. -/
def fSCBYTES : FRef := ⟨0x120, 16, 48⟩
/-- SCAN_CFG.FEED. -/
def fSCFEED : FRef := ⟨0x110, 1, 1⟩
/-- SCAN_CFG.UNIT. -/
def fSCUNIT : FRef := ⟨0x110, 2, 3⟩

/-- How a check finds the granule at a physical address (R437). -/
def granuleCheck (s : State) (a : Nat) : GuardOut := if patOf s a = [] then .clean else guardDecode (patOf s a)

/-- The scan ends in a STATE: EV_SCAN_DONE when it reached its end, and the end of the unit it feeds (R453, R469). -/
def scanEnd (s : State) (x st : Nat) : State :=
  let pg := scanPage x
  let u := rd s pg fSCUNIT
  let fed := rd s pg fSCFEED == 1 && rd s (cvPage x) (fCVSCAN u) == 1
  let s1 := wr s pg fSCSTATE st
  let s2 := if st = 2 then raise s1 pg 8 else s1
  if fed then
    let s3 := wr s2 (cvPage x) (fCVSCAN u) 0
    if rd s3 (cvPage x) (fCVSTATE u) = 1 then (if st = 2 then cvEnd s3 x u else wr s3 (cvPage x) (fCVSTATE u) 3) else s3
  else s2

/-- An uncorrectable word met by a scan (R453, R469). -/
def scanBad (s : State) (x a : Nat) : State :=
  let pg := scanPage x
  let u := rd s pg fSCUNIT
  let s1 := bump s pg ⟨0x128, 32, 32⟩ 1
  let s2 := if rd s1 pg ⟨0x130, 63, 1⟩ = 1 then s1 else regPut s1 (pg * 4096 + 0x130) (a + 2 ^ 63)
  let s3 := countBad (raise (recordErr s2 pg 0x06 none a true 0) pg 9) pg a
  if rd s pg fSCFEED = 1 ∧ rd s (cvPage x) (fCVSCAN u) = 1 ∧ rd s (cvPage x) (fCVSTATE u) = 1 then
    recordErr (wr s3 (cvPage x) (fCVSTATE u) 3) (cvPage x) 0x06 none a true 0
  else s3

/-- A granule fed to the unit, where the scan feeds one. -/
def scanFeed (s : State) (x a : Nat) : State :=
  let u := rd s (scanPage x) fSCUNIT
  if rd s (scanPage x) fSCFEED = 1 ∧ rd s (cvPage x) (fCVSCAN u) = 1 ∧ rd s (cvPage x) (fCVSTATE u) = 1 then
    cvTake s x u ((List.range 32).map (fun i => deliverByte s (a + i)))
  else s

/-- The granules of a scan from an address on (R453). -/
def scanRun (s : State) (x n a : Nat) : State :=
  match n with
  | 0 => scanEnd s x 2
  | k + 1 =>
    let pg := scanPage x
    let s0 := tally (wr s pg fSCBYTES (rd s pg fSCBYTES + 32)) pg 17 32
    match granuleCheck s a with
    | .clean => scanRun (scanFeed s0 x a) x k (a + 32)
    | .corrected _ _ =>
      let s1 := scanFeed (bump s0 pg ⟨0x128, 0, 32⟩ 1) x a
      let s2 := countWords s1 pg [a]
      scanRun (if rd s pg ⟨0x110, 6, 1⟩ = 1 then healGranule s2 a else s2) x k (a + 32)
    | .bad =>
      let s1 := scanBad s0 x a
      if rd s pg ⟨0x110, 5, 1⟩ = 1 then scanEnd s1 x 3 else scanRun s1 x k (a + 32)

/-- SCAN_COMPLETE: what a BUSY scan has left of its range; granules beyond the space it reads are not there (R453). -/
def scanComplete (s : State) (x : Nat) : State :=
  let pg := scanPage x
  if x < xdieCount s.code ∧ running s pg = true ∧ rd s pg fSCSTATE = 1 then
    let done := rd s pg fSCBYTES
    let a := rd s pg ⟨0x100, 0, 48⟩ + done
    let top := if rd s pg ⟨0x110, 0, 1⟩ = 0 then hbmEnd s.code else flashTop
    let low := if rd s pg ⟨0x110, 0, 1⟩ = 0 then 0 else flashBase
    let n := (rd s pg ⟨0x108, 0, 48⟩ - done) / 32
    scanRun s x (if low ≤ a then min n ((top - a) / 32) else 0) a
  else s

/-- An uncorrectable word found by scrubbing (R456, R469). -/
def scrubBad (s : State) (a : Nat) : State :=
  let pg := scanPage 0
  let s1 := regPut (bump s pg ⟨0x140, 32, 32⟩ 1) (pg * 4096 + 0x148) (a + 2 ^ 63)
  countBad (raise (recordErr s1 pg 0x06 none a true 0) pg 10) pg a

/-- One granule scrubbed: a correctable word is written back and counted, toward the repair of its row too (R248, R454, R455). -/
def scrubGranule (s : State) (a : Nat) : State :=
  match granuleCheck s a with
  | .clean => s
  | .corrected _ _ => tally (healGranule (countWords s (scanPage 0) [a]) a) (scanPage 0) 19 1
  | .bad => scrubBad s a

/-- Granules scrubbed under a key of State.scrub. -/
def scrubbed (s : State) (k : Nat) : Nat := tget 0 s.scrub k

/-- The state with a scrub count raised. -/
def scrubCount (s : State) (k : Nat) : State := { s with scrub := tput 0 s.scrub k (scrubbed s k + 1) }

/-- Whole passes that every one of some counts has made. -/
def passesOf (s : State) (ks : List Nat) (size : Nat) : Nat :=
  match ks.map (fun k => scrubbed s k / size) with | [] => 0 | n :: r => r.foldl min n

/-- PATROL_SCRUB: the next granule of a stack, in physical order (R454); a stack in self-refresh is woken (R490). HBM_HOURS governs from the next
pass. -/
def patrolScrub (s : State) (k : Nat) : State :=
  let n := scrubbed s k
  let size := 2 ^ 31
  if rd s (scanPage 0) ⟨0x138, 0, 8⟩ = 0 ∧ n % size = 0 ∨ running s (scanPage 0) = false then s
  else
    let g := n % size
    let a := frameSize * (g / 65536 * stackCount s.code + k) + g % 65536 * 32
    let s1 := tally (tally (scrubGranule (scrubCount (touchStack s a) k) a) (scanPage 0) 18 32) (hbmPage s.code k) 15 1
    let ks := List.range (stackCount s.code)
    if passesOf s ks size < passesOf s1 ks size then wr s1 (scanPage 0) ⟨0x140, 0, 32⟩ ((rd s1 (scanPage 0) ⟨0x140, 0, 32⟩ + 1) % 2 ^ 32) else s1

/-- CABINET_SCRUB: the next granule of a bank (R455). CAB_EN governs from the next pass. -/
def cabinetScrub (s : State) (pg bank : Nat) : State :=
  let key := fun (b : Nat) => 2 ^ 16 + 64 * pg + b
  let n := scrubbed s (key bank)
  if (rd s (scanPage 0) ⟨0x138, 8, 1⟩ = 0 ∧ n % 6144 = 0) ∨ (galGet s pg).fill ≠ .none ∨ blkState s pg = stAsleep ∨ (pageAt s pg).isNone = true then s
  else
    let s1 := scrubGranule (scrubCount s (key bank)) (cabAddr s pg (n % 6144 * 2048 + bank * 32))
    let ks := (List.range 64).map key
    if passesOf s ks 6144 < passesOf s1 ks 6144 then tally s1 (scanPage 0) 20 1 else s1

/-- CV_RUN_COMPLETE (R451). -/
def execCvRunComplete (xdie : Fin 6) (u : Fin 8) (s : State) : Host.Outcome State Fault Refusal :=
  .next (alive s (fun t => cvComplete t xdie.val u.val))
/-- SCAN_COMPLETE (R453). -/
def execScanComplete (xdie : Fin 6) (s : State) : Host.Outcome State Fault Refusal := .next (alive s (fun t => scanComplete t xdie.val))
/-- PATROL_SCRUB (R454); a stack that the ordering code does not fit is refused. -/
def execPatrolScrub (stack : Nat) (s : State) : Host.Outcome State Fault Refusal :=
  if stack < stackCount s.code then .next (alive s (fun t => patrolScrub t stack)) else .refused .noSuchUnit
/-- CABINET_SCRUB (R455). -/
def execCabinetScrub (g : GalRef) (bank : Fin 64) (s : State) : Host.Outcome State Fault Refusal :=
  .next (alive s (fun t => cabinetScrub t (galRefPage g) bank.val))

end Sys2Proof.Machine
end

