-- ==== Sys2Proof/Machine/Mailbox.lean ====
section
/-! DEFINITION. The mailbox requests (R508, R511-R516), but for CURWRITE, which goes through the register checks. -/

namespace Sys2Proof.Machine

/-- How a request ends: with a result and data, or later. -/
inductive MailEnd where
  | done (result : Nat) (data : List Byte)
  | later
  deriving DecidableEq, Repr

/-- A request row (R511, R512): the request in slot k of a session, if it is the one to execute now and its OP is the row's. A reserved
byte, a VECTOR that the session may not name and an undefined OP end with ENCODING. -/
def mailRow (s : State) (i k op : Nat) (f : State → List Byte → State × MailEnd) : State :=
  let b := (mbxGet s i k).request
  let code := leAt b 0 1
  let defined := decide (1 ≤ code) && decide (code ≤ 0xD)
  if mailReady s i k = false ∨ (defined = true ∧ code ≠ op) then s
  else if defined = false ∨ leAt b 1 1 ≠ 0 ∨ mailVectorOk s i (leAt b 2 2) = false then mailDone s i k mENCODING []
  else
    match f s b with
    | (s1, .done r d) => mailDone s1 i k r d
    | (s1, .later) => journalOpen (mbxPut s1 i k { mbxGet s1 i k with started := true }) 4

/-- AUTH_SET (R347, R512). -/
def mailAuthSet (s : State) (b : List Byte) : State × MailEnd :=
  let e : AuthEntry := ⟨leAt b 8 1, if leAt b 8 1 = 1 then 0 else leAt b 9 1, padTo 57 ((b.drop 16).take 57)⟩
  if e.role = 0 ∨ 3 < e.role ∨ 64 ≤ e.partition then (s, .done mENCODING [])
  else
    let r := s.boot.rcd
    (putRecord s { r with auth := r.auth.filter (· != e) ++ [e] }, .done mDONE [])

/-- AUTH_DEL (R512). -/
def mailAuthDel (s : State) (b : List Byte) : State × MailEnd :=
  let r := s.boot.rcd
  (putRecord s { r with auth := r.auth.filter (fun e => e.key != padTo 57 ((b.drop 16).take 57)) }, .done mDONE [])

/-- SESS_OPEN: SC_INIT leaves, and the response comes with the exchange's end (R344, R512). -/
def mailSessOpen (s : State) (i k : Nat) (b : List Byte) : State × MailEnd :=
  let x := leAt b 8 1
  if xdieCount s.code ≤ x ∨ 8 ≤ leAt b 9 1 ∨ (roleOf (leAt b 10 1)).isNone ∨ 64 ≤ leAt b 11 1 then (s, .done mENCODING [])
  else
    match sendInit s x (leAt b 9 1) (leAt b 10 1) (leAt b 11 1) (padTo 16 ((b.drop 16).take 16)) (i, k) with
    | some s1 => (s1, .later)
    | none => (s, .done mRESOURCE [])

/-- SESS_CLOSE (R512). -/
def mailSessClose (s : State) (b : List Byte) : State × MailEnd :=
  let j := leAt b 8 2
  if (sessGet s j).isNone then (s, .done mSTATE []) else (closeWith s j 7, .done mDONE [])

/-- VEC_SET (R72, R512): OWNER and MODULE change only while the page of the entry is STOPPED (R55). -/
def mailVecSet (s : State) (b : List Byte) : State × MailEnd :=
  let v := leAt b 8 2
  if 4096 ≤ v ∨ 64 ≤ leAt b 10 1 then (s, .done mENCODING [])
  else if blkState s (vecAddr v / 4096) ≠ stStopped then (s, .done mSTATE [])
  else
    let w := setBits (setBits (regGet s (vecAddr v)) 40 6 (leAt b 10 1)) 46 1 (leAt b 11 1)
    (journalled (regPut s (vecAddr v) w) 0, .done mDONE [])

/-- Whether a group entry holds no reserved value (R363). -/
def groupEntryOk (b : List Byte) : Bool :=
  leAt b 3 1 / 4 == 0 && leAt b 3 1 % 2 == 1 && decide (leAt b 2 1 < 64) && leAt b 36 4 % 8 == 0 && decide (64 ≤ leAt b 36 4) &&
    decide (leAt b 36 4 ≤ 1048576) && (firstSet b 52 12).isNone

/-- MCAST_SET (R363, R512). -/
def mailMcastSet (s : State) (b : List Byte) : State × MailEnd :=
  let x := leAt b 8 1
  let e := padTo 64 ((b.drop 16).take 64)
  if xdieCount s.code ≤ x ∨ groupEntryOk e = false then (s, .done mENCODING [])
  else
    match mcastPut s x e with
    | none => (s, .done mRESOURCE [])
    | some s1 =>
      let r := s1.boot.rcd
      let others := r.groups.filter (fun g => !(g.1 == x && g.2.1 == leAt e 0 2))
      (putRecord s1 { r with groups := others ++ [(x, leAt e 0 2, e)] }, .done mDONE [])

/-- MCAST_DEL (R512). -/
def mailMcastDel (s : State) (b : List Byte) : State × MailEnd :=
  let x := leAt b 8 1
  let n := leAt b 16 2
  if (mcFind s x n).isNone then (s, .done mSTATE [])
  else
    let s1 := mcastDrop s x n
    (putRecord s1 { s1.boot.rcd with groups := s1.boot.rcd.groups.filter (fun g => !(g.1 == x && g.2.1 == n)) }, .done mDONE [])

/-- RESET: the request is written to RST_REQ, and the response comes with its end (R486, R512). -/
def mailReset (s : State) (b : List Byte) : State × MailEnd :=
  let kind := leAt b 8 1
  let target := leAt b 9 2
  if kind = 0 ∨ 3 < kind ∨ 2 ^ 8 ≤ target then (s, .done mENCODING [])
  else if rd s pwrPage fRBUSY = 1 then (s, .done mSTATE [])
  else
    let s1 := wr (wr s pwrPage fRKIND kind) pwrPage fRTARGET target
    (journalOpen (wr { s1 with power := { s1.power with rstReq := kind + target * 2 ^ 8 } } pwrPage fRBUSY 1) 2, .later)

/-- UPDATE: the standby loads and checks the staged image and runs it (R508, Orders 1 and 2); the response comes with the end. -/
def mailUpdate (s : State) (i k : Nat) (b : List Byte) : State × MailEnd :=
  let n := leAt b 8 4
  match s.boot.active, s.boot.update with
  | some a, none =>
    let c := otherCore a
    let img := takeBytes (tget [] s.boot.staging i) 0 (min n 0x3000000)
    if (coreGet s c).image = [] ∨ rd s (curPage c) fROLE ≠ 2 then (s, .done mSTATE [])
    else if n < 512 ∨ 0x3000000 < n ∨ 512 + bodyLen img ≠ n then (s, .done mENCODING [])
    else
      match imageError s img with
      | some e => (setRole s c 2 0, .done (if e = 5 then mROLLBACK else mVERIFY) [])
      | none =>
        let s1 := { s with boot := { s.boot with update := some ⟨i, k, img, (coreGet s c).image, s.now⟩ } }
        (showUpdate (setRole (runImage s1 c img false) c 2 0) 2, .later)
  | _, _ => (s, .done mSTATE [])

/-- The attestation report (R515). -/
def reportOf (s : State) (a : Nat) (nonce : List Byte) : List Byte :=
  let pg := bootPage a
  let regs := fun (o : Nat) => (List.range 8).flatMap (fun k => leBytes 8 (regGet s (pg * 4096 + o + 8 * k)))
  let perDie := (List.range 4).map (fun c => ((List.range 64).filter (fun g => !galFailed s (64 * c + g))).length)
  let chans := (List.range (stackCount s.code)).foldl (fun n k => n + popCount 32 (regGet s (hbmPage s.code k * 4096 + 0x110))) 0
  let b := leBytes 2 1 ++ leBytes 2 512 ++ padTo 32 nonce ++ padTo 32 (orderText s.code s.stepping) ++ padTo 16 s.fuses.serial ++
    leBytes 4 (rd s pg ⟨0x108, 0, 32⟩) ++ leBytes 4 (rd s pg fBOOTSVN) ++ leBytes 4 s.fuses.svn ++ leBytes 2 (perDie.foldl (· + ·) 0) ++
    perDie.flatMap (leBytes 1) ++ leBytes 2 chans ++ leBytes 1 (rd s pwrPage fPCAUSE) ++
    leBytes 1 (a + 2 * rd s pg fRECOVERED + 4 * rd s (curPage (otherCore a)) fSYNCED) ++ leBytes 2 (rd s (curPage a) fUPDATES) ++
    leBytes 8 s.now ++ regs 0x140 ++ regs 0x180 ++ regs 0x1C0 ++ padTo 57 s.fuses.idKey ++ List.replicate 33 0
  b ++ Config.ed448Sign (ascii "ETRUN-ATTEST") b

/-- ATTEST (R515). -/
def mailAttest (s : State) (b : List Byte) : State × MailEnd :=
  match s.boot.active with
  | some a => (s, .done mDONE (reportOf s a ((b.drop 8).take 32)))
  | none => (s, .done mSTATE [])

/-- Whether the fused SVN may advance to the running image's (R516). -/
def svnReady (s : State) (a : Nat) : Bool :=
  let n := rd s (bootPage a) fBOOTSVN
  let c := otherCore a
  !((coreGet s c).image != [] && decide (rd s (bootPage c) fBOOTSVN < n)) && !decide (leAt s.boot.slot 12 4 < n)

/-- The SVN fuses blown up to the running image's SVN (R516). -/
def svnAdvance (s : State) (a : Nat) : State := { s with fuses := { s.fuses with svn := max s.fuses.svn (min 64 (rd s (bootPage a) fBOOTSVN)) } }

/-- SVN_ADVANCE (R516). -/
def mailSvn (s : State) : State × MailEnd :=
  match s.boot.active with
  | some a =>
    if svnReady s a then
      let s1 := svnAdvance s a
      (journalled s1 0, .done mDONE (leBytes 4 s1.fuses.svn))
    else (s, .done mSTATE [])
  | none => (s, .done mSTATE [])

/-- KEY_SLOT of the image that the active core runs. -/
def runningSlot (s : State) : Nat := match s.boot.active with | some a => leAt (coreGet s a).image 28 1 | none => 0

/-- KEY_REVOKE (R501). -/
def mailRevoke (s : State) (b : List Byte) : State × MailEnd :=
  let k := leAt b 8 1
  if 4 ≤ k then (s, .done mENCODING [])
  else if k = runningSlot s then (s, .done mSTATE [])
  else (journalled { s with fuses := { s.fuses with keysRevoked := s.fuses.keysRevoked ||| (1 <<< k) } } 0, .done mDONE [])

/-- AUTH_SET (R512). -/
def execAuthSet (session : Half) (k : Fin 16) (s : State) : Host.Outcome State Fault Refusal :=
  .next (alive s (fun t => mailRow t session.toNat k.val 0x1 mailAuthSet))
/-- AUTH_DEL (R512). -/
def execAuthDel (session : Half) (k : Fin 16) (s : State) : Host.Outcome State Fault Refusal :=
  .next (alive s (fun t => mailRow t session.toNat k.val 0x2 mailAuthDel))
/-- SESS_OPEN (R512). -/
def execSessOpen (session : Half) (k : Fin 16) (s : State) : Host.Outcome State Fault Refusal :=
  .next (alive s (fun t => mailRow t session.toNat k.val 0x3 (fun u b => mailSessOpen u session.toNat k.val b)))
/-- SESS_CLOSE (R512). -/
def execSessClose (session : Half) (k : Fin 16) (s : State) : Host.Outcome State Fault Refusal :=
  .next (alive s (fun t => mailRow t session.toNat k.val 0x4 mailSessClose))
/-- VEC_SET (R512). -/
def execVecSet (session : Half) (k : Fin 16) (s : State) : Host.Outcome State Fault Refusal :=
  .next (alive s (fun t => mailRow t session.toNat k.val 0x5 mailVecSet))
/-- MCAST_SET (R512). -/
def execMcastSet (session : Half) (k : Fin 16) (s : State) : Host.Outcome State Fault Refusal :=
  .next (alive s (fun t => mailRow t session.toNat k.val 0x6 mailMcastSet))
/-- MCAST_DEL (R512). -/
def execMcastDel (session : Half) (k : Fin 16) (s : State) : Host.Outcome State Fault Refusal :=
  .next (alive s (fun t => mailRow t session.toNat k.val 0x7 mailMcastDel))
/-- The mailbox request RESET (R512). -/
def execMailboxReset (session : Half) (k : Fin 16) (s : State) : Host.Outcome State Fault Refusal :=
  .next (alive s (fun t => mailRow t session.toNat k.val 0x9 mailReset))
/-- UPDATE (R508). -/
def execUpdate (session : Half) (k : Fin 16) (s : State) : Host.Outcome State Fault Refusal :=
  .next (alive s (fun t => mailRow t session.toNat k.val 0xA (fun u b => mailUpdate u session.toNat k.val b)))
/-- ATTEST (R515). -/
def execAttest (session : Half) (k : Fin 16) (s : State) : Host.Outcome State Fault Refusal :=
  .next (alive s (fun t => mailRow t session.toNat k.val 0xB mailAttest))
/-- SVN_ADVANCE (R516). -/
def execSvnAdvance (session : Half) (k : Fin 16) (s : State) : Host.Outcome State Fault Refusal :=
  .next (alive s (fun t => mailRow t session.toNat k.val 0xC (fun u _ => mailSvn u)))
/-- KEY_REVOKE (R501). -/
def execKeyRevoke (session : Half) (k : Fin 16) (s : State) : Host.Outcome State Fault Refusal :=
  .next (alive s (fun t => mailRow t session.toNat k.val 0xD mailRevoke))

end Sys2Proof.Machine
end

