-- ==== Sys2Proof/Machine/Observation.lean ====
section
/-! DEFINITION. Observation (R519-R549, R560, R561): Ledger overflow, dump samples, provenance records, the observation pins with
their triggers and their lock, and the JTAG port. -/

namespace Sys2Proof.Machine

/-- LDG_SETk_TAG (R523). -/
def setTagAddr (pg k : Nat) : Nat := pg * 4096 + 0x810 + 8 * k

/-- What a dump sample takes of a Ledger register: in the cycle of a run's start, the previous run's value (R524). -/
def sampleWord (s : State) (a : Nat) : Nat := (runWord s a).getD (regGet s a)

/-- COUNTER_OVERFLOW: an event whose weight carries a counter past its end (R522). -/
def counterOverflow (s : State) (pg i w : Nat) : State :=
  match pageAt s pg with
  | none => s
  | some info =>
    if i < (ledgerShape info.type).1 ∧ 2 ^ 48 ≤ bits (regGet s (pg * 4096 + 0x840 + 8 * i)) 0 48 + w then tally s pg i w else s

/-- An entry of a page list (R531). -/
structure ListItem where
  addr : Nat
  first : Nat
  count : Nat
  set : Nat
  spare : Nat
  deriving DecidableEq, Repr

/-- The entries of a page list (R531). -/
def listItems (l : List Byte) : List ListItem :=
  (List.range (l.length / 8)).map (fun i =>
    ⟨leAt l (8 * i) 4, leAt l (8 * i + 4) 1, leAt l (8 * i + 5) 1, leAt l (8 * i + 6) 1, leAt l (8 * i + 7) 1⟩)

/-- RECLEN of a list (R532). -/
def recLen (items : List ListItem) : Nat := roundUp (64 + items.foldl (fun n e => n + 16 + 8 * e.count) 0) 64

/-- What an entry names: its page, and its first counter's index with the set it belongs to; none where the page or a counter does
not exist (R531). -/
def itemAt (s : State) (e : ListItem) : Option (Nat × Nat) :=
  match pageAt s (e.addr / 4096) with
  | none => none
  | some info =>
    match ledgerShape info.type with
    | (n, sets, first, size, _) =>
      let i := if e.set = 0xFF then e.first else first + e.set * size + e.first
      if (e.set = 0xFF ∨ e.set < sets) ∧ i + e.count ≤ n then some (e.addr / 4096, i) else none

/-- Whether a page is in the reset or the fill that follows one (R230, R536). -/
def pageInReset (s : State) (pg : Nat) : Bool :=
  match pageAt s pg with
  | some info => isGalPage info && decide ((galGet s (galBase pg)).fill = .reset)
  | none => false

/-- Whether a stream may dump an entry's page (R535). -/
def streamMay (s : State) (j pg : Nat) : Bool :=
  let p := rd s dumpPage (fLPART j)
  rd s dumpPage (fLSCOPE j) == 0 ||
    ((rd s dumpPage fGRANT).testBit p && pageOwner s pg == some p &&
      match pageAt s pg with
      | some info => (ledgerShape info.type).2.2.2.2 == 1
      | none => false)

/-- FLAGS of an entry (R533). -/
def itemFlags (s : State) (j : Nat) (e : ListItem) : Nat :=
  match itemAt s e with
  | none => 1 + (if streamMay s j (e.addr / 4096) then 0 else 4)
  | some (pg, _) => (if pageInReset s pg then 2 else 0) + (if streamMay s j pg then 0 else 4)

/-- The bytes of one entry of a record (R533). -/
def itemBytes (s : State) (j time : Nat) (e : ListItem) : List Byte :=
  let fl := itemFlags s j e
  let at_ := if fl = 0 then itemAt s e else none
  let tag := match at_ with
    | some (pg, _) => if e.set = 0xFF then 0 else sampleWord s (setTagAddr pg e.set) % 2 ^ 48
    | none => 0
  leBytes 4 e.addr ++ leBytes 1 e.first ++ leBytes 1 e.count ++ leBytes 1 e.set ++ leBytes 1 fl ++ leBytes 6 tag ++
    leBytes 2 (min ((s.now - time) / 10) 0xFFFF) ++
    (List.range e.count).flatMap (fun k =>
      leBytes 8 (match at_ with | some (pg, i) => sampleWord s (pg * 4096 + 0x840 + 8 * (i + k)) | none => 0))

/-- Header bytes 8 to 63 of a record (R532). -/
def recHeader (time period j entries len missed : Nat) : List Byte :=
  leBytes 8 time ++ leBytes 4 period ++ leBytes 1 j ++ leBytes 1 entries ++ leBytes 2 0 ++ leBytes 4 len ++ leBytes 4 missed ++
    List.replicate 32 0

/-- A write of a stream: at a physical address by the module, or in its partition's space (R535). -/
def streamStore (s : State) (j a : Nat) (bs : List Byte) : State × Option (Nat × AccErr) :=
  if rd s dumpPage (fLPHYS j) = 1 then
    if inMemory s.code a (max 1 bs.length) = false then (s, some (a, .fault 6 false false))
    else
      match store s a bs with
      | (t, some g) => (t, some (a, .data g))
      | (t, none) => (t, none)
  else vstore s (rd s dumpPage (fLPART j)) a bs

/-- A stream that cannot reach its ring or its list: EN is cleared and the reason recorded (R441, R448, R536). -/
def streamFail (s : State) (j va : Nat) (e : AccErr) : State :=
  let own := if rd s dumpPage (fLPHYS j) = 1 then none else some (rd s dumpPage (fLPART j))
  let s1 := tally (streamOff s j) dumpPage 2 1
  match e with
  | .fault c _ _ => raise (recordErr s1 dumpPage 0x80 own va false (j + c * 2 ^ 4)) dumpPage 8
  | .table a _ => recordBad s1 dumpPage own a
  | .owner a => recordErr s1 dumpPage 0x07 own a true 0
  | .data a => recordBad s1 dumpPage own a

/-- LDS_CFGj.PERIOD_US (R543). -/
def fLPERIOD (j : Nat) : FRef := ⟨0x200 + 0x20 * j, 12, 20⟩
/-- LDS_RINGj.BASE. -/
def fLBASE (j : Nat) : FRef := ⟨0x208 + 0x20 * j, 0, 48⟩
/-- LDS_RINGj.LOG2. -/
def fLLOG2 (j : Nat) : FRef := ⟨0x208 + 0x20 * j, 48, 6⟩
/-- LDS_LISTj.BASE. -/
def fLLIST (j : Nat) : FRef := ⟨0x210 + 0x20 * j, 0, 48⟩
/-- LDS_LISTj.ENTRIES. -/
def fLENTRIES (j : Nat) : FRef := ⟨0x210 + 0x20 * j, 48, 8⟩
/-- LDS_SEQj.SEQ. -/
def fLSEQ (j : Nat) : FRef := ⟨0x218 + 0x20 * j, 0, 32⟩
/-- LDS_SEQj.MISSED. -/
def fLMISSED (j : Nat) : FRef := ⟨0x218 + 0x20 * j, 32, 32⟩

/-- The state with a stream replaced. -/
def streamPut (s : State) (j : Nat) (x : Stream) : State := { s with obs := { s.obs with streams := tins s.obs.streams j x } }

/-- Sample times of a stream that have passed without a record: counted, with EV_LDG_MISSED at most once a second unless the
engine's page was stopped (R534, R536). -/
def missSamples (s : State) (j n : Nat) (event : Bool) : State :=
  match tfind s.obs.streams j with
  | none => s
  | some x =>
    if n = 0 then s
    else
      let s1 := tally (bump s dumpPage (fLMISSED j) n) dumpPage 1 n
      let x1 := { x with skipped := x.skipped + n }
      let due := match x.raisedAt with | some t => decide (t + 1000000000 ≤ s.now) | none => true
      if event && due then raise (streamPut s1 j { x1 with raisedAt := some s.now }) dumpPage 9 else streamPut s1 j x1

/-- The record of one sample: entries, header bytes 8 to 63, then bytes 0 to 7 (R532-R534). -/
def writeSample (s : State) (j : Nat) (x : Stream) : State × Option (Nat × AccErr) :=
  let items := listItems x.list
  let len := recLen items
  let a := rd s dumpPage (fLBASE j) + x.seq % (2 ^ rd s dumpPage (fLLOG2 j) / len) * len
  let body := padTo (len - 64) (items.flatMap (itemBytes s j x.next))
  match streamStore s j (a + 64) body with
  | (s1, some e) => (s1, some e)
  | (s1, none) =>
    match streamStore s1 j (a + 8) (recHeader x.next (rd s dumpPage (fLPERIOD j)) j items.length len x.skipped) with
    | (s2, some e) => (s2, some e)
    | (s2, none) =>
      match streamStore s2 j a (leBytes 8 x.seq) with
      | (s3, some e) => (s3, some e)
      | (s3, none) => (tally (tally s3 dumpPage 0 1) dumpPage 3 len, none)

/-- DUMP_SAMPLE: the sample of stream j whose time has come (R531-R536). While page 0x24 is stopped the sample is skipped. -/
def dumpSample (s : State) (j : Nat) : State :=
  match tfind s.obs.streams j with
  | none => s
  | some x =>
    let period := rd s dumpPage (fLPERIOD j) * 1000
    if s.now < x.next ∨ period = 0 then s
    else
      let late := (s.now - x.next) / period
      let next := x.next + (late + 1) * period
      if running s dumpPage then
        match writeSample s j x with
        | (t, some (va, e)) => streamFail t j va e
        | (t, none) =>
          missSamples (wr (streamPut t j { x with next := next, seq := x.seq + 1, skipped := 0 }) dumpPage (fLSEQ j) (x.seq + 1)) j late true
      else missSamples (streamPut s j { x with next := next }) j (late + 1) false

/-- PRV_CFGp.K (R543). -/
def fPRVK (p : Nat) : FRef := ⟨0x400 + 0x10 * p, 1, 5⟩
/-- PRV_CFGp.SEQ. -/
def fPRVSEQ (p : Nat) : FRef := ⟨0x400 + 0x10 * p, 32, 32⟩
/-- PRV_RINGp.BASE. -/
def fPRVBASE (p : Nat) : FRef := ⟨0x408 + 0x10 * p, 0, 48⟩
/-- PRV_RINGp.LOG2. -/
def fPRVLOG2 (p : Nat) : FRef := ⟨0x408 + 0x10 * p, 48, 5⟩

/-- Whether a micro-operation is tagged (R537). -/
def opTagged (s : State) (p : Nat) (op : MicroOp) : Bool :=
  drawWord (keyFor s op.gallery.val) 0x31 op.tOut.toNat op.step.toNat (op.pass * 2 ^ 32 + op.element) / 2 ^ (32 - rd s dumpPage (fPRVK p)) == 0

/-- The record of a tagged micro-operation (R538). -/
def opRecord (op : MicroOp) (seq : Nat) : List Byte :=
  let fl := b2n op.steep + 2 * b2n op.reference + 4 * b2n op.shadow + 8 * b2n op.abandoned
  leBytes 5 op.tag.toNat ++ leBytes 1 op.bay.val ++ leBytes 1 fl ++ leBytes 1 0 ++ leBytes 4 op.step.toNat ++ leBytes 4 op.pass ++
    leBytes 4 op.element ++ leBytes 2 op.gallery.val ++ leBytes 2 0 ++ leBytes 8 op.t0.toNat ++
    (List.range 7).flatMap (fun k => leBytes 4 (op.stages.getD k 0xFFFFFFFF).toNat) ++ leBytes 4 seq

/-- PROVENANCE_RECORD: the record of a micro-operation of a partition that samples, if it is tagged (R537-R539). -/
def provenance (s : State) (op : MicroOp) : State :=
  let pg := galPage op.gallery.val
  match pageOwner s pg with
  | none => s
  | some p =>
    if rd s dumpPage (fPRVEN p) = 1 ∧ opTagged s p op = true then
      let seq := rd s dumpPage (fPRVSEQ p)
      let s1 := tally s (pg + 3) 7 1
      match vstore s1 p (rd s dumpPage (fPRVBASE p) + seq % 2 ^ rd s dumpPage (fPRVLOG2 p) * 64) (opRecord op seq) with
      | (s2, none) => wr s2 dumpPage (fPRVSEQ p) (seq + 1)
      | (s2, some (va, e)) =>
        let off := wr s2 dumpPage (fPRVEN p) 0
        let err := match e with
          | .fault c _ _ => recordErr off dumpPage 0x81 (some p) va false (p + c * 2 ^ 8)
          | .table a _ => recordBad off dumpPage (some p) a
          | .owner a => recordErr off dumpPage 0x07 (some p) a true 0
          | .data a => recordBad off dumpPage (some p) a
        raise err dumpPage 10
    else s

/-- The test multiplexer page (R548). -/
def muxPage : Nat := xPage 0 0x25
/-- TRIG_CFG.SRC. -/
def fTSRC : FRef := ⟨0x180, 0, 4⟩
/-- TRIG_CFG.OUT_EN. -/
def fTOUTEN : FRef := ⟨0x180, 4, 1⟩
/-- TRIG_CFG.IN_STOP. -/
def fTINSTOP : FRef := ⟨0x180, 5, 1⟩
/-- TRIG_MATCH.VALUE. -/
def fTVALUE : FRef := ⟨0x188, 0, 16⟩
/-- TRIG_MATCH.MASK. -/
def fTMASK : FRef := ⟨0x188, 16, 16⟩
/-- TRIG_MATCH.POST. -/
def fTPOST : FRef := ⟨0x188, 32, 16⟩
/-- TRIG_STATUS.IN_SEEN. -/
def fTINSEEN : FRef := ⟨0x190, 0, 1⟩
/-- TRIG_STATUS.OUT_FIRED. -/
def fTFIRED : FRef := ⟨0x190, 1, 1⟩
/-- TRIG_STATUS.STOPPED. -/
def fTSTOPPED : FRef := ⟨0x190, 2, 1⟩
/-- TRIG_IN_TIME. -/
def fTTIME : FRef := ⟨0x198, 0, 64⟩
/-- OBS_UNLOCK.UNLOCKED. -/
def fUNLOCKED : FRef := ⟨0x220, 2, 1⟩
/-- OBS_UNLOCK.FAILED. -/
def fUFAILED : FRef := ⟨0x220, 4, 1⟩
/-- OBS_SELn.EN. -/
def fOEN (n : Nat) : FRef := ⟨0x100 + 8 * n, 20, 1⟩

/-- The state with the observation logic replaced. -/
def obsPut (s : State) (o : Obs) : State := { s with obs := o }

/-- Whether pin n sends frames: enabled, unlocked, and not stopped by a trigger (R544, R546, R547). -/
def pinSends (s : State) (n : Nat) : Bool :=
  rd s muxPage fUNLOCKED == 1 && rd s muxPage (fOEN n) == 1 && rd s muxPage fTSTOPPED == 0 &&
    match s.obs.post with
    | some l => l.getD n 0 != 0
    | none => true

/-- The sample of a probe group (R545). -/
def probe (s : State) (pg g : Nat) : Nat :=
  match pageAt s pg with
  | none => 0
  | some info =>
    if g = 0 then
      rd s pg fSTATE + b2n (waitingNow s pg) * 8 + rd s pg fEVTRAW % 16 * 16 + rd s pg fEVTRAW / 256 % 256 * 256
    else if g ≤ (ledgerShape info.type).1 then regGet s (pg * 4096 + 0x840 + 8 * (g - 1)) % 65536
    else 0

/-- The sample of pin n (R545, R548). -/
def pinSample (s : State) (n : Nat) : Nat :=
  let w := regGet s (muxPage * 4096 + 0x100 + 8 * n)
  probe s (bits w 0 3 * 512 + bits w 3 9) (bits w 12 8)

/-- TRIG_OUT driven high, once (R547). -/
def trigOut (s : State) : State :=
  if rd s muxPage fTOUTEN = 1 ∧ s.obs.pulse = none then wr (obsPut s { s.obs with pulse := some s.now }) muxPage fTFIRED 1 else s

/-- OBSERVATION_FRAME: the next frame of pin n (R544, R545, R547). -/
def obsFrame (s : State) (n : Nat) : State :=
  if pinSends s n then
    let k := tget 0 s.obs.frameNo n
    let v := pinSample s n
    let word := 0xA7 * 2 ^ 24 + n * 2 ^ 20 + k * 2 ^ 16 + v
    let post := s.obs.post.map (fun l => setAt l n (l.getD n 0 - 1))
    let s1 := emit (obsPut s { s.obs with frameNo := tput 0 s.obs.frameNo n ((k + 1) % 16), post := post }) (.obsFrame n word)
    if n = rd s muxPage fTSRC ∧ v &&& rd s muxPage fTMASK = rd s muxPage fTVALUE then trigOut s1 else s1
  else s

/-- TRIG_IN: a rising edge (R547). -/
def trigIn (s : State) : State :=
  let s1 := wr (wr s muxPage fTTIME s.now) muxPage fTINSEEN 1
  if rd s muxPage fTINSTOP = 1 ∧ s.obs.post = none ∧ rd s muxPage fTSTOPPED = 0 then
    obsPut s1 { s1.obs with post := some (List.replicate 16 (rd s muxPage fTPOST)) }
  else s1

/-- TRIG_POST_STOP: every pin has sent its further frames (R547). -/
def trigPostStop (s : State) : State :=
  match s.obs.post with
  | none => s
  | some _ =>
    if (List.range 16).any (pinSends s) then s
    else wr (obsPut s { s.obs with post := none }) muxPage fTSTOPPED 1

/-- RESTART (R547). -/
def trigRestart (s : State) : State := wr (obsPut s { s.obs with post := none }) muxPage fTSTOPPED 0

/-- TRIG_OUT_PULSE_END: 100 ns after the pulse began (R547). -/
def trigOutEnd (s : State) : State :=
  match s.obs.pulse with
  | some t => if t + 100 ≤ s.now then obsPut s { s.obs with pulse := none } else s
  | none => s

/-- The characters of an ASCII string. -/
def letters (l : List Char) : List Byte := l.map (fun c => BitVec.ofNat 8 c.toNat)

/-- The challenge that OBS_CHAL0-3 show (R546). -/
def challengeBytes (s : State) : List Byte :=
  (List.range 4).flatMap (fun i => leBytes 8 (regGet s (muxPage * 4096 + 0x200 + 8 * i)))

/-- OBS_UNLOCK.NEW: a fresh challenge (R546). -/
def unlockNew (s : State) : State :=
  let n := s.boot.rcd.challenges
  let h := (Config.shake256 (letters "ETRUN-CHAL".toList ++ s.fuses.serial ++ leBytes 8 n ++ leBytes 8 s.now) 32).take 32
  let s1 := (List.range 4).foldl (fun t i => regPut t (muxPage * 4096 + 0x200 + 8 * i) (leAt h (8 * i) 8)) s
  let s2 := putRecord s1 { s1.boot.rcd with challenges := n + 1 }
  obsPut s2 { s2.obs with challenged := true }

/-- The response written to OBS_RESP (R546). -/
def responseBytes (s : State) : List Byte :=
  (List.range 22).flatMap (fun i => leBytes 8 (regGet s (muxPage * 4096 + 0x228 + 8 * i)))

/-- Whether a response opens the pins: a challenge stands, the signature verifies, the key is the fused one, and a debug key is
fused (R546). -/
def responseOk (s : State) : Bool :=
  let r := responseBytes s
  s.obs.challenged && s.fuses.debugHash.any (· != 0) &&
    (Config.shake256 (r.take 57) 32).take 32 == s.fuses.debugHash &&
    Config.ed448Verify (r.take 57) (letters "ETRUN-DEBUG".toList) (challengeBytes s ++ s.fuses.serial) ((r.drop 57).take 114)

/-- OBS_UNLOCK.CHECK (R546). -/
def unlockCheck (s : State) : State :=
  if responseOk s then wr s muxPage fUNLOCKED 1
  else wr (obsPut s { s.obs with challenged := false }) muxPage fUFAILED 1

/-- OBS_UNLOCK.LOCK (R546). -/
def unlockLock (s : State) : State := wr s muxPage fUNLOCKED 0

/-- The IDCODE of a stepping (R549). -/
def idcodeOf (st : Stepping) : Nat :=
  (match st with | .a0 => 0 | .a1 => 1 | .b0 => 8) * 2 ^ 28 + 0x4871 * 2 ^ 12 + 0x2A5 * 2 + 1

/-- Whether a debugger may drive the port: VREF_DBG stands while VCORE_X0 is good (R560). -/
def debugPowered (s : State) : Bool := s.power.good.contains (.vcoreX 0)

/-- ALERT_N as the module's own logic and the power manager drive it, low as false (R495, R555). -/
def alertPin (s : State) : Bool := !alerting s

/-- Whether EXTEST drives the pins now (R549, R561). -/
def extesting (s : State) : Bool := s.obs.ir == 0 && !s.power.resetN

/-- ALERT_N at the pin (R561). -/
def alertOut (s : State) : Bool := if extesting s then !(s.obs.cells.testBit 2 && s.obs.cells.testBit 3) else alertPin s

/-- THERMTRIP_N at the pin: a real trip overrides its cells (R561). -/
def thermtripOut (s : State) : Bool :=
  if extesting s then s.power.thermtripN && !(s.obs.cells.testBit 4 && s.obs.cells.testBit 5) else s.power.thermtripN

/-- The boundary register as it samples the pins (R561). The level of TRIG_IN and the bit an enabled pin is sending are free values. -/
def sampleCells (s : State) (free : Nat) : Nat :=
  let f := Config.freeWord free
  let pins := (List.range 16).filter (fun n => pinSends s n && f.getLsbD n)
  b2n s.power.pwrEn + 2 * b2n s.power.resetN + 4 * b2n (!alertPin s) + 8 + 16 * b2n (!s.power.thermtripN) + 32 +
    64 * b2n (f.getLsbD 16) + 128 * b2n s.obs.pulse.isSome + 256 + maskOf (pins.map (· + 9)) + 2 ^ 25

/-- A JTAG instruction taken: the register it selects, and what that register holds (R549, R560). -/
def jtag (s : State) (code : Nat) : State :=
  if debugPowered s then
    let (s1, n) := nextFree s
    let boundary := code = 1 ∨ (code = 0 ∧ s.power.resetN = false)
    let v := if code = 2 then idcodeOf s.stepping else if boundary then sampleCells s n else 0
    emit (obsPut s1 { s1.obs with ir := code }) (.jtag code v)
  else s

/-- SAMPLE/PRELOAD: the cells are preloaded only while RESET_N is asserted (R549). -/
def preload (s : State) (cells : Nat) : State :=
  let s1 := jtag s 1
  if debugPowered s = true ∧ s.power.resetN = false then obsPut s1 { s1.obs with cells := cells } else s1

/-- COUNTER_OVERFLOW (R522). -/
def execCounterOverflow (page : BitVec 12) (i : Fin 248) (weight : BitVec 48) (s : State) : Host.Outcome State Fault Refusal :=
  .next (alive s (fun t => counterOverflow t page.toNat i.val weight.toNat))
/-- DUMP_SAMPLE (R534). -/
def execDumpSample (j : Fin 16) (s : State) : Host.Outcome State Fault Refusal := .next (alive s (fun t => dumpSample t j.val))
/-- PROVENANCE_RECORD (R539). -/
def execProvenanceRecord (op : MicroOp) (s : State) : Host.Outcome State Fault Refusal := .next (alive s (fun t => provenance t op))
/-- TRIG_IN (R547). -/
def execTrigIn (s : State) : Host.Outcome State Fault Refusal := .next (alive s trigIn)
/-- TRIG_POST_STOP (R547). -/
def execTrigPostStop (s : State) : Host.Outcome State Fault Refusal := .next (alive s trigPostStop)
/-- TRIG_OUT_PULSE_END (R547). -/
def execTrigOutPulseEnd (s : State) : Host.Outcome State Fault Refusal := .next (alive s trigOutEnd)
/-- OBSERVATION_FRAME (R544). -/
def execObservationFrame (pin : Fin 16) (s : State) : Host.Outcome State Fault Refusal := .next (alive s (fun t => obsFrame t pin.val))
/-- EXTEST (R549). -/
def execExtest (s : State) : Host.Outcome State Fault Refusal := .next (jtag s 0)
/-- SAMPLE/PRELOAD (R549). -/
def execSamplePreload (cells : BitVec 26) (s : State) : Host.Outcome State Fault Refusal := .next (preload s cells.toNat)
/-- IDCODE (R549). -/
def execIdcode (s : State) : Host.Outcome State Fault Refusal := .next (jtag s 2)
/-- BYPASS (R549). -/
def execBypass (s : State) : Host.Outcome State Fault Refusal := .next (jtag s 0xFF)
/-- TRST_N_ASSERT: the test logic in reset, the IDCODE register selected (R549, R560). -/
def execTrstNAssert (s : State) : Host.Outcome State Fault Refusal := .next (obsPut s { s.obs with ir := 2 })

end Sys2Proof.Machine
end

