-- ==== Sys2Proof/Machine/Resilience.lean ====
section
/-! DEFINITION. Surviving failures (R404-R432): the Vault stream, flash images and store copies, HOLD, and the resilience requests. -/

namespace Sys2Proof.Machine

/-- The virtual sub-ranges of bytes [lo, hi) of arrays laid one after another; `at_` is where the first begins. -/
def partRanges (parts : List (Nat × Nat)) (at_ lo hi : Nat) : List (Nat × Nat) :=
  match parts with
  | [] => []
  | (va, n) :: r =>
    let a := max lo at_
    let b := min hi (at_ + n)
    (if a < b then [(va + (a - at_), b - a)] else []) ++ partRanges r (at_ + n) lo hi

/-- The arrays of owned state of an optimizer descriptor, as (address, bytes). -/
def ownedArrays (d : List Byte) : List (Nat × Nat) :=
  ([16, 22, 28].take (arraysOf (leAt d 0 1))).map (fun o => (leAt d o 6, 2 * leAt d 48 8))

/-- Virtual ranges read one after another. -/
def vloadAll (s : State) (p : Nat) (rs : List (Nat × Nat)) : Except (Nat × AccErr) (List Byte) :=
  match rs with
  | [] => .ok []
  | (va, n) :: r =>
    match vload s p va n with
    | .error e => .error e
    | .ok b => match vloadAll s p r with | .error e => .error e | .ok c => .ok (b ++ c)

/-- Whether a range was written since the half was sealed; a half that is due in full has every range written. -/
def rangeDirty (m : Option (List (Nat × Nat))) (va n : Nat) : Bool :=
  match m with
  | none => true
  | some l => l.any (fun r => decide (r.1 < va + n) && decide (va < r.2))

/-- The 4 KiB pieces of one section that are to be sent, as (offset in the half, content) (R411). -/
def sectionPieces (s : State) (p : Nat) (m : Option (List (Nat × Nat))) (d : List Byte) (base n k : Nat) :
    Except (Nat × AccErr) (List (Nat × List Byte)) :=
  match n with
  | 0 => .ok []
  | j + 1 =>
    let rs := partRanges (ownedArrays d) 0 (4096 * k) (4096 * k + 4096)
    match sectionPieces s p m d base j (k + 1) with
    | .error e => .error e
    | .ok l =>
      if rs.any (fun r => rangeDirty m r.1 r.2) then
        match vloadAll s p rs with
        | .error e => .error e
        | .ok b => .ok ((base + 4096 * k, padTo 4096 b) :: l)
      else .ok l

/-- The pieces of every section (R407, R411). -/
def ownedPieces (s : State) (p : Nat) (m : Option (List (Nat × Nat))) (dir ds : List (List Byte)) (i : Nat) :
    Except (Nat × AccErr) (List (Nat × List Byte)) :=
  match ds with
  | [] => .ok []
  | d :: r =>
    match sectionPieces s p m d (sectionAt dir i) (sectionBytes (leAt d 0 1) (leAt d 48 8) / 4096) 0, ownedPieces s p m dir r (i + 1) with
    | .error e, _ => .error e
    | _, .error e => .error e
    | .ok a, .ok b => .ok (a ++ b)

/-- What is to be sent of a half, as (offset in the half, content), and the half's length (R407, R411). -/
def imagePieces (s : State) (p : Nat) (m : Option (List (Nat × Nat))) : Except (Nat × AccErr) (List (Nat × List Byte) × Nat) :=
  let r := (partGet s p).res
  match readOpts s p (rdCOMMIT r.desc), readCommon s p r.desc with
  | .error e, _ => .error e
  | _, .error e => .error e
  | .ok ds, .ok cs =>
    let dir := ds.map dirEntry
    match ownedPieces s p m dir ds 0, vloadAll s p cs with
    | .error e, _ => .error e
    | _, .error e => .error e
    | .ok ps, .ok cb =>
      let at_ := ownedBytes dir
      .ok ((0, dir.flatten) :: ps ++ [(at_, cb), (at_ + cb.length, r.regImg)], at_ + cb.length + r.regImg.length)

/-- Whether the checkpoint engine may begin a message of partition p to its Vault. -/
def vaultReady (s : State) (p : Nat) : Bool := vaultOpen s p && running s (resPage s) && !(partGet s p).ctxStopped && !(partGet s p).stopping

/-- Pieces written into the Vault from an offset, in the background; the messages they began. -/
def vaultPieces (s : State) (p base : Nat) (ps : List (Nat × List Byte)) : State × List Word32 :=
  ps.foldl (fun (t : State × List Word32) q =>
    match vaultWrite t.1 p (base + q.1) q.2 3 with
    | (u, ms) => (tally u (resPage u) 0 q.2.length, t.2 ++ ms)) (s, [])

/-- VAULT_IMAGE_STREAM: order 1, or, once that is acknowledged, order 2 of R411. -/
def vaultStream (s : State) (p : Nat) : State :=
  let r := (partGet s p).res
  if vaultReady s p = false ∨ r.streamMsgs ≠ [] then s
  else
    match r.stream with
    | none =>
      if r.due = false ∨ (partGet s p).stp.run.isSome = true then s
      else
        let c := (stepNow s p + 2 ^ 32 - 1) % 2 ^ 32
        match vaultWrite s p (32 * (c % 2)) (headerRecord c 1 0 s.now) 3 with
        | (s1, ms) => resPut s1 p { (partGet s1 p).res with due := false, stream := some (c % 2, c, false), streamMsgs := ms }
    | some (h, c, false) =>
      match imagePieces s p (r.dirty.getD h none) with
      | .error (va, e) => recordAccess (resPut s p { r with stream := none }) (resPage s) (some p) va e
      | .ok (ps, len) =>
        match vaultPieces s p (halfAt len h) ps with
        | (s1, ms) =>
          let r1 := (partGet s1 p).res
          resPut s1 p { r1 with stream := some (h, c, true), streamMsgs := ms, dirty := setAt r1.dirty h (some []) }
    | some (_, _, true) => s

/-- HALF_SEALED: order 4 of R411. -/
def halfSealed (s : State) (p : Nat) : State :=
  let r := (partGet s p).res
  match r.stream with
  | some (h, c, true) =>
    if vaultReady s p = false ∨ r.streamMsgs ≠ [] then s
    else
      match vaultWrite s p (32 * h) (headerRecord c 2 (halfLen s p) s.now) 3 with
      | (s1, ms) =>
        tally (resPut s1 p { (partGet s1 p).res with stream := none, streamMsgs := ms, sealedAt := setAt r.sealedAt h (some c) }) (resPage s) 2 1
  | _ => s

/-- The physical address of an offset in a flash slot of the partition, if its frame is there (R406, R412). -/
def flashAddr (s : State) (p slot off : Nat) : Option Nat :=
  let x := partGet s p
  let n := leAt x.res.desc 36 4
  if n ≤ off / frameSize then none
  else
    match listFrame 22 x.flash (leAt x.res.desc 32 4 + slot * n + off / frameSize) false false with
    | .ok f => some (flashBase + f * frameSize + off % frameSize)
    | .error _ => none

/-- Bytes written to a flash slot, frame by frame; false where the slot is too small. -/
def flashWrite (s : State) (p slot fuel off : Nat) (bs : List Byte) : State × Bool :=
  match fuel with
  | 0 => (s, true)
  | k + 1 =>
    if bs = [] then (s, true)
    else
      let m := frameSize - off % frameSize
      match flashAddr s p slot off with
      | none => (s, false)
      | some a => flashWrite (store s a (bs.take m)).1 p slot k (off + m) (bs.drop m)

/-- A flash slot's header (R412). -/
def flashHeader (s : State) (step state len crc : Nat) : List Byte :=
  padTo 4096 (leBytes 4 step ++ leBytes 1 state ++ leBytes 3 0 ++ leBytes 8 len ++ leBytes 8 s.now ++ leBytes 8 crc ++
    padTo 32 (orderText s.code s.stepping))

/-- A flash image of step c written to a slot; the RESULT code of R431 (R412). -/
def flashImageTo (s : State) (p slot c : Nat) : State × Nat :=
  let r := (partGet s p).res
  let s0 := resPut s p { r with flashAt := setAt r.flashAt slot none }
  match imagePieces s p none with
  | .error (va, e) => (recordAccess s0 (resPage s) (some p) va e, 3)
  | .ok (ps, len) =>
    let body := ps.foldl (fun (b : List Byte) q => padTo q.1 b ++ q.2) []
    match flashWrite s0 p slot 2 0 (flashHeader s c 1 len (crc64From 0 body)) with
    | (s1, false) => (imageSkipped (recordErr s1 (resPage s) 0x80 (some p) 0 false (2 * 2 ^ 8)), 2)
    | (s1, true) =>
      match flashWrite s1 p slot (len / frameSize + 2) 4096 body with
      | (s2, false) => (imageSkipped (recordErr s2 (resPage s) 0x80 (some p) 0 false (2 * 2 ^ 8)), 2)
      | (s2, true) => (tally (resPut s2 p { (partGet s2 p).res with flash := some (slot, c) }) (resPage s) 4 (4096 + len), 0)

/-- FLASH_IMAGE: the image that has fallen due (R412). -/
def flashImage (s : State) (p : Nat) : State :=
  let r := (partGet s p).res
  match r.flashDue with
  | none => s
  | some c =>
    if r.flash.isSome ∨ running s (resPage s) = false then s
    else (flashImageTo (resPut s p { r with flashDue := none }) p (c / rdEVERY r.desc % 2) c).1

/-- FLASH_IMAGE_DONE: STATE 0x02 and EV_RES_FLASH_DONE (R412). -/
def flashDone (s : State) (p : Nat) : State :=
  let r := (partGet s p).res
  match r.flash with
  | none => s
  | some (slot, c) =>
    let s1 := resPut s p { r with flash := none, flashAt := setAt r.flashAt slot (some c) }
    let s2 := match flashAddr s p slot 0 with
      | some a => (store (store s1 (a + 4) (leBytes 1 2)).1 (a + 16) (leBytes 8 s.now)).1
      | none => s1
    tally (raise s2 (resPage s) 10) (resPage s) 3 1

/-- The sealed flash slot with the newest step, compared modulo 2^32 (R413). -/
def newestSlot (r : Resil) : Option (Nat × Nat) :=
  match r.flashAt.getD 0 none, r.flashAt.getD 1 none with
  | none, none => none
  | some a, none => some (0, a)
  | none, some b => some (1, b)
  | some a, some b => if (a + 2 ^ 32 - b) % 2 ^ 32 < 2 ^ 31 then some (0, a) else some (1, b)

/-- The bytes of a sealed flash slot, header first; none where they cannot be read. -/
def flashBytes (s : State) (p slot fuel off n : Nat) : Option (List Byte) :=
  match fuel with
  | 0 => some []
  | k + 1 =>
    if n = 0 then some []
    else
      let m := min n (frameSize - off % frameSize)
      match flashAddr s p slot off with
      | none => none
      | some a =>
        match load s a m, flashBytes s p slot k (off + m) (n - m) with
        | .ok b, some r => some (b ++ r)
        | _, _ => none

/-- Whether the store session is OPEN and a tenant session of the partition (R406, R431). -/
def storeOpen (s : State) (p : Nat) : Bool :=
  match sessGet s (rdSTORE (partGet s p).res.desc) with
  | some y => decide (y.phase = .opened) && decide (y.role = .tenant) && y.partition == p
  | none => false

/-- The copy of the newest sealed flash slot to the store begun (R413): bulk writes from STORE_ADDR on. -/
def storeStart (s : State) (p : Nat) : State :=
  let r := (partGet s p).res
  let i := rdSTORE r.desc
  match newestSlot r with
  | none => s
  | some (slot, _) =>
    match flashAddr s p slot 0 with
    | none => s
    | some a =>
      let len := 4096 + leNat ((List.range 8).map (fun k => deliverByte s (a + 8 + k)))
      match flashBytes s p slot (len / frameSize + 2) 0 len, nextFree s with
      | some bs, (s1, n) =>
        let e := (Config.freeWord n).toNat % 2 ^ 32
        match (cut (len / 0x800000 + 1) 0 len 0x800000).foldl (fun (t : State × List Word32) c =>
            (sendWrite t.1 i e (leAt r.desc 48 8 % 2 ^ 48 + c.1) ((bs.drop c.1).take (c.2 - c.1)) 3, t.2 ++ [nextSeq t.1 i])) (s1, []) with
        | (s2, ms) => tally (resPut s2 p { (partGet s2 p).res with store := some slot, storeMsgs := ms }) (resPage s) 6 len
      | none, _ => recordBad s (resPage s) (some p) a

/-- STORE_COPY: the cadence point of R413. -/
def storeCopy (s : State) (p : Nat) : State :=
  let r := (partGet s p).res
  if r.desc = [] ∨ r.broken = true ∨ r.store.isSome = true ∨ rdSTORE r.desc = 0xFFFF ∨ s.now < r.storeAt + rdPERIOD r.desc ∨
      running s (resPage s) = false then s
  else
    let s1 := resPut s p { r with storeAt := s.now }
    if storeOpen s p ∧ (partGet s p).ctxStopped = false then storeStart s1 p else s1

/-- What an acknowledged message means to the checkpoint engine; the last one of a store copy raises EV_RES_STORE_DONE (R413). -/
def resAcked (s : State) (i p : Nat) (msg : Word32) : State :=
  let r := (partGet s p).res
  let vault := decide (rdVAULT r.desc = i)
  let shop := decide (rdSTORE r.desc = i)
  let r1 := { r with
    streamMsgs := if vault then r.streamMsgs.filter (· != msg) else r.streamMsgs
    mirrorMsgs := if vault then r.mirrorMsgs.filter (· != msg) else r.mirrorMsgs
    storeMsgs := if shop then r.storeMsgs.filter (· != msg) else r.storeMsgs }
  if shop ∧ r.storeMsgs ≠ [] ∧ r1.storeMsgs = [] then
    let step := match r.store with | some k => (r.flashAt.getD k none).getD 0 | none => 0
    let s1 := resPut s p { r1 with store := none }
    tally (raise (recordErr s1 (resPage s) 0x80 (some p) 0 false step) (resPage s) 11) (resPage s) 5 1
  else if r1 = r then s
  else resPut s p r1

/-- What a refused message means to the checkpoint engine (R413, R414). -/
def resRefused (s : State) (i p : Nat) (msg : Word32) : State :=
  let r := (partGet s p).res
  if rdVAULT r.desc = i ∧ (r.streamMsgs.contains msg ∨ r.mirrorMsgs.contains msg) then vaultFailed s p i
  else if rdSTORE r.desc = i ∧ r.storeMsgs.contains msg then resPut s p { r with store := none, storeMsgs := [] }
  else s

/-- What an acknowledged message means to the collective engine (R392). -/
def collAcked (s : State) (i p : Nat) (msg : Word32) : State :=
  let x := partGet s p
  if x.coll.reds.any (fun r => r.unacked.contains (i, msg)) then
    partPut s p { x with coll := { x.coll with reds := x.coll.reds.map (fun r => { r with unacked := r.unacked.filter (· != (i, msg)) }) } }
  else s

/-- The cause a reduction fails with when its segment is refused (R390). -/
def refusedCause (code : Nat) : Nat := match code with | 2 => 3 | 5 => 5 | 3 => 7 | 4 => 7 | _ => 4

/-- What a refused message means to the collective engine, before or after its acknowledgement (R390). -/
def collRefused (s : State) (i p : Nat) (msg : Word32) (code : Nat) : State :=
  let mine := (partGet s p).coll.reds.filter (fun r => r.sent.contains (i, msg))
  mine.foldl (fun t r => redFail t r.xdie p r.rid (refusedCause code)) (collAcked s i p msg)

/-- QUIET (R415). -/
def isQuiet (s : State) (p : Nat) : Bool :=
  s.sess.all (fun e => e.2.partition != p || e.2.tx.all (fun k => k.sacked || (match k.body with | .seg _ _ _ _ _ _ _ => false | _ => true)))

/-- HOLD cleared: a COMBINE_DOWN kept back is applied, and a combine that waited goes on (R415). -/
def holdCleared (s : State) (p : Nat) : State :=
  let s1 := match (partGet s p).coll.heldDown with | some c => applyResult s p c | none => s
  combinePump s1 p

/-- Whether the partition's request is the one with an operation code. -/
def resAsked (s : State) (p op : Nat) : Bool :=
  rd s (resPage s) (fRCBUSY p) == 1 && running s (resPage s) &&
    (resOp s p == op || resOp s p == 0 || decide (7 < resOp s p))

/-- A request row: nothing while the registers hold no such request; RESULT ENCODING for a reserved code (R431). -/
def resRow (s : State) (p op : Nat) (f : State → State) : State :=
  if resAsked s p op = false then s else if resOp s p = op then f s else resEnd s p 5

/-- W[k] of the entries that reductions name as CEN cleared (R417). -/
def clearWires (s : State) (p g n : Nat) : State :=
  ((partGet s p).coll.reds.filter (fun r => leAt r.desc 6 2 != 0xFFFF)).foldl (fun t r =>
    skipEntry t p g n (leAt r.desc 6 2)) s

/-- RESTART (R417). -/
def resRestart (s : State) (p : Nat) : State :=
  let n := resStep s p
  match leadOf s p with
  | none => resEnd s p 1
  | some g =>
    if isQuiet s p = false ∨ n ≠ stepNow s p ∨ (partGet s p).stp.run.isSome = true then resEnd s p 1
    else
      let s1 := clearWires s p g n
      let x := partGet s1 p
      let s2 := partPut s1 p { x with stp := { x.stp with job := none }, coll := { x.coll with result := none } }
      let s3 := if vaultOpen s2 p then slotRecord s2 p n 1 else s2
      let s4 := collStart s3 p n x.coll.tabs
      let s5 := (partGet s4 p).coll.reds.foldl (fun t r => redFire t r.xdie p r.rid none) s4
      resEnd s5 p 0

/-- The combined result of a step that the module holds, applied or kept back (R415, R418). -/
def heldResult (s : State) (p n : Nat) : Option Combined :=
  let c := (partGet s p).coll
  [c.result, c.heldDown].findSome? (fun o => o.bind (fun r => if r.step = n then some r else none))

/-- FINISH (R418). -/
def resFinish (s : State) (p : Nat) : State :=
  let n := resStep s p
  let x := (partGet s p).coll
  let me := groupSelf x.job
  if n = stepNow s p ∧ x.reds ≠ [] ∧ x.reds.all (fun r => !redComplete r) then resEnd s p 1
  else if resSource s p ≠ me ∨ groupOk x.job x.jobMembers = false then resEnd s p 0
  else
    match heldResult s p n with
    | none => resEnd s p 1
    | some c => resEnd (((hereMembers x.job x.jobMembers).filter (· != me)).foldl (fun t m => sendCombine t p 3 m c) s) p 0

/-- Whether a session is OPEN and a module-peer session of the partition (R431). -/
def peerOpen (s : State) (p i : Nat) : Bool :=
  match sessGet s i with
  | some y => decide (y.phase = .opened) && decide (y.role = .peer) && y.partition == p
  | none => false

/-- A RESTORE that ends with a RESULT code. -/
def restoreEnd (s : State) (p code : Nat) : State := resEnd (resPut s p { (partGet s p).res with restore := none, readFailed := false }) p code

/-- A range read from a peer for RESTORE, in messages of at most 8 MiB; `at_` is where its bytes stand in what is awaited (R421). -/
def restoreRead (s : State) (p i addr len at_ : Nat) : State :=
  match peerEpoch s p i with
  | (s1, e) => (cut (len / 0x800000 + 1) 0 len 0x800000).foldl (fun t c =>
      sendRead t i e (addr + c.1) (c.2 - c.1) 2 (.restore p (at_ + c.1))) s1

/-- RESTORE: the request begins with the Vault header; one whose read failed ends (R421, R431). -/
def resRestore (s : State) (p : Nat) : State :=
  match (partGet s p).res.restore with
  | some _ => if (partGet s p).res.readFailed then restoreEnd s p 4 else s
  | none =>
    if rd s rootPage (fPSTATE p) ≠ 2 then resEnd s p 1
    else
      match readDesc s p with
      | (s1, 0) =>
        let i := rdVAULT (partGet s1 p).res.desc
        if peerOpen s1 p i = false then resEnd s1 p 4
        else
          let r : Restore := ⟨resStep s p, 0, 0, 0, .header, 4096, [], [], []⟩
          restoreRead (resPut s1 p { (partGet s1 p).res with restore := some r, readFailed := false }) p i (rdVBASE (partGet s1 p).res.desc) 4096 0
      | (s1, c) => resEnd s1 p c

/-- The half to restore from, as (half, step): sealed, with the highest step v from c − 2 to c, and the gradient slots of v + 1 to c
complete (R421). -/
def pickHalf (h : List Byte) (c : Nat) : Option (Nat × Nat) :=
  let back := fun (k : Nat) => (c + 2 ^ 32 - leAt h (32 * k) 4) % 2 ^ 32
  let ok := fun (k : Nat) => leAt h (32 * k + 4) 1 == 2 && decide (back k ≤ 2)
  let best := if ok 0 && (!ok 1 || decide (back 0 ≤ back 1)) then some 0 else if ok 1 then some 1 else none
  match best with
  | none => none
  | some k =>
    let steps := (List.range (back k)).map (fun j => (c + 2 ^ 32 - j) % 2 ^ 32)
    if steps.all (fun n => leAt h (64 + 32 * (n % 2)) 4 == n && leAt h (68 + 32 * (n % 2)) 1 == 2) then some (k, leAt h (32 * k) 4) else none

/-- The directory of a half whose length is known: as many entries as make the layout of R407 that long (notes/assumptions/60). -/
def directoryOf (b : List Byte) (rest fuel n : Nat) : Option (List (List Byte)) :=
  match fuel with
  | 0 => none
  | k + 1 =>
    let dir := (List.range n).map (fun i => (b.drop (32 * i)).take 32)
    if 32 * n ≤ b.length ∧ ownedBytes dir + rest = b.length then some dir else directoryOf b rest k (n + 1)

/-- The owned state of one optimizer descriptor written from the half (R421, R426); the entry of the directory that covers it. -/
def restoreShard (s : State) (p : Nat) (b : List Byte) (dir : List (List Byte)) (d : List Byte) : State × Option (Nat × AccErr) × Bool :=
  let e := dirEntry d
  let n := leAt d 48 8
  match dir.findIdx? (fun f => leAt f 0 4 == leAt e 0 4 && decide (dirFirst f ≤ dirFirst e) &&
      decide (dirFirst e + n ≤ dirFirst f + dirCount f)) with
  | none => (s, none, false)
  | some i =>
    let f := dir.getD i []
    let skip := 2 * (dirFirst e - dirFirst f)
    let r := ((ownedArrays d).zipIdx).foldl (fun (t : State × Option (Nat × AccErr)) a =>
      match t with
      | (u, none) => vstore u p a.1.1 ((b.drop (sectionAt dir i + a.2 * (2 * dirCount f) + skip)).take (2 * n))
      | x => x) (s, none)
    (r.1, r.2, true)

/-- The owned state of every descriptor written. -/
def restoreShards (s : State) (p : Nat) (b : List Byte) (dir ds : List (List Byte)) : State × Option (Nat × AccErr) × Bool :=
  match ds with
  | [] => (s, none, true)
  | d :: r => match restoreShard s p b dir d with | (s1, none, true) => restoreShards s1 p b dir r | x => x

/-- Bytes written to the common regions in list order. -/
def restoreCommon (s : State) (p : Nat) (cs : List (Nat × Nat)) (b : List Byte) : State × Option (Nat × AccErr) :=
  match cs with
  | [] => (s, none)
  | (va, n) :: r => match vstore s p va (b.take n) with | (s1, none) => restoreCommon s1 p r (b.drop n) | x => x

/-- One word of a register image put back: STEP keeps STALE, a queue's pointers all take its DONE (R421). -/
def putImageWord (s : State) (v a w : Nat) : State :=
  let o := a % 4096
  let gal := decide (a / 4096 % 4 = 0) && decide (a / 4096 % 512 < 256)
  if gal && o == 0x108 then wr s (a / 4096) fSTEP ((v + 1) % 2 ^ 32)
  else if gal && decide (0x200 ≤ o) && decide (o < 0x300) && o % 0x40 == 0x18 then
    let q := (o - 0x200) / 0x40
    let d := bits w 32 32
    wr (wr (wr (wr s (a / 4096) (fQHEAD q) d) (a / 4096) (fQDONE q) d) (a / 4096) (fQTAIL q) d) (a / 4096) (fQSTATE q) 0
  else regPut s a w

/-- The register image put back, mapped gallery by gallery, and the step counter v + 1 (R421). -/
def putImage (s : State) (p v : Nat) (b : List Byte) : State :=
  let as := (partGals s p).flatMap galImageRegs ++ partImageRegs s p
  let s1 := (as.zipIdx).foldl (fun t a => putImageWord t v a.1 (leAt b (8 * a.2) 8)) s
  let x := partGet s1 p
  wr (partPut s1 p { x with stp := { stepNone with skips := leAt b (8 * as.length) 4 } }) rootPage (fPSTEP p) ((v + 1) % 2 ^ 32)

/-- Both working records of every census entry of partition p cleared, where it has a lead gallery (R421). -/
def entriesClear (s : State) (p : Nat) : State :=
  match leadOf s p with
  | some g => (List.range (rd s (cenPage g) fCENCOUNT)).foldl (fun t i => skipEntry (skipEntry t p g 0 i) p g 1 i) s
  | none => s

/-- The end of RESTORE: common regions, the register image, the cleared working records (R421, orders 3 to 7). -/
def restoreFinish (s : State) (p : Nat) (r : Restore) (common : List Byte) : State :=
  match readCommon s p (partGet s p).res.desc with
  | .error (va, e) => restoreEnd (recordAccess s (resPage s) (some p) va e) p 3
  | .ok cs =>
    match restoreCommon s p cs common with
    | (s1, some (va, e)) => restoreEnd (recordAccess s1 (resPage s) (some p) va e) p 3
    | (s1, none) =>
      let s2 := putImage s1 p r.from_ (r.image.drop (r.image.length - imageBytes s1 (partGals s1 p).length))
      restoreEnd (entriesClear s2 p) p 0

/-- The half has arrived: owned state written, then the common regions, from the donor where there is one (R421). -/
def restoreHalf (s : State) (p : Nat) (r : Restore) (b : List Byte) : State :=
  let d := (partGet s p).res.desc
  match readOpts s p (rdCOMMIT d), readCommon s p d with
  | .error (va, e), _ => restoreEnd (recordAccess s (resPage s) (some p) va e) p 3
  | _, .error (va, e) => restoreEnd (recordAccess s (resPage s) (some p) va e) p 3
  | .ok ds, .ok cs =>
    let clen := cs.foldl (fun n c => n + c.2) 0
    let rest := clen + imageBytes s (partGals s p).length
    match directoryOf b rest (b.length / 32 + 1) 0 with
    | none => restoreEnd s p 2
    | some dir =>
      match restoreShards s p b dir ds with
      | (s1, some (va, e), _) => restoreEnd (recordAccess s1 (resPage s) (some p) va e) p 3
      | (s1, none, false) => restoreEnd s1 p 2
      | (s1, none, true) =>
        let i := leAt d 56 2
        let r1 := { r with image := b, phase := .common, need := clen, ranges := [], bytes := [] }
        if i = 0xFFFF ∨ clen = 0 then restoreFinish s1 p r1 ((b.drop (ownedBytes dir)).take clen)
        else if peerOpen s1 p i = false then restoreEnd s1 p 4
        else (cs.foldl (fun (t : State × Nat) c => (restoreRead t.1 p i c.1 c.2 t.2, t.2 + c.2))
          (resPut s1 p { (partGet s1 p).res with restore := some r1 }, 0)).1

/-- All that was awaited has arrived (R421). -/
def restoreNext (s : State) (p : Nat) (r : Restore) : State :=
  let b := takeBytes r.bytes 0 r.need
  match r.phase with
  | .header =>
    match pickHalf b r.step with
    | none => restoreEnd s p 2
    | some (h, v) =>
      let d := (partGet s p).res.desc
      let len := leAt b (32 * h + 8) 8
      let r1 := { r with half := h, from_ := v, len := len, phase := .half, need := len, ranges := [], bytes := [] }
      restoreRead (resPut s p { (partGet s p).res with restore := some r1 }) p (rdVAULT d) (rdVBASE d + halfAt len h) len 0
  | .half => restoreHalf s p r b
  | .common => restoreFinish s p r b

/-- Bytes that have arrived for RESTORE at an offset of what it awaits. -/
def restoreData (s : State) (p off : Nat) (bs : List Byte) : State :=
  match (partGet s p).res.restore with
  | none => s
  | some r =>
    let r1 := { r with ranges := addRange r.ranges off (off + bs.length), bytes := putBytes r.bytes off bs }
    let s1 := resPut s p { (partGet s p).res with restore := some r1 }
    if covered r1.ranges 0 r1.need then restoreNext s1 p r1 else s1

/-- A read of RESTORE refused: RESULT DATA for uncorrectable data, with its address, else SESSION (R421, R431). -/
def restoreRefused (s : State) (p code detail : Nat) : State :=
  if (partGet s p).res.restore.isNone then s
  else if code = 4 then restoreEnd (recordErr s (resPage s) 0x06 (some p) (detail % 2 ^ 63) true 0) p 3
  else restoreEnd s p 4

/-- REPLAY (R422): the gate of the step opens with job flags 1 and N = REPLAY_N; the request ends with the commit. -/
def resReplay (s : State) (p : Nat) : State :=
  let x := partGet s p
  let n := resStep s p
  if x.res.replay.isSome then s
  else if n ≠ stepNow s p ∨ x.stp.started = false ∨ x.stp.job.isSome = true ∨ (leadOf s p).isNone = true ∨ x.stp.dead = true then resEnd s p 1
  else
    match vload s p (rd s (resPage s) (fRBASE p)) 64 with
    | .error (va, e) => resEnd (recordAccess s (resPage s) (some p) va e) p 3
    | .ok d => partPut s p { x with stp := { x.stp with job := some (true, true, leAt d 60 4), gateAt := s.now }, res := { x.res with replay := some n } }

/-- The roots written so far mirrored again, from DST (R431). -/
def mirrorAgain (s : State) (p : Nat) : State :=
  (partGet s p).coll.reds.foldl (fun t r => r.roots.foldl (fun u k =>
    let o := redSelf r
    let n := min 32 (redElements r - (o * redShard r + 32 * k))
    match vload u p (leAt r.desc 22 6 + 128 * k) (4 * n) with
    | .error (va, e) => redFailData u r.xdie p r.rid va e
    | .ok b => mirrorRoot u r.xdie p r.rid (stepNow u p) k b) t) s

/-- REPOINT (R425, R431). -/
def resRepoint (s : State) (p : Nat) : State :=
  let old := (partGet s p).res
  let prev := (stepNow s p + 2 ^ 32 - 1) % 2 ^ 32
  match readDesc s p with
  | (s1, 0) =>
    let r := (partGet s1 p).res
    let i := rdVAULT r.desc
    if i ≠ 0xFFFF ∧ peerOpen s1 p i = false then resEnd s1 p 4
    else
      let lost := hasVault old && old.stream.isNone && !old.due && old.sealedAt.getD (prev % 2) none != some prev
      let s2 := if lost && hasVault r then resPut s1 p { r with dirty := [none, none], due := true, mirrorStep := none } else s1
      let fresh := lost || rdVAULT old.desc != i || !hasVault old
      resEnd (if fresh && hasVault r then mirrorAgain s2 p else s2) p 0
  | (s1, c) => resEnd s1 p c

/-- FLASH_NOW (R431). -/
def resFlashNow (s : State) (p : Nat) : State :=
  let r := (partGet s p).res
  match r.lastStep with
  | none => resEnd s p 1
  | some c =>
    let slot := (c / rdEVERY r.desc + 1) % 2
    if r.desc = [] ∨ r.broken = true ∨ rdEVERY r.desc = 0 ∨ r.flash.isSome = true ∨ r.flashDue.isSome = true ∨ r.store = some slot ∨
        (partGet s p).stp.run.isSome = true then resEnd s p 1
    else match flashImageTo s p slot c with | (s1, e) => resEnd s1 p e

/-- STORE_NOW (R431). -/
def resStoreNow (s : State) (p : Nat) : State :=
  let r := (partGet s p).res
  if r.desc = [] ∨ r.broken = true ∨ r.store.isSome = true ∨ newestSlot r = none then resEnd s p 1
  else if storeOpen s p = false then resEnd s p 4
  else resEnd (storeStart s p) p 0

/-- VAULT_IMAGE_STREAM (R411). -/
def execVaultImageStream (p : Fin 64) (s : State) : Host.Outcome State Fault Refusal := .next (alive s (fun t => vaultStream t p.val))
/-- HALF_SEALED (R411). -/
def execHalfSealed (p : Fin 64) (s : State) : Host.Outcome State Fault Refusal := .next (alive s (fun t => halfSealed t p.val))
/-- FLASH_IMAGE (R412). -/
def execFlashImage (p : Fin 64) (s : State) : Host.Outcome State Fault Refusal := .next (alive s (fun t => flashImage t p.val))
/-- FLASH_IMAGE_DONE (R412). -/
def execFlashImageDone (p : Fin 64) (s : State) : Host.Outcome State Fault Refusal := .next (alive s (fun t => flashDone t p.val))
/-- STORE_COPY (R413). -/
def execStoreCopy (p : Fin 64) (s : State) : Host.Outcome State Fault Refusal := .next (alive s (fun t => storeCopy t p.val))
/-- RESTART (R417). -/
def execRestart (p : Fin 64) (s : State) : Host.Outcome State Fault Refusal :=
  .next (alive s (fun t => resRow t p.val 1 (fun u => resRestart u p.val)))
/-- FINISH (R418). -/
def execFinish (p : Fin 64) (s : State) : Host.Outcome State Fault Refusal :=
  .next (alive s (fun t => resRow t p.val 2 (fun u => resFinish u p.val)))
/-- RESTORE (R421). -/
def execRestore (p : Fin 64) (s : State) : Host.Outcome State Fault Refusal :=
  .next (alive s (fun t => resRow t p.val 3 (fun u => resRestore u p.val)))
/-- REPLAY (R422). -/
def execReplay (p : Fin 64) (s : State) : Host.Outcome State Fault Refusal :=
  .next (alive s (fun t => resRow t p.val 4 (fun u => resReplay u p.val)))
/-- REPOINT (R431). -/
def execRepoint (p : Fin 64) (s : State) : Host.Outcome State Fault Refusal :=
  .next (alive s (fun t => resRow t p.val 5 (fun u => resRepoint u p.val)))
/-- FLASH_NOW (R431). -/
def execFlashNow (p : Fin 64) (s : State) : Host.Outcome State Fault Refusal :=
  .next (alive s (fun t => resRow t p.val 6 (fun u => resFlashNow u p.val)))
/-- STORE_NOW (R431). -/
def execStoreNow (p : Fin 64) (s : State) : Host.Outcome State Fault Refusal :=
  .next (alive s (fun t => resRow t p.val 7 (fun u => resStoreNow u p.val)))

end Sys2Proof.Machine
end

