-- ==== Sys2Proof/Machine/Regs.lean ====
section
/-! DEFINITION. The register engine (R56-R62, R70-R72, R525): who reaches what, what a register reads as, and the checks that a write
passes or fails. -/

namespace Sys2Proof.Machine

/-- A principal of a register operation (R56). -/
inductive Princ where
  | tenant (p : Nat)
  | administrator
  | curator
  deriving DecidableEq, Repr

/-- The rank of a principal, as STOP_SRC holds it (R49, R62). -/
def rankOf (w : Princ) : Nat := match w with | .tenant _ => 0 | .administrator => 1 | .curator => 2

/-- The partition a principal acts for. -/
def partOf (w : Princ) : Option Nat := match w with | .tenant p => some p | _ => none

/-- The principal behind a source: an OPEN administrator or tenant session, or the Curator (R56, R347). -/
def principalOf (s : State) (src : Source) : Option Princ :=
  match src with
  | .curator => some .curator
  | .session i =>
    match sessGet s i.toNat with
    | some x =>
      if x.phase = .opened then
        match x.role with
        | .administrator => some .administrator
        | .tenant => some (.tenant x.partition)
        | .peer => none
      else none
    | none => none

/-- Whether an offset of a vector-table page is an entry's register (R71). -/
def isEntry (i : PageInfo) (off : Nat) : Bool := i.type == .vectorTable && decide (0x100 ≤ off) && decide (off < 0x500)

/-- What a page carries for its fields and their access codes: while events are delivered from the mirror, its pages take the
primary's (R71, R76). -/
def liveInfo (s : State) (i : PageInfo) : PageInfo :=
  if s.mirrored = true ∧ i.type = .vectorTable ∧ i.xdie = 1 then { i with xdie := 0 } else i

/-- VEC_DEST of the entry that an offset of a vector-table page belongs to; the mirror shows the primary's (R71). -/
def entryDest (s : State) (i : PageInfo) (off : Nat) : Nat := regGet s (vecAddr (64 * i.num + (off - 0x100) / 16))

/-- Pages that no tenant reaches, whatever their owner (R297, R372, R431, R468, R494, R495, R517, R543, R548). -/
def neverTenant (t : BlockType) : Bool :=
  match t with
  | .transport => true | .memoryScan => true | .partitionRoot => true | .flash => true | .railMonitor => true | .power => true
  | .mailbox => true | .boot => true | .dump => true | .testMux => true
  | _ => false

/-- Whether a tenant may reach the Ledger region of a page (R525). -/
def ledgerOpen (s : State) (i : PageInfo) (p : Nat) : Bool :=
  (ledgerShape i.type).2.2.2.2 == 1 && (rd s dumpPage fGRANT).testBit p

/-- Whether a principal reaches an offset of a page (R57, R72, R402, R525). -/
def reaches (s : State) (w : Princ) (pg : Nat) (i : PageInfo) (off : Nat) : Bool :=
  match w with
  | .curator => true
  | .administrator => !(i.spare || i.type == .mailbox || i.type == .boot)
  | .tenant p =>
    if i.type = .vectorTable then isEntry i off && bits (entryDest s i off) 46 1 == 0 && bits (entryDest s i off) 40 6 == p
    else if i.type = .collective then decide (0x200 ≤ off) && decide (off < 0x800) && (off - 0x200) / 24 == p
    else !neverTenant i.type && !i.spare && pageOwner s pg == some p && (decide (off < 0x800) || ledgerOpen s i p)

/-- BLK_ID.INSTANCE (R45). -/
def instanceOf (i : PageInfo) : Nat := if isGalPage i || i.type == .port || i.type == .hbm then i.num else 0

/-- PWR_STATUS (R495): the pins, ALERT, the power-good inputs, and the readings of VIN and of the input power. -/
def pwrStatus (s : State) : Nat :=
  let has := fun (l : List Rail) => b2n (l.all s.power.good.contains)
  let good := has [.vbus] + 2 * has [.vcoreC 0, .vcoreC 1, .vcoreC 2, .vcoreC 3] + 4 * has ((xdies s.code).map Rail.vcoreX) +
    8 * has [.vhbm] + 16 * has [.vser] + 32 * has [.vopt] + 64 * has [.vaux]
  b2n s.power.pwrEn + 2 * b2n s.power.resetN + 4 * b2n (alerting s) + good * 2 ^ 8 +
    Config.reading 0 s.now % 2 ^ 16 * 2 ^ 16 + Config.reading 1 s.now % 2 ^ 16 * 2 ^ 32

/-- The control page of the gallery, or spare gallery, that ISL_SEL of C-die c names (R154, R494). -/
def islPage (s : State) (c f : Nat) : Option Nat :=
  match (List.range 64).find? (fun k => physGallery s (64 * c + k) == f) with
  | some k => some (galPage (64 * c + k))
  | none => if 64 ≤ f then some (sparePage c (f - 64)) else none

/-- Whether a gallery's clock runs: it is neither asleep nor in reset (R494). -/
def islRuns (s : State) (pg : Option Nat) : Bool :=
  match pg with
  | some p => blkState s p != stAsleep && (galGet s p).fill != .reset
  | none => false

/-- ISL_FREQ of C-die c (R494): the reading of the clock of the gallery that ISL_SEL names, and whether that clock runs. -/
def islFreq (s : State) (c : Nat) : Nat :=
  let f := bits (regGet s (cPage c 0x103 * 4096 + 0x120)) 0 7
  if islRuns s (islPage s c f) then Config.reading (2 + 68 * c + f) s.now % 2 ^ 16 + 2 ^ 16 else 0

/-- RES_Bp (R431). -/
def resB (s : State) (p : Nat) : Nat :=
  let r := (partGet s p).res
  let sealed_ := (r.sealedAt.filterMap id).foldl max 0
  sealed_ % 2 ^ 32 + b2n (r.sealedAt.any Option.isSome) * 2 ^ 32 + b2n (isQuiet s p) * 2 ^ 33 +
    b2n (heldResult s p (stepNow s p)).isSome * 2 ^ 34 + b2n (partGet s p).stp.run.isSome * 2 ^ 35 + b2n r.stream.isSome * 2 ^ 36 +
    b2n r.flash.isSome * 2 ^ 37 + b2n r.store.isSome * 2 ^ 38

/-- CUR_WDOG.REMAIN_MS of a core (R517). -/
def wdogRemain (s : State) (c : Nat) : Nat :=
  match (coreGet s c).kickAt with
  | some t => (t + 100000000 - s.now) / 1000000
  | none => 100

/-- PART_Ap.STATE as it is seen (R297, R299): a partition that CREATE is making is BUILDING, one that DESTROY is taking down is in
TEARDOWN, while the request executes. -/
def partState (s : State) (p : Nat) : Nat :=
  let st := rd s rootPage (fPSTATE p)
  if rd s rootPage fPBUSY = 1 ∧ rq s fPPART = p then
    if rq s fPOP = 1 ∧ st = 0 then 1 else if rq s fPOP = 7 ∧ st = 2 then 4 else st
  else st

/-- Registers whose word is not kept but follows from other state: header constants, fuses, pins, readings and status. -/
def shownWord (s : State) (pg : Nat) (i : PageInfo) (off : Nat) : Option Nat :=
  if off = 0 then some (typeCode i.type + instanceOf i * 2 ^ 16 + pg / 512 * 2 ^ 32 + pg % 512 * 2 ^ 35)
  else if off = 8 then some (0x0100 + steppingCode s.stepping * 2 ^ 16)
  else if off = 0x018 ∧ waitingNow s pg = true then some (setBits (regGet s (pg * 4096 + off)) 3 1 1)
  else if off = 0x800 ∧ i.type ≠ .mailbox then some (ledgerInfo i.type)
  else
    match i.type with
    | .cdieControl =>
      let f := tget 0 s.fuses.bad (pg / 512)
      if off = 0x108 then some (maskOf ((List.range 64).filter (fun g => galFailed s (64 * (pg / 512) + g)))) else
      if off = 0x118 then some (f % 2 ^ 64) else if off = 0x120 then some (f / 2 ^ 64 % 16) else none
    | .movers => if 0x400 ≤ off ∧ off < 0x600 then some (cadWord s (galBase pg) ((off - 0x400) / 8)) else none
    | .port => if off = 0x108 then some (tget 0 s.fuses.mac (8 * i.xdie + i.num) % 2 ^ 48) else none
    | .railMonitor => if off = 0x128 ∧ pg / 512 < 4 then some (islFreq s (pg / 512)) else none
    | .checkValue =>
      if 0x100 ≤ off ∧ off < 0x300 ∧ off % 0x40 = 0x18 ∧ bit (regGet s (pg * 4096 + off - 0x18)) 0 = false then
        some (regGet s (pg * 4096 + off) % 2 ^ 32)
      else none
    | .mailbox =>
      if off = 0x108 then some (min 127 (wdogRemain s i.xdie) * 2 ^ 16)
      else if 0x800 ≤ off then some (Config.journalWord off s.boot.journal.length % 2 ^ 64)
      else none
    | .boot =>
      if off = 0x110 then some s.fuses.svn
      else if off = 0x118 then some (s.fuses.keysPresent % 16 + s.fuses.keysRevoked % 16 * 16)
      else if 0x200 ≤ off ∧ off < 0x240 then some (leAt s.fuses.idKey (off - 0x200) 8)
      else none
    | .flash => if 0x200 ≤ off ∧ off < 0x800 ∧ (off - 0x200) % 24 = 8 then some (resB s ((off - 0x200) / 24)) else none
    | .power => if off = 0x100 then some (pwrStatus s) else none
    | .partitionRoot =>
      if 0x100 ≤ off ∧ off < 0x700 ∧ (off - 0x100) % 24 = 0 then
        some (setBits (regGet s (pg * 4096 + off)) 0 3 (partState s ((off - 0x100) / 24)))
      else none
    | .dump => if off = 0x108 then some (s.now % 2 ^ 64) else none
    | .vectorTable =>
      if isEntry i off then
        let v := 64 * i.num + (off - 0x100) / 16
        let w := regGet s (vecAddr v + (off - 0x100) % 16)
        some (if v = 0 ∧ off = 0x100 then setBits w 48 1 1 else w)
      else none
    | _ => none

/-- What reading a register of a page gives (R16, R18, R61): reserved offsets and write-only fields read zero. -/
def regRead (s : State) (pg : Nat) (i : PageInfo) (off : Nat) : Nat :=
  match regFields i off with
  | none => 0
  | some fs =>
    match shownWord s pg i off with
    | some v => v
    | none => (fs.filter (fun f => f.acc == .wo)).foldl (fun v f => setBits v f.lo f.width 0) (regGet s (pg * 4096 + off))

/-- Whether a page's block is in reset (R61, R230). -/
def inReset (s : State) (pg : Nat) (i : PageInfo) : Bool := isGalPage i && decide ((galGet s (galBase pg)).fill = .reset)

/-- A write under way: who writes, the page and offset, the register as it reads and as it would read, the ones and the mask of the
data, and the register's fields. -/
structure WReq where
  who : Princ
  pg : Nat
  info : PageInfo
  off : Nat
  old : Nat
  new : Nat
  ones : Nat
  mask : Nat
  fields : List Field
  deriving DecidableEq, Repr

/-- Whether an operation writes a field (R58). -/
def touches (w : WReq) (f : Field) : Bool :=
  match f.acc with
  | .w1c => bits w.ones f.lo f.width != 0
  | .w1s => bits w.ones f.lo f.width != 0
  | .w1sHeld => bits w.ones f.lo f.width != 0
  | .wo => bits w.mask f.lo f.width != 0
  | _ => bits w.new f.lo f.width != bits w.old f.lo f.width

/-- The value an operation gives a field. -/
def newOf (w : WReq) (f : Field) : Nat := bits w.new f.lo f.width

/-- Whether a tenant may name a vector (R70). -/
def mayName (s : State) (p v : Nat) : Bool :=
  let d := regGet s (vecAddr v)
  bits d 46 1 == 0 && bits d 40 6 == p && bit d 48

/-- Whether a session is bound to a partition (R72). -/
def boundTo (s : State) (i p : Nat) : Bool :=
  match sessGet s i with
  | some x => decide (x.role ≠ .administrator) && x.partition == p
  | none => false

/-- Whether an offset of the test multiplexer page is an OBS_SEL or TRIG register (R546, R548). -/
def pinRegister (off : Nat) : Bool := decide (0x100 ≤ off) && decide (off < 0x1A8)

/-- DENIED for everyone: pins that are locked, a vector of page 0x40 other than 0, provenance without a grant, physical feeds of an
assigned check-value page, and a physical run that names a cabinet or nothing (R76, R466, R543, R546, R570). -/
def deniedToAll (s : State) (w : WReq) (f : Field) : Bool :=
  match w.info.type with
  | .testMux => pinRegister w.off && rd s muxPage fUNLOCKED == 0
  | .vectorTable => w.info.num == 0 && w.info.xdie == 0 && w.off == 0x030 && newOf w f != 0
  | .dump => decide (0x400 ≤ w.off) && decide (w.off < 0x800) && w.off % 0x10 == 0 && f.lo == 0 && newOf w f == 1 &&
      !(rd s dumpPage fGRANT).testBit ((w.off - 0x400) / 0x10)
  | .checkValue =>
    let u := (w.off - 0x100) / 0x40
    decide (0x100 ≤ w.off) && ((w.off % 0x40 == 0 && f.lo == 2 && rd s w.pg fASSIGNED == 1) ||
      (w.off % 0x40 == 0x28 && f.lo == 0 && newOf w f == 1 && rd s w.pg (fCV u 0 2 1) == 1 && rd s w.pg (fCV u 0x10 0 48) != 0 &&
        !inMemory s.code (rd s w.pg (fCV u 0x08 0 48)) (rd s w.pg (fCV u 0x10 0 48))))
  | _ => false

/-- MASK, COAL_N and COAL_US of vector 0, which only the Curator writes (R74). -/
def vectorZero (w : WReq) (f : Field) : Bool :=
  isEntry w.info w.off && w.info.num == 0 && w.off == 0x100 && (f.lo == 16 || f.lo == 24 || f.lo == 47)

/-- The CODE of a DENIED for a field (R57, R60, R70, R72, R74, R495). -/
def deniedCode (s : State) (w : WReq) (f : Field) : Option Nat :=
  if deniedToAll s w f then some 0x03
  else
    match w.who with
    | .curator => none
    | .administrator =>
      if f.curator || w.info.type == .power || w.info.type == .cdieControl || vectorZero w f then some 0x03 else none
    | .tenant p =>
      if f.curator || w.info.type == .power || w.info.type == .cdieControl || vectorZero w f then some 0x03
      else if w.off = 0x030 ∨ (w.info.type = .galleryControl ∧ 0x200 ≤ w.off ∧ w.off < 0x300 ∧ w.off % 0x40 = 0x30) then
        (if mayName s p (newOf w f) then none else some 0x07)
      else if isEntry w.info w.off = true ∧ w.off % 16 = 0 ∧ f.lo = 0 then
        (if boundTo s (newOf w f) (bits w.old 40 6) then none else some 0x07)
      else none

/-- Whether a bay named by a mask is FAULTED and still draining (R145). -/
def bayUndrained (s : State) (g mask : Nat) : Bool := (setOf 4 mask).any (fun b => bayFaulted s g b && !(bayGet s g b).faultDrained)

/-- The four pages of gallery g of C-die c and of spare k are STOPPED (R154). -/
def mappingReady (s : State) (c k g : Nat) : Bool :=
  allPages s (galPage (64 * c + g)) stStopped && (spareMapped s c k || allPages s (sparePage c k) stStopped)

/-- Whether a write to the sparing map finds every gallery it concerns STOPPED (R154). -/
def mapReady (s : State) (w : WReq) : Bool :=
  (List.range 4).all (fun k =>
    bits w.old (8 * k) 8 == bits w.new (8 * k) 8 ||
      ((bits w.new (8 * k + 7) 1 == 0 || mappingReady s (w.pg / 512) k (bits w.new (8 * k) 6)) &&
        (bits w.old (8 * k + 7) 1 == 0 || allPages s (galPage (64 * (w.pg / 512) + bits w.old (8 * k) 6)) stStopped)))

/-- Whether a scan may start (R453, R468). -/
def scanReady (s : State) (x : Nat) : Bool :=
  rd s (scanPage x) fSCSTATE != 1 &&
    (rd s (scanPage x) fSCFEED == 0 ||
      (rd s (cvPage x) fASSIGNED == 0 && rd s (cvPage x) (fCVSTATE (rd s (scanPage x) fSCUNIT)) != 1))

/-- Whether a field's write asks for something the block's state refuses (R48, R60, R62 and each chapter's own rule). LOWPWR = 0b11 on a
STOPPED block is refused as a reserved encoding and not here: R18 gives ENCODING for it and R48 STATE (DESIGN CHOICE,
notes/assumptions/141). -/
def wrongState (s : State) (w : WReq) (f : Field) : Bool :=
  let st := blkState s w.pg
  let v := newOf w f
  if w.off = 0x010 then
    if f.lo = 0 then v == 1 && st == stStopping
    else if f.lo = 4 then (if v = 0 then st != stStopped && st != stAsleep else !allPages s w.pg stStopped)
    else false
  else
    match w.info.type with
    | .galleryControl =>
      if 0x200 ≤ w.off ∧ w.off < 0x300 ∧ w.off % 0x40 = 0x28 then rd s w.pg (fQSTATE ((w.off - 0x200) / 0x40)) != 2
      else if 0x600 ≤ w.off ∧ w.off < 0x700 then
        rd s w.pg (fWARM ((w.off - 0x600) / 0x40)) == 1 && !(w.off % 0x40 == 0 && bits w.new 43 1 == 0)
      else false
    | .arrayBays => w.off == 0x110 && !w.info.spare && bayUndrained s w.info.num w.ones
    | .movers => (w.off == 0x118 || w.off == 0x120) && rd s w.pg (fMSTATE ((w.off - 0x118) / 8)) != 2
    | .cdieControl => w.off == 0x100 && !mapReady s w
    | .hbm => w.off == 0x118 && f.lo == 8 &&
        (rd s w.pg ⟨0x110, 0, 32⟩ != 0 || setBits (rd s w.pg ⟨0x110, 32, 32⟩) (bits w.new 0 5) 1 0 != 0)
    | .xdieControl => w.off == 0x130 && decide (f.lo < 2) && v == 1 && !ringPortsRun s (if f.lo = 0 then .a else .b)
    | .checkValue =>
      decide (0x100 ≤ w.off) && decide (w.off < 0x300) && rd s w.pg (fCVSTATE ((w.off - 0x100) / 0x40)) == 1 &&
        (decide (w.off % 0x40 ≤ 0x20) || (w.off % 0x40 == 0x28 && f.lo == 0))
    | .memoryScan => (w.off == 0x118 && f.lo == 0 && !scanReady s w.info.xdie) || (w.off == 0x150 && bits w.old 32 1 == 1)
    | .partitionRoot => w.off == 0x700 && f.lo == 16 && bits w.old 17 1 == 1
    | .flash => decide (0x200 ≤ w.off) && (w.off - 0x200) % 24 == 16 && f.lo == 4 && bits w.old 5 1 == 1
    | .boot =>
      (w.off == 0x110 && f.lo == 7 && !svnReady s w.info.xdie) || (w.off == 0x118 && f.lo == 8 + runningSlot s)
    | .power => (w.off == 0x110 && f.lo == 0 && v == 1 && !allSleeping s) || (w.off == 0x118 && f.lo == 16 && bits w.old 17 1 == 1)
    | .dump =>
      decide (0x200 ≤ w.off) && decide (w.off < 0x400) && !(w.off % 0x20 == 0 && f.lo == 0) &&
        rd s dumpPage (fLEN ((w.off - 0x200) / 0x20)) == 1
    | _ => false

/-- Whether a page list entry is badly formed (R531). -/
def itemBad (s : State) (e : ListItem) : Bool :=
  e.spare != 0 || e.addr % 4096 != 0 || decide (2 ^ 24 ≤ e.addr) || e.count == 0 || decide (248 < e.count) ||
    (e.set != 0xFF && (decide (3 < e.set) ||
      match pageAt s (e.addr / 4096) with
      | some i => decide ((ledgerShape i.type).2.2.2.1 < e.first + e.count)
      | none => false))

/-- The page list of stream j, read as LDS_CFGj would have it (R531, R543). -/
def readList (s : State) (j cfg : Nat) : Except (Nat × AccErr) (List Byte) :=
  let a := rd s dumpPage (fLLIST j)
  let n := 8 * rd s dumpPage (fLENTRIES j)
  if bit cfg 2 then
    if inMemory s.code a n then
      match load s a n with | .ok b => .ok b | .error g => .error (a, .data g)
    else .error (a, .fault 6 false false)
  else vload s (bits cfg 3 6) a n

/-- Whether EN = 1 of stream j is a reserved encoding (R531); a list that cannot be read is not one. -/
def streamBad (s : State) (j cfg : Nat) : Bool :=
  (bit cfg 1 && bit cfg 2) ||
    match readList s j cfg with
    | .ok l => (listItems l).any (itemBad s) || decide (2 ^ rd s dumpPage (fLLOG2 j) / recLen (listItems l) < 2)
    | .error _ => false

/-- Whether the range of SCAN_ADDR and SCAN_LEN lies within the space that SCAN_CFG.SPACE selects (R570). -/
def scanInside (s : State) (pg : Nat) : Bool :=
  let a := rd s pg ⟨0x100, 0, 48⟩
  let n := rd s pg ⟨0x108, 0, 48⟩
  if rd s pg ⟨0x110, 0, 1⟩ = 0 then decide (a + n ≤ hbmEnd s.code) else decide (flashBase ≤ a ∧ a + n ≤ flashEnd)

/-- The CODE of an ENCODING for a field (R18, R60, R307, R317, R372, R495, R531). -/
def encodingCode (s : State) (w : WReq) (f : Field) : Option Nat :=
  let v := newOf w f
  if (f.acc = .rw ∨ f.acc = .so) ∧ f.legal.ok v = false then some 0x02
  else
    match w.info.type with
    | .galleryControl =>
      if 0x200 ≤ w.off ∧ w.off < 0x300 ∧ w.off % 0x40 = 0x28 ∧ w.ones % 4 = 3 then some 0x02
      else if 0x200 ≤ w.off ∧ w.off < 0x300 ∧ w.off % 0x40 = 0x10 ∧ w.info.spare = false ∧
          tailOk s w.info.num ((w.off - 0x200) / 0x40) v = false then some 0x80
      else none
    | .movers => if (w.off = 0x118 ∨ w.off = 0x120) ∧ w.ones % 4 = 3 then some 0x02 else none
    | .cdieControl =>
      let ts := ((List.range 4).filter (fun k => bits w.new (8 * k + 7) 1 == 1)).map (fun k => bits w.new (8 * k) 6)
      if w.off = 0x100 ∧ ts.eraseDups.length ≠ ts.length then some 0x02 else none
    | .transport =>
      if (w.off = 0x108 ∧ f.lo = 32 ∧ v < bits w.new 16 16) ∨ (w.off = 0x110 ∧ f.lo = 16 ∧ bits w.new 0 16 ≤ v) then some 0x02 else none
    | .power => if w.off = 0x118 ∧ f.lo = 16 ∧ bits w.new 0 3 = 0 then some 0x02 else none
    | .memoryScan => if w.off = 0x118 ∧ f.lo = 0 ∧ v = 1 ∧ scanInside s w.pg = false then some 0x02 else none
    | .dump =>
      if 0x200 ≤ w.off ∧ w.off < 0x400 ∧ w.off % 0x20 = 0 ∧ f.lo = 0 ∧ v = 1 ∧ streamBad s ((w.off - 0x200) / 0x20) w.new = true then some 0x02
      else none
    | _ => none

/-- The CODE of a START refusal: RUN = 1 held back by a fault, a higher stop or the start check (R62). -/
def startCode (s : State) (w : WReq) (f : Field) : Option Nat :=
  if w.off = 0x010 ∧ f.lo = 0 ∧ newOf w f = 1 then
    if blkState s w.pg = stFaulted then some 0x04
    else if blkState s w.pg = stStopped then
      if rankOf w.who < rd s w.pg fSTOPSRC then some 0x04 else if startCheck s w.pg then none else some 0x08
    else none
  else none

/-- DONE (R60). -/
def rDONE : Nat := 0x0
/-- DONE_PARTIAL. -/
def rPARTIAL : Nat := 0x1
/-- NO_PAGE. -/
def rNOPAGE : Nat := 0x2
/-- DENIED. -/
def rDENIED : Nat := 0x3
/-- STATE. -/
def rSTATE : Nat := 0x4
/-- ENCODING. -/
def rENCODING : Nat := 0x5
/-- ALIGN. -/
def rALIGN : Nat := 0x6
/-- ADDR. -/
def rADDR : Nat := 0x7
/-- UNAVAILABLE. -/
def rUNAVAIL : Nat := 0x8
/-- DATA_ERROR. -/
def rDATA : Nat := 0x9
/-- SKIPPED. -/
def rSKIPPED : Nat := 0xA
/-- START. -/
def rSTART : Nat := 0xB

/-- The first check of a written field that fails: status and CODE (R60 check 8). -/
def fieldRefusal (s : State) (w : WReq) (f : Field) : Option (Nat × Nat) :=
  match deniedCode s w f with
  | some c => some (rDENIED, c)
  | none =>
    if f.acc = .so ∧ blkState s w.pg ≠ stStopped then some (rSTATE, 0x01)
    else if wrongState s w f then some (rSTATE, 0x09)
    else
      match encodingCode s w f with
      | some c => some (rENCODING, c)
      | none => (startCode s w f).map (fun c => (rSTART, c))

/-- The first refusal of a write, its fields taken in ascending order (R60). -/
def writeRefusal (s : State) (w : WReq) : Option (Nat × Nat) :=
  (w.fields.filter (fun f => decide (f.acc ≠ .ro) && touches w f)).findSome? (fieldRefusal s w)

/-- Every bit that belongs to a field. -/
def fieldBits (fs : List Field) : Nat := fs.foldl (fun m f => m ||| ((2 ^ f.width - 1) * 2 ^ f.lo)) 0

/-- Whether a write reaches RO fields or reserved bits (R58, R60). -/
def writesRO (w : WReq) : Bool :=
  w.fields.any (fun f => decide (f.acc = .ro) && touches w f) || (w.ones &&& (2 ^ 64 - 1 - fieldBits w.fields)) != 0

/-- The word kept after a write of its written fields; requests keep nothing (R16). -/
def writtenWord (w : WReq) (kept : Nat) : Nat :=
  (w.fields.filter (touches w)).foldl (fun v f =>
    match f.acc with
    | .rw => setBits v f.lo f.width (newOf w f)
    | .so => setBits v f.lo f.width (newOf w f)
    | .wo => setBits v f.lo f.width ((bits kept f.lo f.width &&& (2 ^ f.width - 1 - bits w.mask f.lo f.width)) ||| bits w.ones f.lo f.width)
    | .w1c => setBits v f.lo f.width (bits v f.lo f.width &&& (2 ^ f.width - 1 - bits w.ones f.lo f.width))
    | .w1sHeld => setBits v f.lo f.width 1
    | .w1s => v
    | .ro => v) kept

end Sys2Proof.Machine
end

