-- ==== Sys2Proof/Machine/Effects.lean ====
section
/-! DEFINITION. What a register write that passed its checks does beyond keeping its word (R48-R52, R62, R70, R74 and the register tables
of every chapter), and register operations as a whole (R58-R60). -/

namespace Sys2Proof.Machine

/-- Whether an operation writes 1 to a request or clearing bit. -/
def asked (w : WReq) (n : Nat) : Bool := bit w.ones n

/-- Whether a write takes a bit from 0 to 1. -/
def rises (w : WReq) (n : Nat) : Bool := !bit w.old n && bit w.new n

/-- Whether a write takes a bit from 1 to 0. -/
def falls (w : WReq) (n : Nat) : Bool := bit w.old n && !bit w.new n

/-- A write of BLK_CTRL (R48, R62): LOWPWR, then RUN, then CLEAR_FAULT. RUN = 1 acts on a STOPPED block only, RUN = 0 on a RUNNING one. -/
def ctrlWrite (s : State) (w : WReq) : State :=
  let low := bits w.new 4 2
  let s1 :=
    if w.info.type = .galleryControl ∧ low ≠ bits w.old 4 2 then
      if low ≠ 0 then enterLow s w.pg low else if blkState s w.pg = stAsleep then idleCheck (leaveLow s w.pg) else s
    else s
  let s2 :=
    if rises w 0 = true ∧ blkState s1 w.pg = stStopped then startPage s1 w.pg (rankOf w.who)
    else if falls w 0 = true ∧ blkState s1 w.pg = stRunning then blockStop (voidPart s1 w.pg) w.pg (rankOf w.who)
    else s1
  if asked w 1 then blockClearFault s2 w.pg else s2

/-- The vector that an event bit of a page goes to: a queue's own on a gallery control page (R70, R331). -/
def bitVector (s : State) (w : WReq) (b : Nat) : Nat :=
  if w.info.type = .galleryControl ∧ 8 ≤ b ∧ b < 12 then rd s w.pg (fQVEC (b - 8)) else rd s w.pg fVECTOR

/-- The vectors of some event bits of a page raised, each once; a bit that events directed to vector 0 alone have set raises none of
the page's (R70, R304). -/
def raiseBits (s : State) (w : WReq) (bs : List Nat) : State :=
  let mine := bs.filter (fun b => !(tget riseNone s.rose w.pg).zero.testBit b)
  ((mine.map (bitVector s w)).eraseDups).foldl (fun t v => vecRaise t v w.pg) s

/-- EVT_EN bits set over EVT_RAW bits that stand already (R70). -/
def enableEvents (s : State) (w : WReq) : State := raiseBits s w ((setOf 64 (rd s w.pg fEVTRAW)).filter (rises w))

/-- The EVT_RAW bits that a write would clear and an event has set in this cycle (R69). -/
def heldBits (s : State) (w : WReq) : Nat :=
  let r := tget riseNone s.rose w.pg
  if r.time = s.now then r.bits &&& w.ones &&& w.old else 0

/-- EVT_RAW written: a bit that an event sets in the same cycle stays 1, and its vector is raised again where EVT_EN has it (R69). -/
def clearEvents (s : State) (w : WReq) : State :=
  let keep := heldBits s w
  raiseBits (wr s w.pg fEVTRAW (rd s w.pg fEVTRAW ||| keep)) w ((setOf 64 keep).filter (fun b => (rd s w.pg fEVTEN).testBit b))

/-- ERR_INFO.VALID cleared, with what it clears (R52). -/
def clearError (s : State) (pg : Nat) : State :=
  regPut (regPut s (pg * 4096 + 0x038) (setBits (regGet s (pg * 4096 + 0x038)) 0 17 0)) (pg * 4096 + 0x040) 0

/-- Every counter and command set of a page zero (R527). -/
def zeroLedger (s : State) (pg : Nat) : State :=
  { s with
    regs := s.regs.filter (fun e => !(e.1 / 4096 == pg && decide (0x810 ≤ e.1 % 4096)))
    runs := s.runs.filter (fun r => r.page != pg) }

/-- Every check-value unit of a page IDLE with VALUE, EXPECT and FED 0 (R452). -/
def idleUnits (s : State) (x : Nat) : State :=
  (List.range 8).foldl (fun t u =>
    wr (wr (wr (wr t (cvPage x) (fCVSTATE u) 0) (cvPage x) (fCVFED u) 0) (cvPage x) (fCVVALUE u) 0) (cvPage x) (fCV u 0x20 0 64) 0) s

/-- A change of BLK_OWNER (R452, R527). -/
def ownerChanged (s : State) (w : WReq) : State :=
  let s1 := if (ledgerShape w.info.type).2.2.2.2 = 1 then zeroLedger s w.pg else s
  if w.info.type = .checkValue then idleUnits s1 w.info.xdie else s1

/-- A header register written. -/
def headerWrite (s : State) (w : WReq) : State :=
  if w.off = 0x010 then ctrlWrite s w
  else if w.off = 0x020 then clearEvents s w
  else if w.off = 0x028 then enableEvents s w
  else if w.off = 0x038 then (if asked w 16 then clearError s w.pg else s)
  else if w.off = 0x050 then (if w.new = w.old then s else ownerChanged s w)
  else s

/-- WATCHw_CFG.ARM written (R540, R542; notes/assumptions/62). -/
def watchWrite (s : State) (w : WReq) (k : Nat) : State :=
  if rises w 43 then wr (wr (wr s w.pg (fWRITTEN k) 0) w.pg (fWSTATE k) 1) w.pg ⟨0x620 + 0x40 * k, 50, 1⟩ 0
  else if falls w 43 then wr s w.pg (fWSTATE k) 0
  else s

/-- A gallery control register written: TAIL, RESUME, FLUSH, a tensor watch (R307, R317, R540). A spare gallery has no commands. -/
def galleryWrite (s : State) (w : WReq) : State :=
  let q := (w.off - 0x200) / 0x40
  if 0x200 ≤ w.off ∧ w.off < 0x300 ∧ w.info.spare = false then
    if w.off % 0x40 = 0x10 then (if w.new = w.old then s else noteTail s w.info.num q (w.new % 2 ^ 32))
    else if w.off % 0x40 = 0x28 then
      if asked w 0 then queueResume s w.info.num q else if asked w 1 then queueFlush s w.info.num q else s
    else s
  else if 0x600 ≤ w.off ∧ w.off < 0x700 ∧ w.off % 0x40 = 0 then watchWrite s w ((w.off - 0x600) / 0x40)
  else s

/-- RESUME of a mover: its own transfer, or a commit's (R258, R292). -/
def resumeMover (s : State) (g m : Nat) : State :=
  if moverJobs s (galPage g) m = [] then wr s (movPage g) (fMSTATE m) 0 else moverResume s g m

/-- ABORT of a mover: its own transfer, or a commit's, which fails (R259, R291). -/
def abortMover (s : State) (g m : Nat) : State :=
  if moverJobs s (galPage g) m = [] then
    let s1 := tally (raise (wr s (movPage g) (fMSTATE m) 0) (movPage g) (10 + m)) (movPage g) (34 + m) 1
    match pageOwner s (galPage g) with
    | some p => commitFail (recordErr s1 (galPage g) 0x80 (some p) 0 false (m * 2 ^ 8)) p g (m * 2 ^ 8)
    | none => s1
  else moverAbort s g m

/-- A movers register written (R233, R258-R261). -/
def moversWrite (s : State) (w : WReq) : State :=
  let m := (w.off - 0x118) / 8
  if (w.off = 0x118 ∨ w.off = 0x120) ∧ w.info.spare = false then
    if asked w 0 then resumeMover s w.info.num m else if asked w 1 then abortMover s w.info.num m else s
  else if 0x200 ≤ w.off ∧ w.off < 0x400 then
    let x := galGet s (galBase w.pg)
    let c := (w.off - 0x200) / 8
    match tfind x.caddies c with
    | some k =>
      if w.new ≠ w.old ∧ blkState s w.pg = stStopped then galPut s (galBase w.pg) { x with caddies := tins x.caddies c { k with written := true } }
      else s
    | none => s
  else s

/-- A page number with the four pages at a and at b exchanged. -/
def swapPage (a b pg : Nat) : Nat :=
  if a ≤ pg ∧ pg < a + 4 then b + (pg - a) else if b ≤ pg ∧ pg < b + 4 then a + (pg - b) else pg

/-- A register address with two galleries exchanged; BLK_OWNER stays with the logical number (R154; notes/assumptions/63). -/
def swapAddr (a b r : Nat) : Nat := if r % 4096 = 0x050 then r else swapPage a b (r / 4096) * 4096 + r % 4096

/-- Two galleries exchanged, as their control pages name them: registers and everything they hold (R154). -/
def swapGalleries (s : State) (a b : Nat) : State :=
  let x := galGet s a
  let y := galGet s b
  let s1 := { s with
    regs := s.regs.foldl (fun t e => tput (BitVec.ofNat 64 (resetOf s.code s.fuses (swapAddr a b e.1))) t (swapAddr a b e.1) e.2) []
    regBad := s.regBad.map (swapAddr a b)
    rose := s.rose.foldl (fun t e => tput riseNone t (swapPage a b e.1) e.2) [] }
  galPut (galPut s1 a y) b x

/-- GAL_FAILED bit g of C-die c (R153); the Ledger counts a gallery marked failed (R24, R529). -/
def markFailed (s : State) (c g : Nat) (v : Bool) : State :=
  let r := cPage c 0x100
  let s1 := wr s r ⟨0x108, g, 1⟩ (b2n v)
  if v = true ∧ rd s r ⟨0x108, g, 1⟩ = 0 then tally s1 r 1 1 else s1

/-- Spare k of C-die c put in the place of logical gallery g (R154, R303, R305): the configuration is kept, the spare's registers
answer at the logical number, it holds the step of the partition, and the gallery is stale (R320). -/
def mapSpare (s : State) (c k g : Nat) : State :=
  let pg := galPage (64 * c + g)
  let s1 := swapGalleries (dropLead (saveConfig s (64 * c + g)) pg) pg (sparePage c k)
  let s2 := markFailed (match pageOwner s pg with | some p => joinStep (wr s1 pg fSTALE 1) p (64 * c + g) | none => wr s1 pg fSTALE 1) c g false
  tally (tally s2 (cPage c 0x100) 0 1) (cPage c 0x100) 3 1

/-- Spare k taken from the place of logical gallery g (R153, R154; notes/assumptions/63): the gallery it replaced is never reached again,
and g has failed and is not replaced. -/
def unmapSpare (s : State) (c k g : Nat) : State :=
  let pg := galPage (64 * c + g)
  let s1 := markFailed (wr (swapGalleries s pg (sparePage c k)) pg fSTALE 1) c g true
  { s1 with gone := tput 0 s1.gone c (tget 0 s1.gone c ||| (1 <<< g)) }

/-- The sparing map written: mappings that end, then mappings that begin, and the Curator's record (R153, R154, R497). An unmapped spare
reads TARGET 0. -/
def spareWrite (s : State) (w : WReq) : State :=
  let c := w.pg / 512
  let changed := (List.range 4).filter (fun k => bits w.old (8 * k) 8 != bits w.new (8 * k) 8)
  let s1 := (changed.filter (fun k => bit w.old (8 * k + 7))).foldl (fun t k => unmapSpare t c k (bits w.old (8 * k) 6)) s
  let s2 := (changed.filter (fun k => bit w.new (8 * k + 7))).foldl (fun t k => mapSpare t c k (bits w.new (8 * k) 6)) s1
  let word := (List.range 4).foldl (fun v k => if bit v (8 * k + 7) then v else setBits v (8 * k) 8 0) (w.new % 2 ^ 32)
  let s3 := regPut s2 (w.pg * 4096 + 0x100) word
  if word = w.old then s3 else putRecord s3 { s3.boot.rcd with spare := tput 0 s3.boot.rcd.spare c word }

/-- A rail monitor register written (R481, R494). -/
def railWrite (s : State) (w : WReq) : State :=
  let d := if w.info.xdie < 6 then 4 + w.info.xdie else w.pg / 512
  if w.off = 0x108 ∧ asked w 63 = true then wr (wr s w.pg fMINMV (rd s w.pg fMV)) w.pg fMAXT (rd s w.pg fTEMP)
  else if w.off = 0x118 then
    let s1 := if bits w.old 0 5 = bits w.new 0 5 then s else applyDuty s d
    if bits w.old 8 8 = bits w.new 8 8 then s1 else tally s1 w.pg 3 1
  else s

/-- RING_CTRL written: 1 asks for the opening of a ring, 0 closes it (R368, R369). -/
def ringWrite (s : State) (w : WReq) : State :=
  [Ring.a, Ring.b].foldl (fun t r =>
    if rises w (ringNum r) then ringOpen t r else if falls w (ringNum r) then ringDrop t r 1 else t) s

/-- A check-value register written (R451, R466). -/
def checkWrite (s : State) (w : WReq) : State :=
  let u := (w.off - 0x100) / 0x40
  if 0x100 ≤ w.off ∧ w.off < 0x300 ∧ w.off % 0x40 = 0x28 then
    let s1 := if asked w 0 then
        wr (wr (wr (wr s w.pg (fCVSTATE u) 1) w.pg (fCVFED u) 0) w.pg (fCV u 0x30 2 1) 0) w.pg (fCV u 0x30 3 1) 0
      else s
    if asked w 1 = true ∧ rd s1 w.pg (fCVSTATE u) = 1 then wr s1 w.pg (fCVSTATE u) 3 else s1
  else s

/-- A scan begins; the unit it feeds becomes BUSY (R453, R466, R468). -/
def scanBegin (s : State) (x : Nat) : State :=
  let pg := scanPage x
  let s1 := wr (wr s pg fSCSTATE 1) pg fSCBYTES 0
  if rd s pg fSCFEED = 1 then
    let u := rd s pg fSCUNIT
    let t := wr (wr (wr s1 (cvPage x) (fCVSCAN u) 1) (cvPage x) (fCVSTATE u) 1) (cvPage x) (fCVFED u) 0
    wr (wr t (cvPage x) (fCV u 0x30 2 1) 0) (cvPage x) (fCV u 0x30 3 1) 0
  else s1

/-- A register of the scan, scrub and limiter page written (R453, R468). -/
def scanWrite (s : State) (w : WReq) : State :=
  if w.off = 0x118 then
    let s1 := if asked w 0 then scanBegin s w.info.xdie else s
    if asked w 1 = true ∧ rd s1 w.pg fSCSTATE = 1 then scanEnd s1 w.info.xdie 3 else s1
  else if (w.off = 0x130 ∨ w.off = 0x148) ∧ asked w 63 = true then regPut s (w.pg * 4096 + w.off) 0
  else s

/-- A register of the flash page written (R415, R431). -/
def resWrite (s : State) (w : WReq) : State :=
  if 0x200 ≤ w.off then
    let p := (w.off - 0x200) / 24
    let r := (w.off - 0x200) % 24
    if r = 0 ∧ falls w 49 = true then holdCleared s p
    else if r = 16 ∧ asked w 4 = true then wr (resPut s p { (partGet s p).res with asked := w.new }) w.pg (fRCBUSY p) 1
    else s
  else s

/-- PWR_MODE.IDLE written (R490). -/
def idleWrite (s : State) (w : WReq) : State :=
  if rises w 0 then tally (wr { s with power := { s.power with idleSince := s.now, srAt := [] } } pwrPage fIDLEACT 1) pwrPage 1 1 else if falls w 0 then leaveIdle s else s

/-- A register of the power page written, its word kept already (R486, R490, R495). -/
def powerWrite (s : State) (w : WReq) : State :=
  if w.off = 0x110 then idleWrite s w
  else if w.off = 0x118 then (if asked w 16 then journalOpen (wr { s with power := { s.power with rstReq := w.new } } pwrPage fRBUSY 1) 2 else s)
  else if w.off = 0x130 ∧ asked w 0 = true then { s with power := { s.power with wdogAlert := false } }
  else s

/-- A register of a Curator page written (R501, R507, R516). -/
def curatorWrite (s : State) (w : WReq) : State :=
  if w.info.type = .mailbox then (if w.off = 0x108 ∧ asked w 0 = true then watchdogKick s w.info.xdie else s)
  else if w.off = 0x110 then (if asked w 7 then journalled (svnAdvance s w.info.xdie) 0 else s)
  else if w.off = 0x118 then
    let k := bits w.ones 8 4
    if k = 0 then s else journalled { s with fuses := { s.fuses with keysRevoked := s.fuses.keysRevoked ||| k } } 0
  else s

/-- LDS_CFGj.EN taken to 1: the list is read, and the first sample is the first multiple of the period after now (R531, R534). -/
def streamBegin (s : State) (j cfg : Nat) : State :=
  let period := max 1 (rd s dumpPage (fLPERIOD j) * 1000)
  match readList s j cfg with
  | .error (va, e) => streamFail s j va e
  | .ok l => wr (wr (streamPut s j ⟨l, (s.now / period + 1) * period, 0, 0, none⟩) dumpPage (fLSEQ j) 0) dumpPage (fLMISSED j) 0

/-- A register of the dump engine page written (R526, R531). -/
def dumpWrite (s : State) (w : WReq) : State :=
  if w.off = 0x100 then putGrants s w.new
  else if 0x200 ≤ w.off ∧ w.off < 0x400 ∧ w.off % 0x20 = 0 then
    let j := (w.off - 0x200) / 0x20
    if rises w 0 then streamBegin s j w.new else if falls w 0 then streamOff s j else s
  else s

/-- A register of the test multiplexer page written (R546, R547). -/
def muxWrite (s : State) (w : WReq) : State :=
  if w.off = 0x1A0 then
    let s1 := if asked w 0 then trigOut s else s
    if asked w 1 then trigRestart s1 else s1
  else if w.off = 0x220 then
    let s1 := if asked w 0 then unlockNew s else s
    let s2 := if asked w 1 then unlockCheck s1 else s1
    if asked w 3 then unlockLock s2 else s2
  else s

/-- An entry of the event-vector table written: unmasking one with events pending delivers at once (R74). Any other write delivers
nothing: an entry whose COAL_N is lowered to PENDING or below waits for its next event (DESIGN CHOICE, notes/assumptions/143). -/
def vectorWrite (s : State) (w : WReq) : State :=
  if isEntry w.info w.off = true ∧ w.off % 16 = 0 ∧ w.info.xdie = 0 ∧ falls w 47 = true then
    vecDeliver s (64 * w.info.num + (w.off - 0x100) / 16)
  else s

/-- PART_REQ.GO: the request and what it names are those of this moment, whatever is written while BUSY is 1; the journal has it before it
acts (R297, R298, R506). -/
def partGo (s : State) : State :=
  let words := [0x700, 0x708, 0x710, 0x718, 0x720, 0x728, 0x730].map (fun o => regGet s (rootPage * 4096 + o))
  journalOpen (wr { s with boot := { s.boot with partReq := words } } rootPage fPBUSY 1) 1

/-- A block register written. -/
def blockWrite (s : State) (w : WReq) : State :=
  match w.info.type with
  | .galleryControl => galleryWrite s w
  | .arrayBays => if w.off = 0x110 ∧ w.info.spare = false then clearBays s w.info.num (w.ones % 16) else s
  | .movers => moversWrite s w
  | .cdieControl => if w.off = 0x100 then spareWrite s w else s
  | .hbm => if w.off = 0x118 ∧ asked w 8 = true then startMirror s w.info.num (w.new % 32) else s
  | .railMonitor => railWrite s w
  | .xdieControl => if w.off = 0x130 then ringWrite s w else s
  | .checkValue => checkWrite s w
  | .memoryScan => scanWrite s w
  | .partitionRoot => if w.off = 0x700 ∧ asked w 16 = true then partGo s else s
  | .mailbox => curatorWrite s w
  | .boot => curatorWrite s w
  | .flash => resWrite s w
  | .power => powerWrite s w
  | .dump => dumpWrite s w
  | .testMux => muxWrite s w
  | .vectorTable => vectorWrite s w
  | _ => s

/-- Whether a register keeps its word by its effect alone: BLK_CTRL, the sparing map, the ring requests, LDG_GRANT. -/
def selfKept (w : WReq) : Bool :=
  w.off == 0x010 || (w.info.type == .cdieControl && w.off == 0x100) || (w.info.type == .dump && w.off == 0x100)

/-- The address of the register of a write. -/
def addrOf (w : WReq) : Nat := w.pg * 4096 + w.off

/-- Where the word of a register is kept: an entry of the event-vector table with the primary's (R71). -/
def keptAt (w : WReq) : Nat := if isEntry w.info w.off then vecAddr (64 * w.info.num + (w.off - 0x100) / 16) + (w.off - 0x100) % 16 else addrOf w

/-- The word of a write kept; a register whose storage read uncorrectable holds a good word again (notes/assumptions/64). -/
def keepWord (s : State) (w : WReq) : State :=
  if selfKept w then s
  else regPut { s with regBad := s.regBad.filter (· != keptAt w) } (keptAt w) (writtenWord w (regGet s (keptAt w)))

/-- A write that has passed its checks, carried out (R60). A write of ALERT_SRC or ALERT_EN may assert ALERT_N (R495). -/
def applyWrite (s : State) (w : WReq) : State :=
  if w.off < 0x100 then headerWrite (keepWord s w) w
  else if w.info.type = .power then withAlert s (fun t => powerWrite (keepWord t w) w)
  else blockWrite (keepWord s w) w

/-- A refusal recorded on its page, with its principal's partition and EV_BLK_REFUSED (R60); a DENIED on a block in reset is not. A TAIL
refusal records the queue and the page's owner (R307, R331). -/
def refused (s : State) (w : WReq) (st code : Nat) : State × Nat × Word64 :=
  if st = rDENIED ∧ inReset s w.pg w.info = true then (s, st, 0)
  else
    let detail := if code = 0x80 then (w.off - 0x200) / 0x40 else 0
    let part := if code = 0x80 then pageOwner s w.pg else partOf w.who
    (raise (recordErr s w.pg code part (addrOf w) false detail) w.pg 2, st, 0)

/-- The checks of R60 that look at the address alone, in order. -/
def addressRefusal (s : State) (addr : Nat) : Option Nat :=
  if 2 ^ 24 ≤ addr then some rADDR
  else if addr % 8 ≠ 0 then some rALIGN
  else if (pageAt s (addr / 4096)).isNone then some rNOPAGE
  else none

/-- One register operation by a principal (R57-R61): the checks of R60 in their order, then `f` on the write it would be. -/
def withReg (s : State) (who : Princ) (addr : Nat) (data mask : Nat) (f : WReq → State × Nat × Word64) : State × Nat × Word64 :=
  match addressRefusal s addr, pageAt s (addr / 4096) with
  | some st, _ => (s, st, 0)
  | none, none => (s, rNOPAGE, 0)
  | none, some live =>
    let i := liveInfo s live
    let pg := addr / 4096
    let off := addr % 4096
    let old := regRead s pg i off
    let new := old - (old &&& mask) + (data &&& mask)
    let w : WReq := ⟨who, pg, i, off, old, new, data &&& mask, mask, (regFields i off).getD []⟩
    if reaches s who pg i off = false then refused s w rDENIED 0x03
    else if inReset s pg i then (s, rUNAVAIL, 0)
    else f w

/-- READ (R58-R61); in the cycle of a run's start, the previous run's values (R524). -/
def doRead (s : State) (who : Princ) (addr : Nat) : State × Nat × Word64 :=
  withReg s who addr 0 0 (fun w => if s.regBad.contains addr then (s, rDATA, 0) else (s, rDONE, BitVec.ofNat 64 ((runWord s addr).getD w.old)))

/-- WRITE and WRITE_MASKED (R58, R60). -/
def doWrite (s : State) (who : Princ) (addr data mask : Nat) : State × Nat × Word64 :=
  withReg s who addr data mask (fun w =>
    match writeRefusal s w with
    | some (st, code) => refused s w st code
    | none => (applyWrite s w, if writesRO w then rPARTIAL else rDONE, 0))

/-- The mask of a whole register. -/
def allBits : Nat := 2 ^ 64 - 1

end Sys2Proof.Machine
end

