-- ==== Sys2Proof/Machine/Receive.lean ====
section
/-! DEFINITION. Receiving on a session (R340-R366): authentication, sequence numbers, acknowledgements and what they mean, control packets
in order, bulk messages, collective segments and multicast. -/

namespace Sys2Proof.Machine

/-- The kinds of packet of R342 that a row of the table brings, but for SC_INIT and SC_ACCEPT, and the one the module never takes that is
sequenced. -/
inductive Kind where
  | reg | regResp | doorbell | bulkWrite | bulkRead | bulkRdata | status | collSeg | mcastSeg | mcastCtrl (op : Nat) | sc | ack
  deriving DecidableEq, Repr

/-- The place of a kind in the Ledger's order (R342, R529). -/
def kindIndex (k : Kind) : Nat :=
  match k with
  | .reg => 0 | .regResp => 1 | .doorbell => 2 | .bulkWrite => 3 | .bulkRead => 4 | .bulkRdata => 5 | .status => 6 | .collSeg => 8 | .mcastSeg => 9 | .mcastCtrl _ => 10
  | .sc => 11 | .ack => 12

/-- Whether a kind is a control packet, which waits for the packets before it (R351). -/
def isControl (k : Kind) : Bool := match k with | .reg => true | .regResp => true | .doorbell => true | .status => true | .mcastCtrl _ => true | .sc => true | _ => false

/-- Whether a kind is encrypted by ZT_PARTp.ENC alone (R348). -/
def isData (k : Kind) : Bool := match k with | .bulkWrite => true | .bulkRdata => true | .collSeg => true | .mcastSeg => true | _ => false

/-- Whether a binding carries a kind (R347). -/
def carries (r : Role) (k : Kind) : Bool :=
  match r, k with
  | _, .regResp => false
  | .peer, .reg => false
  | .peer, .doorbell => false
  | .peer, _ => true
  | _, .collSeg => false
  | _, .mcastSeg => false
  | .tenant, .mcastCtrl op => op == 1
  | .administrator, .mcastCtrl _ => false
  | _, _ => true

/-- How far sequence number a lies beyond b, modulo 2^32 (R350). -/
def ahead (a b : Word32) : Nat := (a - b).toNat

/-- Whether sequence number a lies below b. -/
def below (a b : Word32) : Bool := a != b && decide (ahead b a < 2 ^ 31)

/-- Whether a received sequence number is a duplicate (R351). -/
def duplicate (x : Sess) (q : Word32) : Bool :=
  below q x.rxNext || (decide (1 ≤ ahead q x.rxNext) && decide (ahead q x.rxNext ≤ 64) && x.rxSack.getLsbD (ahead q x.rxNext - 1))

/-- The cumulative number moved over what SACK marks behind it (R351). -/
def absorbRx (fuel : Nat) (next : Word32) (sack : Word64) : Word32 × Word64 :=
  match fuel with
  | 0 => (next, sack)
  | n + 1 => if sack.getLsbD 0 then absorbRx n (next + 1) (sack >>> 1) else (next, sack)

/-- A sequence number marked as received (R351). -/
def markRx (x : Sess) (q : Word32) : Sess :=
  let d := ahead q x.rxNext
  if d = 0 then
    let r := absorbRx 64 (x.rxNext + 1) x.rxSack
    { x with rxNext := r.1, rxSack := r.2 >>> 1 }
  else { x with rxSack := x.rxSack ||| (1 <<< (d - 1)) }

/-- An acknowledgement owed: an ACK packet after every second sequenced packet, or in time after the first (R351). -/
def owe (s : State) (i : Nat) : State :=
  match sessGet s i with
  | none => s
  | some x => if 1 ≤ x.sinceAck then sendAck s i else sessPut s i { x with sinceAck := x.sinceAck + 1, owedAt := s.now }

/-- The message of a session refused: one STATUS, and its further packets change nothing (R358). -/
def refuseMsg (s : State) (i : Nat) (msg : Word32) (code detail : Nat) : State :=
  match sessGet s i with
  | none => s
  | some x => sendStatus (sessPut s i { x with failed := x.failed ++ [msg] }) i msg code detail

/-- EV_ZT_AUTH_FAIL, at most once a second per session (R348). -/
def authFail (s : State) (i : Nat) (x : Sess) : State :=
  let pg := ztPage (sessXdie i)
  let s1 := tally s pg 29 1
  let due := match x.authAt with | some t => decide (t + 1000000000 ≤ s.now) | none => true
  if due then raise (sessPut s1 i { x with authAt := some s.now }) pg 10 else s1

/-- A stale epoch on session i of partition p: the record of R360. -/
def staleRecord (s : State) (i p : Nat) : State := recordErr s (ztPage (sessXdie i)) 0x05 (some p) 0 false 0

/-- The current epoch of a partition. -/
def epochNow (s : State) (p : Nat) : Nat := rd s rootPage (fPEPOCH p)

/-- The checks of epoch and stopped context of a tenant's or peer's message (R360, R362); an administrator's has neither. -/
def contextCheck (s : State) (i : Nat) (x : Sess) (epoch : Nat) : Answer :=
  if x.role = .administrator then .taken
  else if epoch ≠ epochNow s x.partition then .refuse 2 (epochNow s x.partition)
  else if contextStopped s (sessXdie i) x.partition then .refuse 5 0
  else .taken

/-- A refusal with its record (R360). -/
def withStale (s : State) (i : Nat) (x : Sess) (a : Answer) : State × Answer :=
  match a with
  | .refuse 2 _ => (staleRecord s i x.partition, a)
  | _ => (s, a)

/-- The STATUS of a bulk access that failed, with the record on the transport page (R358, R441, R448). -/
def bulkError (s : State) (i p va : Nat) (e : AccErr) : State × Answer :=
  let pg := ztPage (sessXdie i)
  match e with
  | .fault c _ _ => (s, .refuse 3 (va % 2 ^ 48 + c * 2 ^ 48))
  | .table a _ => (recordBad s pg (some p) a, .refuse 4 (a / 32 * 32))
  | .data a => (recordBad s pg (some p) a, .refuse 4 (a / 32 * 32))
  | .owner a => (recordErr s pg 0x07 (some p) a true 0, .refuse 1 va)

/-- Whether a physical range is memory that an administrator may reach: storage the module has, no frame reserved to the Curator (R357,
R448). -/
def adminMay (s : State) (a n : Nat) : Bool :=
  let fr := fun (b : Nat) => inMemory s.code b 1 && !(decide (b < hbmEnd s.code) && frameOwnerOf s (b / frameSize) == 0x40)
  fr a && fr (a + n - 1) && (List.range (n / frameSize + 1)).all (fun k => decide (n ≤ k * frameSize) || fr (a + k * frameSize))

/-- Whether a physical address lies in the mailbox window (R510). -/
def inMailbox (a : Nat) : Bool := decide (mboxBase ≤ a) && decide (a < mboxEnd)

/-- A BULK_WRITE packet of an administrator (R357, R510, R511). -/
def adminWrite (s : State) (i : Nat) (addr len off : Nat) (bs : List Byte) : State × Answer :=
  let a := addr % 2 ^ 48
  if addr < 2 ^ 63 then (s, .refuse 1 addr)
  else if inMailbox a then
    match mboxWriteCheck (a - mboxBase) len with
    | .ok => (mboxWrite s i (a - mboxBase) len off bs, .taken)
    | .denied => (s, .refuse 1 addr)
    | .encoding => (s, .refuse 6 (if (a - mboxBase) % 1024 = 0 then 8 else 0))
  else if adminMay s (a + off) (max 1 bs.length) = false then (s, .refuse 1 addr)
  else
    match store s (a + off) bs with
    | (s1, none) => (s1, .taken)
    | (s1, some g) => (recordBad s1 (ztPage (sessXdie i)) none g, .refuse 4 (g / 32 * 32))

/-- A BULK_WRITE packet (R357, R358, R360-R362, R397). -/
def takeWrite (s : State) (i : Nat) (x : Sess) (k : Pkt) (addr len off : Nat) (bs : List Byte) : State × Answer :=
  match contextCheck s i x k.epoch.toNat with
  | .taken =>
    if bits addr 48 15 ≠ 0 then (s, .refuse 6 0)
    else if len = 0 then (s, .refuse 6 8)
    else if len < off + bs.length then (s, .refuse 6 12)
    else
      let s0 := tally s (ztPage (sessXdie i)) 43 bs.length
      if x.role = .administrator then adminWrite s0 i addr len off bs
      else if 2 ^ 63 ≤ addr then (s0, .refuse 1 addr)
      else
        match vstore s0 x.partition (addr + off) bs with
        | (s1, some (va, e)) => bulkError s1 i x.partition va e
        | (s1, none) => (countWindows s1 (sessXdie i) x.partition (addr + off) (addr + off + bs.length), .taken)
  | a => withStale s i x a

/-- The answer of a BULK_READ: its bytes in one BULK_RDATA message, kept until it is acknowledged (R353, R357). -/
def answerRead (s : State) (i : Nat) (k : Pkt) (rtag : Nat) (bs : List Byte) : State :=
  match sessGet s i with
  | none => s
  | some x =>
    let os := (cut (bs.length / 8192 + 1) 0 bs.length 8192).map (fun r =>
      Out.bulkRdata (BitVec.ofNat 16 i) k.epoch.toNat rtag r.1 ((bs.drop r.1).take (r.2 - r.1)) (k.tclass.toNat % 4))
    sendMessage (sessPut s i { x with reads := x.reads ++ [(k.msg, x.txNext)] }) i os

/-- The bytes an administrator reads (R357, R510). -/
def adminRead (s : State) (i addr n : Nat) : State × Except Answer (List Byte) :=
  let a := addr % 2 ^ 48
  if addr < 2 ^ 63 then (s, .error (.refuse 1 addr))
  else if inMailbox a then
    match mboxReadCheck (a - mboxBase) n with
    | .ok => (s, .ok (mboxRead s i (a - mboxBase) n))
    | _ => (s, .error (.refuse 1 addr))
  else if adminMay s a n = false then (s, .error (.refuse 1 addr))
  else
    match load s a n with
    | .ok b => (healRange s a n, .ok b)
    | .error g => (recordBad s (ztPage (sessXdie i)) none g, .error (.refuse 4 (g / 32 * 32)))

/-- The bytes a tenant or a peer reads (R357, R358). -/
def partRead (s : State) (i p addr n : Nat) : State × Except Answer (List Byte) :=
  if 2 ^ 63 ≤ addr then (s, .error (.refuse 1 addr))
  else
    match vload s p addr n with
    | .ok b => (s, .ok b)
    | .error (va, e) => match bulkError s i p va e with | (s1, a) => (s1, .error a)

/-- A BULK_READ (R357, R358, R360-R362). -/
def takeRead (s : State) (i : Nat) (x : Sess) (k : Pkt) (addr n rtag : Nat) : State × Answer :=
  match contextCheck s i x k.epoch.toNat with
  | .taken =>
    if bits addr 48 15 ≠ 0 then (s, .refuse 6 0)
    else if n = 0 then (s, .refuse 6 8)
    else
      match (if x.role = .administrator then adminRead s i addr n else partRead s i x.partition addr n) with
      | (s1, .ok bs) => (answerRead s1 i k rtag bs, .taken)
      | (s1, .error a) => (s1, a)
  | a => withStale s i x a

/-- The data that a mover waits for (R254): its bytes are there when all of them have come. -/
def moverData (s : State) (pg m i tag : Nat) (bs : List Byte) : State :=
  match moverJobs s pg m with
  | j :: r =>
    match j.peer with
    | .waiting k t _ => if k.toNat = i ∧ t = tag then putJobs s pg m ({ j with peer := .data bs } :: r) else s
    | _ => s
  | [] => s

/-- Bytes of a remote read given to their owner (R254, R366, R421). -/
def ownerData (s : State) (i tag : Nat) (o : RdOwner) (off : Nat) (bs : List Byte) (last : Bool) : State :=
  match o with
  | .mover pg m => moverData s pg m i tag bs
  | .commit p k => commitWait s p k (fun x => match x with | .waiting n t _ => if n.toNat = i ∧ t = tag then .data bs else x | _ => x)
  | .restore p at_ => restoreData s p (at_ + off) bs
  | .mcast x group at_ =>
    match mcFind s x group with
    | none => s
    | some (k, g) =>
      let s1 := (mcStore s k g (at_ + off) bs).1
      if last then mcCatch s1 k else s1

/-- A BULK_RDATA packet (R357): its read has all its bytes when none are left. One with an unknown tag answers nothing. -/
def takeData (s : State) (i : Nat) (x : Sess) (tag off : Nat) (bs : List Byte) : State × Answer :=
  match x.rtags.find? (fun e => e.1 == tag) with
  | none => (s, .taken)
  | some (_, o, left) =>
    let rest := left - bs.length
    let tags := if rest = 0 then x.rtags.filter (fun e => e.1 != tag) else x.rtags.map (fun e => if e.1 = tag then (tag, o, rest) else e)
    (ownerData (sessPut (tally s (ztPage (sessXdie i)) 43 bs.length) i { x with rtags := tags }) i tag o off bs (rest == 0), .taken)

/-- A STATUS body (R358): what it says of a message that this module sent. -/
def takeStatus (s : State) (i : Nat) (x : Sess) (msg : Word32) (code detail : Nat) : State :=
  if code = 0 then s
  else
    let s1 := match x.rtags.find? (fun e => e.1 == msg.toNat) with
      | some (_, .restore p _, _) => restoreRefused (sessPut s i { x with rtags := x.rtags.filter (fun e => e.1 != msg.toNat) }) p code detail
      | some (_, o, _) => readFailed (sessPut s i { x with rtags := x.rtags.filter (fun e => e.1 != msg.toNat) }) o
      | none => s
    let s2 := writeFailed s1 i msg
    if x.role = .peer then resRefused (collRefused s2 i x.partition msg code) i x.partition msg else s2

/-- A doorbell (R308, R356, R360, R362): a WRITE of GQq_TAIL by the session's principal; any outcome but DONE is answered. -/
def takeDoorbell (s : State) (i : Nat) (x : Sess) (id tail epoch : Nat) : State × Answer :=
  match contextCheck s i x epoch with
  | .taken =>
    let who := if x.role = .administrator then Princ.administrator else .tenant x.partition
    if 1024 ≤ id then (s, .refuse 7 rADDR)
    else
      match doWrite s who (galPage (id / 4) * 4096 + 0x210 + 0x40 * (id % 4)) tail allBits with
      | (s1, st, _) => (s1, if st = rDONE then .taken else .refuse 7 st)
  | a => withStale s i x a

/-- MCAST_CTRL (R362, R364-R366). -/
def takeMcast (s : State) (i : Nat) (x : Sess) (op off : Nat) : State × Answer :=
  if contextStopped s (sessXdie i) x.partition then (s, .refuse 5 0)
  else match mcControl s i x.partition op off with | (s1, none) => (s1, .taken) | (s1, some d) => (s1, .refuse 6 d)

/-- SC_CONFIRM (R344, R345, R347): the session opens, or is closed with cause DENIED. -/
def takeConfirm (s : State) (i : Nat) (x : Sess) (sig : List Byte) : State :=
  if x.phase = .opening then
    if Config.ed448Verify x.key [] x.transcript sig = true ∧ authorised s x.key (roleCode x.role) x.partition = true then openSession s i
    else closeWith s i 2
  else s

/-- An operation of a register message by its OP (R58, R60, R355): a reserved OP, or a reserved byte behind it, is ENCODING and is not
recorded. -/
def runOpd (s : State) (who : Princ) (o : RegOpd) : State × Nat × Word64 :=
  match o.op.toNat with
  | 0 => doRead s who o.addr.toNat
  | 1 => doWrite s who o.addr.toNat o.data.toNat allBits
  | 2 => doWrite s who o.addr.toNat o.data.toNat o.mask.toNat
  | _ => (s, rENCODING, 0)

/-- Whether an operation failed (R60). -/
def opFailed (st : Nat) : Bool := st != rDONE && st != rPARTIAL

/-- One operation of a message behind those that have run: SKIPPED after a failure where STOP_ON_ERROR is set (R60). -/
def nextOpd (who : Princ) (stop : Bool) (a : State × Bool × List (Nat × Word64)) (o : RegOpd) : State × Bool × List (Nat × Word64) :=
  if a.2.1 = true ∧ stop = true then (a.1, true, (rSKIPPED, 0) :: a.2.2)
  else
    let r := runOpd a.1 who o
    (r.1, a.2.1 || opFailed r.2.1, r.2 :: a.2.2)

/-- A register message that had waited for its turn, executed whole (R59, R355). -/
def runRegMsg (s : State) (i : Nat) (stop : Bool) (ops : List RegOpd) : State :=
  match principalOf s (.session (BitVec.ofNat 16 i)) with
  | none => s
  | some who =>
    match ops.foldl (nextOpd who stop) (s, false, []) with
    | (s1, _, rs) => send s1 i (.regResp (BitVec.ofNat 16 i) rs.reverse)

/-- A control packet's body executed (R353). `epoch`: as its packet carried it. -/
def runControl (s : State) (i : Nat) (x : Sess) (c : Ctl) : State × Answer :=
  match c with
  | .doorbell id tail epoch => takeDoorbell s i x id.toNat tail.toNat epoch.toNat
  | .mcast op off => takeMcast s i x op off.toNat
  | .status msg code detail => (takeStatus s i x msg code.toNat detail.toNat, .taken)
  | .scConfirm sig => (takeConfirm s i x sig, .taken)
  | .scClose cause => if cause = 0 ∨ 7 < cause.toNat then (s, .refuse 6 1) else (closeSession s i cause.toNat, .taken)
  | .reg stop ops => (runRegMsg s i stop ops, .taken)
  | .refuse code d => (s, .refuse code d)

/-- Whether a control packet waits for the messages of lower position: bulk reads that are not answered yet (R353). -/
def mustWait (x : Sess) (q : Word32) (c : Ctl) : Bool :=
  match c with
  | .doorbell _ _ _ => x.reads.any (fun r => below r.1 q)
  | .mcast _ _ => x.reads.any (fun r => below r.1 q)
  | .reg _ _ => x.reads.any (fun r => below r.1 q)
  | _ => false

/-- The held control packets of a session whose turn has come, executed in order (R351, R353). -/
def runHeld (s : State) (i fuel : Nat) : State :=
  match fuel with
  | 0 => s
  | n + 1 =>
    match sessGet s i with
    | none => s
    | some x =>
      match x.held.find? (fun h => below (BitVec.ofNat 32 h.1) x.rxNext && !mustWait x (BitVec.ofNat 32 h.1) h.2) with
      | none => s
      | some (q, c) =>
        match runControl (sessPut s i { x with held := x.held.filter (fun h => h.1 != q) }) i { x with held := x.held.filter (fun h => h.1 != q) } c with
        | (s1, .refuse code d) => runHeld (refuseMsg s1 i (BitVec.ofNat 32 q) code d) i n
        | (s1, _) => runHeld s1 i n

/-- The control packet of a sequence number taken in: held until the packets before it have come, at most 64 of them (R351). -/
def takeControlAt (s : State) (i : Nat) (q : Word32) (c : Ctl) : State :=
  match sessGet s i with
  | none => s
  | some x =>
    if 1 ≤ ahead q x.rxNext ∧ 64 ≤ x.held.length then tally s (ztPage (sessXdie i)) 31 1
    else
      let held := (x.held.filter (fun h => below (BitVec.ofNat 32 h.1) q)) ++ (q.toNat, c) ::
        (x.held.filter (fun h => !below (BitVec.ofNat 32 h.1) q))
      owe (runHeld (sessPut s i { markRx x q with held := held }) i (held.length + 1)) i

/-- A control packet taken in. -/
def takeControl (s : State) (i : Nat) (k : Pkt) (c : Ctl) : State := takeControlAt s i k.seq c

/-- A bulk, collective or multicast packet taken in as it arrives (R351, R353, R358). -/
def takeBulk (s : State) (i : Nat) (k : Pkt) (f : State → Sess → State × Answer) : State :=
  match sessGet s i with
  | none => s
  | some x =>
    let mark := fun (t : State) => match sessGet t i with | some y => sessPut t i (markRx y k.seq) | none => t
    let done := fun (t : State) => owe (runHeld (mark t) i (x.held.length + 1)) i
    if x.failed.contains k.msg then done s
    else
      match f s x with
      | (s1, .taken) => done s1
      | (_, .hold) => s
      | (s1, .refuse code d) => done (refuseMsg s1 i k.msg code d)

/-- The packets of a session that an acknowledgement covers for the first time (R351). -/
def newlyAcked (x : Sess) (k : Pkt) : List TxPkt :=
  x.tx.filter (fun t => t.gone && !t.sacked &&
    (below t.seq k.ack || (decide (1 ≤ ahead t.seq k.ack) && decide (ahead t.seq k.ack ≤ 64) && k.sack.getLsbD (ahead t.seq k.ack - 1))))

/-- The packets that stay after an acknowledgement: those not below ACK, marked where SACK marks them. -/
def afterAck (x : Sess) (k : Pkt) : List TxPkt :=
  let new := (newlyAcked x k).map (·.seq)
  (x.tx.filter (fun t => !(t.gone && below t.seq k.ack))).map (fun t => if new.contains t.seq then { t with sacked := true } else t)

/-- What it means that every packet of an outbound message is acknowledged. -/
def messageAcked (s : State) (i : Nat) (x : Sess) (k : TxPkt) : State :=
  let s1 := match k.body with
    | .bulkWrite _ _ _ _ _ _ _ => mapWaits s (waitEnds i k.msg (.data []))
    | .bulkRdata _ _ _ _ _ _ =>
      match sessGet s i with | some y => sessPut s i { y with reads := y.reads.filter (fun r => r.2 != k.msg) } | none => s
    | _ => s
  if x.role = .peer then resAcked (collAcked s1 i x.partition k.msg) i x.partition k.msg else s1

/-- The messages of which a packet was acknowledged now and none is left. -/
def messagesDone (new left : List TxPkt) : List TxPkt :=
  new.foldl (fun l k => if left.any (fun t => t.msg == k.msg && !t.sacked) || l.any (fun d => d.msg == k.msg) then l else l ++ [k]) []

/-- The packets that SACK shows lost: three higher ones are acknowledged, and none was sent again within a round trip (R352). -/
def lostPackets (now : Nat) (x : Sess) : List TxPkt :=
  x.tx.filter (fun k => k.gone && !k.sacked && decide (3 ≤ (x.tx.filter (fun t => t.sacked && below k.seq t.seq)).length) &&
    (k.retx == 0 || decide (k.sentAt + x.srtt ≤ now)))

/-- The acknowledgement fields of an authenticated packet (R351-R354). -/
def takeAck (s : State) (i : Nat) (k : Pkt) : State :=
  match sessGet s i with
  | none => s
  | some x =>
    let new := newlyAcked x k
    let left := afterAck x k
    if new = [] then pump (sessPut s i { x with tx := left }) i
    else
      let pg := ztPage (sessXdie i)
      let n := new.foldl (fun a t => a + t.bytes) 0
      let rtt := (s.now + 2 ^ 32 - k.tsEcho.toNat) % 2 ^ 32
      let u := onAck s i (measured s i { x with tx := left } rtt) n (if k.ece then n else 0) rtt
      let s1 := sessPut s i u.1
      let s2 := match u.2 with | some c => tally s1 pg c 1 | none => s1
      let s3 := if new.any (fun t => t.retx == 0) then tally s2 pg (44 + histBin 256 rtt) 1 else s2
      let s4 := (messagesDone new left).foldl (fun t m => messageAcked t i x m) s3
      let s5 := mcAckIn s4 i
      let s6 := match sessGet s5 i with
        | some y => (lostPackets s5.now y).foldl (fun t p => resend t i p 26) s5
        | none => s5
      pump (runHeld s6 i 65) i

/-- An initiating session whose SC_CONFIRM is acknowledged is OPEN (R343, R344). -/
def openIfConfirmed (s : State) (i : Nat) (x : Sess) (k : Pkt) : State :=
  if x.phase = .initiating ∧ x.txNext ≠ 1 ∧ below 1 k.ack = true then openSession s i else s

/-- What an authentic packet that is discarded brings up to date: its session is not idle (R340, R349, R351). -/
def noteSeen (s : State) (i : Nat) (x : Sess) (k : Pkt) : State :=
  sessPut s i { x with pnRx := max x.pnRx k.pn.toNat, lastRx := s.now, tsLast := k.ts, ceSeen := x.ceSeen || k.ce }

/-- What every authentic packet that is taken brings up to date, counted by its type (R340, R349, R351, R529). -/
def noteRx (s : State) (i : Nat) (x : Sess) (k : Pkt) (ty : Kind) : State :=
  tally (noteSeen s i x k)
    (ztPage (sessXdie i)) (13 + kindIndex ty) 1

/-- Whether a session takes a packet of a kind in its phase: one that opens takes session control alone (R344). -/
def phaseTakes (x : Sess) (ty : Kind) : Bool :=
  match x.phase, ty with
  | .opened, _ => true
  | .opening, .sc => true
  | .initiating, .sc => true
  | _, _ => false

/-- Where the header of a packet, its type header or its payload holds a reserved encoding (R18, R340): VERSION, FLAGS, TCLASS or LENGTH
by its byte offset, or what the type's format has reserved. -/
def reservedAt (k : Pkt) : Option Nat :=
  if k.version ≠ 0x10 then some 0
  else if k.flags.getLsbD 7 then some 2
  else if 4 ≤ k.tclass.toNat then some 3
  else if 8192 < k.length.toNat then some 6
  else k.reserved

/-- Whether a TYPE is reserved (R342). -/
def typeReserved (ty : Nat) : Bool := ty == 0 || ty == 0x0D || ty == 0x0E || decide (0x0F < ty)

/-- The sequenced part of a packet: duplicates, numbers beyond what SACK can mark, kinds that the binding does not carry, reserved
encodings, then its own effect (R18, R347, R351; notes/assumptions/46, 140). -/
def sequenced (s : State) (i : Nat) (k : Pkt) (ty : Kind) (f : State → State) : State :=
  match sessGet s i with
  | none => s
  | some x =>
    let refuse := fun (code d : Nat) =>
      if isControl ty then takeControl s i k (.refuse code d) else takeBulk s i k (fun t _ => (t, .refuse code d))
    if ty = .ack then s
    else if duplicate x k.seq then sendAck (tally s (ztPage (sessXdie i)) 28 1) i
    else if 64 < ahead k.seq x.rxNext then s
    else if carries x.role ty = false then refuse 1 0
    else
      match reservedAt k with
      | some d => refuse 6 d
      | none => f s

/-- The length of a frame received, FCS included, by what its packet carries (R338, R341, R342). -/
def frameLength (s : State) (k : Pkt) (x : Sess) (crc : Bool) : Nat :=
  let th := if 4 ≤ k.type.toNat ∧ k.type.toNat ≤ 0x0A ∧ k.type.toNat ≠ 7 ∧ k.type.toNat ≠ 8 then 16 else 0
  14 + 4 * (rd s (portPage k.port.xdie.val k.port.port.val) fVLAN / 4096) + (if isV4 (padTo 16 x.address) then 20 else 40) + 8 + 48 + th +
    k.length.toNat + 4 * b2n crc + 16 + 4

/-- What the port counts of a Zazel packet (R529): frames and bytes of its class, and CE marks. -/
def countFrame (s : State) (k : Pkt) (x : Sess) (crc : Bool) : State :=
  let pg := portPage k.port.xdie.val k.port.port.val
  let s1 := tally (tally s pg (68 + k.tclass.toNat % 4) 1) pg (76 + k.tclass.toNat % 4) (frameLength s k x crc)
  if k.ce then tally s1 pg 98 1 else s1

/-- An authentic packet of a kind the module knows: what every one brings up to date, its own effect, and its acknowledgements. One
with a reserved encoding in its header acknowledges nothing. -/
def takePacket (s : State) (i : Nat) (x : Sess) (k : Pkt) (ty : Kind) (f : State → State) : State :=
  let s1 := openIfConfirmed (noteRx s i x k ty) i x k
  let s2 := match sessGet s1 i with
    | some y => if phaseTakes y ty then sequenced s1 i k ty f else s1
    | none => s1
  if reservedAt k = none then takeAck s2 i k else s2

/-- A packet received on a session (R337, R338, R340-R354): `crc` is what its CRC-32C covers, where its type has one; `f` its effect once
it is authentic, new and of a kind the session carries. A reserved TYPE is answered with STATUS ENCODING (R342); a REG_RESP is of a type
that no binding carries, and an EVENT is discarded (R347). -/
def receive (s : State) (k : Pkt) (ty : Kind) (crc : Option (List Byte)) (f : State → State) : State :=
  let i := k.session.toNat
  match sessGet s i with
  | none => s
  | some x =>
    let pg := ztPage (sessXdie i)
    let s0 := countFrame s k x crc.isSome
    if accepts s k.port = false ∨ k.port.xdie.val ≠ sessXdie i then s
    else if k.authentic = false then authFail s0 i x
    else if 2 ^ 48 ≤ k.pn.toNat + 1 then closeOut s0 i 5
    else if typeReserved k.type.toNat then sendStatus (noteSeen s0 i x k) i k.msg 6 1
    else if k.type = 0x02 then takePacket s0 i x k .regResp f
    else if k.type = 0x08 then noteSeen s0 i x k
    else if isData ty = true ∧ x.role ≠ .administrator ∧ rd s pg (fENC x.partition) = 1 ∧ k.enc = false then noteSeen s0 i x k
    else if (match crc with | some bs => crc32c bs != k.crc.toNat | none => false) then tally (noteSeen s0 i x k) pg 30 1
    else takePacket s0 i x k ty f

/-- Session i of a packet. -/
def pktSess (k : Pkt) : Nat := k.session.toNat

/-- A received collective segment: its payload of eight bytes and blocks (R389, R529). -/
def receiveSeg (s : State) (k : Pkt) (a b : List Byte) (bs : List Byte) (f : State → Sess → State × Answer) : State :=
  receive s k .collSeg (some (a ++ b ++ bs)) (fun t =>
    takeBulk t (pktSess k) k (fun u x =>
      let pg := xPage (sessXdie (pktSess k)) 0x0A
      f (tally (tally u pg 1 1) pg 13 (8 + bs.length)) x))

/-- MCAST_SEG (R360, R362, R364): an unknown group is a GROUP field that names nothing. -/
def takeStream (s : State) (i : Nat) (x : Sess) (k : Pkt) (group off : Nat) (bs : List Byte) : State × Answer :=
  match contextCheck s i x k.epoch.toNat with
  | .taken =>
    match mcFind s (sessXdie i) group with
    | none => (s, .refuse 6 0)
    | some (n, m) =>
      if m.partition ≠ x.partition then (s, .refuse 6 0)
      else if m.len < off + bs.length then (s, .refuse 6 8)
      else
        match mcStore s n m off bs with
        | (s1, none) => (s1, .taken)
        | (s1, some (va, e)) => bulkError s1 i x.partition va e
  | a => withStale s i x a

/-- DOORBELL (R356). -/
def execDoorbell (pkt : Pkt) (queueId : Half) (tail : Word32) (s : State) : Host.Outcome State Fault Refusal :=
  .next (alive s (fun t => receive t pkt .doorbell none (fun u => takeControl u (pktSess pkt) pkt (.doorbell queueId tail pkt.epoch))))
/-- BULK_WRITE (R357). -/
def execBulkWrite (pkt : Pkt) (addr : Word64) (msgLen offset : Word32) (payload : List Byte) (s : State) : Host.Outcome State Fault Refusal :=
  .next (alive s (fun t => receive t pkt .bulkWrite (some payload) (fun u => takeBulk u (pktSess pkt) pkt (fun v x =>
    takeWrite v (pktSess pkt) x pkt addr.toNat msgLen.toNat offset.toNat payload))))
/-- BULK_READ (R357). -/
def execBulkRead (pkt : Pkt) (addr : Word64) (len rtag : Word32) (s : State) : Host.Outcome State Fault Refusal :=
  .next (alive s (fun t => receive t pkt .bulkRead none (fun u => takeBulk u (pktSess pkt) pkt (fun v x =>
    takeRead v (pktSess pkt) x pkt addr.toNat len.toNat rtag.toNat))))
/-- BULK_RDATA (R357). -/
def execBulkRdata (pkt : Pkt) (rtag offset : Word32) (payload : List Byte) (s : State) : Host.Outcome State Fault Refusal :=
  .next (alive s (fun t => receive t pkt .bulkRdata (some payload) (fun u => takeBulk u (pktSess pkt) pkt (fun v x =>
    takeData v (pktSess pkt) x rtag.toNat offset.toNat payload))))
/-- STATUS (R358). -/
def execStatus (pkt : Pkt) (msg : Word32) (code : Byte) (detail : Word64) (s : State) : Host.Outcome State Fault Refusal :=
  .next (alive s (fun t => receive t pkt .status none (fun u => takeControl u (pktSess pkt) pkt (.status msg code detail))))
/-- BLOCKS (R390). -/
def execBlocks (pkt : Pkt) (hdr : SegHdr) (first : Word32) (nblk : Half) (payload : List Byte) (s : State) : Host.Outcome State Fault Refusal :=
  .next (alive s (fun t => receiveSeg t pkt (leBytes 4 first.toNat) (leBytes 4 nblk.toNat) payload (fun u x =>
    takeBlocks u (pktSess pkt) x.partition pkt hdr first.toNat nblk.toNat payload)))
/-- COMBINE_UP (R393). -/
def execCombineUp (pkt : Pkt) (hdr : SegHdr) (offset : Word32) (payload : List Byte) (s : State) : Host.Outcome State Fault Refusal :=
  .next (alive s (fun t => receiveSeg t pkt (leBytes 4 offset.toNat) (leBytes 4 0) payload (fun u x =>
    takeCombine u (pktSess pkt) x.partition 2 pkt hdr offset.toNat payload)))
/-- COMBINE_DOWN (R394). -/
def execCombineDown (pkt : Pkt) (hdr : SegHdr) (offset : Word32) (payload : List Byte) (s : State) : Host.Outcome State Fault Refusal :=
  .next (alive s (fun t => receiveSeg t pkt (leBytes 4 offset.toNat) (leBytes 4 0) payload (fun u x =>
    takeCombine u (pktSess pkt) x.partition 3 pkt hdr offset.toNat payload)))
/-- CREDIT (R397). -/
def execCredit (pkt : Pkt) (hdr : SegHdr) (slot : Word32) (s : State) : Host.Outcome State Fault Refusal :=
  .next (alive s (fun t => receiveSeg t pkt (leBytes 4 slot.toNat) (leBytes 4 0) [] (fun u x =>
    takeCredit u (pktSess pkt) x.partition pkt hdr)))
/-- MCAST_SEG (R364). -/
def execMcastSeg (pkt : Pkt) (group : Half) (offset : Word64) (payload : List Byte) (s : State) : Host.Outcome State Fault Refusal :=
  .next (alive s (fun t => receive t pkt .mcastSeg (some payload) (fun u => takeBulk u (pktSess pkt) pkt (fun v x =>
    takeStream v (pktSess pkt) x pkt group.toNat offset.toNat payload))))
/-- MCAST_CTRL with an operation received (R366). -/
def receiveMcast (s : State) (pkt : Pkt) (op : Nat) (offset : Word64) : State :=
  receive s pkt (.mcastCtrl op) none (fun u => takeControl u (pktSess pkt) pkt (.mcast op offset))
/-- PUBLISH (R364). -/
def execPublish (pkt : Pkt) (offset : Word64) (s : State) : Host.Outcome State Fault Refusal := .next (alive s (fun t => receiveMcast t pkt 1 offset))
/-- DETACH (R365). -/
def execDetach (pkt : Pkt) (offset : Word64) (s : State) : Host.Outcome State Fault Refusal := .next (alive s (fun t => receiveMcast t pkt 2 offset))
/-- JOIN (R366). -/
def execJoin (pkt : Pkt) (offset : Word64) (s : State) : Host.Outcome State Fault Refusal := .next (alive s (fun t => receiveMcast t pkt 3 offset))
/-- ACCEPT (R366). -/
def execAccept (pkt : Pkt) (offset : Word64) (s : State) : Host.Outcome State Fault Refusal := .next (alive s (fun t => receiveMcast t pkt 4 offset))
/-- REFUSE (R366). -/
def execRefuse (pkt : Pkt) (offset : Word64) (s : State) : Host.Outcome State Fault Refusal := .next (alive s (fun t => receiveMcast t pkt 5 offset))
/-- SC_CONFIRM (R344). -/
def execScConfirm (pkt : Pkt) (signature : List Byte) (s : State) : Host.Outcome State Fault Refusal :=
  .next (alive s (fun t => receive t pkt .sc none (fun u => takeControl u (pktSess pkt) pkt (.scConfirm signature))))
/-- SC_CLOSE (R349). -/
def execScClose (pkt : Pkt) (cause : Byte) (s : State) : Host.Outcome State Fault Refusal :=
  .next (alive s (fun t => receive t pkt .sc none (fun u => takeControl u (pktSess pkt) pkt (.scClose cause))))
/-- ACK (R351). -/
def execAck (pkt : Pkt) (s : State) : Host.Outcome State Fault Refusal := .next (alive s (fun t => receive t pkt .ack none id))

end Sys2Proof.Machine
end

