-- ==== Sys2Proof/Machine/Messages.lean ====
section
/-! DEFINITION. Register messages (R56-R61, R355): READ, WRITE and WRITE_MASKED, operation by operation, and the answer of a message. -/

namespace Sys2Proof.Machine

/-- The key under which a sender's message is kept. -/
def senderKey (src : Source) : Nat := match src with | .curator => 0 | .session i => i.toNat + 1

/-- A register message begun on session i (R58, R59, R353, R355): its operations execute as they come where every message before it has
executed, and wait otherwise. COUNT outside 1 to 64, or a reserved byte behind it, refuses the message with STATUS ENCODING (R18;
notes/assumptions/132). -/
def beginReg (s : State) (i : Nat) (k : Pkt) (head : Nat) : State :=
  match sessGet s i with
  | none => s
  | some x =>
    if head % 256 = 0 ∨ 64 < head % 256 then takeControl s i k (.refuse 6 0)
    else if 256 ≤ head then takeControl s i k (.refuse 6 1)
    else
      let now := k.seq = x.rxNext ∧ mustWait x k.seq (.reg false []) = false
      { s with msgs := tins s.msgs (i + 1) ⟨false, [], k.seq, if now then none else some []⟩ }

/-- The first operation of a message: whatever the sender had begun is forgotten. -/
def beginMsg (s : State) (src : Source) (pos : MsgPos) : State :=
  let s1 := { s with msgs := tdel s.msgs (senderKey src) }
  match src, pos.pkt with
  | .curator, _ => { s1 with msgs := tins s1.msgs 0 ⟨false, [], 0, none⟩ }
  | .session i, some k =>
    if k.session = i then receive s1 k .reg none (fun u => beginReg u i.toNat k pos.head.toNat) else s1
  | .session _, none => s1

/-- The REG packet of a sequence number counts as received, and the control packets behind it may execute (R351, R353). -/
def endReg (s : State) (i : Nat) (q : Word32) (answer : Out) : State :=
  match sessGet s i with
  | none => s
  | some x =>
    let s1 := send (sessPut s i { markRx x q with sinceAck := x.sinceAck + 1, owedAt := if x.sinceAck = 0 then s.now else x.owedAt }) i answer
    let s2 := match sessGet s1 i with
      | some y => if 2 ≤ y.sinceAck then sendAck s1 i else s1
      | none => s1
    runHeld s2 i (x.held.length + 1)

/-- The message's answer: one REG_RESP, or the answer to the Curator (R355). -/
def endMsg (s : State) (src : Source) (q : Word32) (results : List (Nat × Word64)) : State :=
  let s1 := { s with msgs := tdel s.msgs (senderKey src) }
  match src with
  | .curator => emit s1 (.curatorResp results)
  | .session i => endReg s1 i.toNat q (.regResp i results)

/-- One operation of a message under way (R58, R60): SKIPPED after a failure where STOP_ON_ERROR is set. -/
def runOp (s : State) (src : Source) (pos : MsgPos) (w : Princ) (m : MsgProgress) (op : State → Princ → State × Nat × Word64) : State :=
  let r := if m.failed = true ∧ pos.stopOnError = true then (s, rSKIPPED, 0) else op s w
  let results := r.2 :: m.results
  if pos.last then endMsg r.1 src m.seq results.reverse
  else { r.1 with msgs := tins r.1.msgs (senderKey src) { m with failed := m.failed || opFailed r.2.1, results := results } }

/-- An operation of a message that waits for its turn kept with it; with the last one the message is held (R59, R351). -/
def keepOp (s : State) (src : Source) (pos : MsgPos) (m : MsgProgress) (l : List RegOpd) (o : RegOpd) : State :=
  match src with
  | .curator => s
  | .session i =>
    if pos.last then takeControlAt { s with msgs := tdel s.msgs (senderKey src) } i.toNat m.seq (.reg pos.stopOnError (o :: l).reverse)
    else { s with msgs := tins s.msgs (senderKey src) { m with early := some (o :: l) } }

/-- A register operation at its place in its message. `code` is its OP; with any other value there, or a reserved byte behind it, the
operation answers ENCODING, changes nothing and is not recorded (R60, R355). An operation that belongs to no message under way, or comes
after 64 others (R58), has no effect. -/
def regOp (s : State) (src : Source) (pos : MsgPos) (code : Nat) (o : RegOpd) (op : State → Princ → State × Nat × Word64) : State :=
  let s0 := if pos.first then beginMsg s src pos else s
  match tfind s0.msgs (senderKey src), principalOf s0 src with
  | some m, some w =>
    match m.early with
    | some l => if 64 ≤ l.length then s0 else keepOp s0 src pos m l o
    | none =>
      if 64 ≤ m.results.length ∧ src ≠ .curator then s0
      else runOp s0 src pos w m (fun t p => if pos.op.toNat = code then op t p else (t, rENCODING, 0))
  | _, _ => s0

/-- READ (R58). -/
def execRead (src : Source) (addr : Word64) (pos : MsgPos) (s : State) : Host.Outcome State Fault Refusal :=
  .next (alive s (fun t => regOp t src pos 0 ⟨pos.op, addr, 0, 0⟩ (fun u w => doRead u w addr.toNat)))
/-- WRITE (R58). -/
def execWrite (src : Source) (addr data : Word64) (pos : MsgPos) (s : State) : Host.Outcome State Fault Refusal :=
  .next (alive s (fun t => regOp t src pos 1 ⟨pos.op, addr, data, 0⟩ (fun u w => doWrite u w addr.toNat data.toNat allBits)))
/-- WRITE_MASKED (R58). -/
def execWriteMasked (src : Source) (addr data mask : Word64) (pos : MsgPos) (s : State) : Host.Outcome State Fault Refusal :=
  .next (alive s (fun t => regOp t src pos 2 ⟨pos.op, addr, data, mask⟩ (fun u w => doWrite u w addr.toNat data.toNat mask.toNat)))

end Sys2Proof.Machine
end

