-- ==== Sys2Proof/Machine/PartRows.lean ====
section
/-! DEFINITION. The rows of the partition requests (R299, R460): each carries out the request that PART_REQ holds, and the standby core
reads back what it changed before it is reported. -/

namespace Sys2Proof.Machine

/-- Whether a register holds an item that the standby core reads back: BLK_OWNER, BLK_EPOCH, or the OWNER of a vector (R460). -/
def isBackItem (a : Nat) : Bool :=
  a % 4096 == 0x050 || a % 4096 == 0x048 || (decide (0x40 ≤ a / 4096 % 512) && decide (a / 4096 % 512 < 0x80) && a % 16 == 0)

/-- Whether what the standby core reads back disagrees with the request: a changed item does not read as it was written, because the
storage of its register is bad (R460; the lists and the owner table are written as the request says in every state of this model). -/
def readBackFails (s t : State) : Bool := s.regBad.any (fun a => isBackItem a && regGet s a != regGet t a)

/-- Whether a synced standby runs beside the active core (R460). -/
def bothRun (s : State) : Bool :=
  s.boot.active.isSome && (List.range 2).any (fun c => rd s (curPage c) fROLE == 2 && rd s (curPage c) fSYNCED == 1)

/-- A request carried out and read back (R460): on a disagreement the standby takes over as on expiry of the active core's watchdog, and
executes the request again from its start, writing the items anew; BUSY stays 1 until then. -/
def readBack (f : State → Nat → State) (s : State) (p : Nat) : State :=
  let t := f s p
  if bothRun s = false ∨ rd t rootPage fPBUSY = 1 ∨ readBackFails s t = false then t
  else f (takeover (activeExpires { s with regBad := s.regBad.filter (fun a => !isBackItem a) } (s.boot.active.getD 0))) p

/-- A request row: the request that PART_REQ holds, when BUSY is 1 and its OP is the row's. A reserved OP, of which no row is the
request, ends with ENCODING at any row (R297, R299, R300). The standby core reads back what it changed (R460). -/
def partRow (op : Nat) (f : State → Nat → State) (s : State) : Host.Outcome State Fault Refusal :=
  .next (alive s (fun t =>
    let asked := rq t fPOP
    if rd t rootPage fPBUSY ≠ 1 then t
    else if asked = 0 ∨ 9 < asked then requestEnd t .encoding
    else if asked = op then readBack f t (rq t fPPART) else t))

/-- CREATE (R299). -/
def execCreate (s : State) : Host.Outcome State Fault Refusal := partRow 1 partCreate s
/-- GROW (R299). -/
def execGrow (s : State) : Host.Outcome State Fault Refusal := partRow 2 partGrow s
/-- SHRINK (R299). -/
def execShrink (s : State) : Host.Outcome State Fault Refusal := partRow 3 partShrink s
/-- START (R299). -/
def execStart (s : State) : Host.Outcome State Fault Refusal := partRow 4 partStart s
/-- STOP (R299). -/
def execStop (s : State) : Host.Outcome State Fault Refusal := partRow 5 partStop s
/-- RESET (R299). -/
def execReset (s : State) : Host.Outcome State Fault Refusal := partRow 6 partReset s
/-- DESTROY (R299). -/
def execDestroy (s : State) : Host.Outcome State Fault Refusal := partRow 7 partDestroy s
/-- ADMIT (R305). -/
def execAdmitPart (s : State) : Host.Outcome State Fault Refusal := partRow 8 partAdmit s
/-- SET_L1 (R299). -/
def execSetL1 (s : State) : Host.Outcome State Fault Refusal := partRow 9 partSetL1 s

end Sys2Proof.Machine
end

