-- ==== Sys2Proof/Machine/Requests.lean ====
section
/-! DEFINITION. The rows that are one register write each: block control, low power, events, faults, queues, rings, holds, checks, scans,
observation; and the mailbox request CURWRITE. Each is a message of one operation (R58), checked and carried out as any write is. -/

namespace Sys2Proof.Machine

/-- A message of one operation from a session, the next in its sequence (R58, R59): it waits for the messages before it, and on a
module-peer session it is answered with STATUS DENIED (R347). -/
def soleOp (s : State) (i : Half) (op : State → Princ → State × Nat × Word64) : State :=
  match sessGet s i.toNat with
  | none => s
  | some x =>
    if x.phase ≠ .opened ∨ x.reads ≠ [] then s
    else
      let s1 := tally (sessPut s i.toNat { x with lastRx := s.now }) (ztPage (sessXdie i.toNat)) 13 1
      match principalOf s (.session i) with
      | none => takeControlAt s1 i.toNat x.rxNext (.refuse 1 0)
      | some w => let r := op s1 w; endReg r.1 i.toNat x.rxNext (.regResp i [r.2])

/-- A register operation alone in its message (R58; notes/assumptions/78). -/
def askOp (s : State) (src : Source) (op : State → Princ → State × Nat × Word64) : State :=
  match src with
  | .curator => let r := op s .curator; emit r.1 (.curatorResp [r.2])
  | .session i => soleOp s i op

/-- A message of one WRITE of a whole register (R58). -/
def askWord (s : State) (src : Source) (addr : Nat) (data : Word64) : State :=
  askOp s src (fun u w => doWrite u w addr data.toNat allBits)

/-- A message of one WRITE_MASKED of a field (R58). -/
def askField (s : State) (src : Source) (pg : Nat) (f : FRef) (v : Nat) : State :=
  askOp s src (fun u w => doWrite u w (pg * 4096 + f.off) (v * 2 ^ f.lo) ((2 ^ f.w - 1) * 2 ^ f.lo))

/-- BLK_CTRL.CLEAR_FAULT (R47). -/
def fCLEARFAULT : FRef := ⟨0x010, 1, 1⟩
/-- HBM_RETIRE.START with CH (R263). -/
def fRETIRE : FRef := ⟨0x118, 0, 9⟩
/-- GQq_CTRL.RESUME (R330). -/
def fQRESUME (q : Nat) : FRef := ⟨0x228 + 0x40 * q, 0, 1⟩
/-- GQq_CTRL.FLUSH (R330). -/
def fQFLUSH (q : Nat) : FRef := ⟨0x228 + 0x40 * q, 1, 1⟩
/-- EGL_CFG.LOCK (R468). -/
def fEGLLOCK : FRef := ⟨0x150, 32, 1⟩
/-- RES_Ap.HOLD (R431). -/
def fHOLDREQ (p : Nat) : FRef := ⟨0x200 + 24 * p, 49, 1⟩
/-- RMON_PEAK.CLEAR (R494). -/
def fPEAKCLEAR : FRef := ⟨0x108, 63, 1⟩
/-- LDS_CFGj.EN (R543). -/
def fSTREAMEN (j : Nat) : FRef := ⟨0x200 + 0x20 * j, 0, 1⟩

/-- REQUEST_RUNNING (R62). -/
def execRequestRunning (src : Source) (page : BitVec 12) (s : State) : Host.Outcome State Fault Refusal :=
  .next (alive s (fun t => askField t src page.toNat fRUN 1))
/-- REQUEST_STOPPED (R62). -/
def execRequestStopped (src : Source) (page : BitVec 12) (s : State) : Host.Outcome State Fault Refusal :=
  .next (alive s (fun t => askField t src page.toNat fRUN 0))
/-- CLEAR_FAULT (R62). -/
def execClearFault (src : Source) (page : BitVec 12) (s : State) : Host.Outcome State Fault Refusal :=
  .next (alive s (fun t => askField t src page.toNat fCLEARFAULT 1))
/-- NAP_ENTRY (R48, R488). -/
def execNapEntry (src : Source) (g : GalRef) (s : State) : Host.Outcome State Fault Refusal :=
  .next (alive s (fun t => askField t src (galRefPage g) fLOWPWR 1))
/-- SLEEP_ENTRY (R48, R488). -/
def execSleepEntry (src : Source) (g : GalRef) (s : State) : Host.Outcome State Fault Refusal :=
  .next (alive s (fun t => askField t src (galRefPage g) fLOWPWR 2))
/-- LOW_POWER_EXIT (R48, R488). -/
def execLowPowerExit (src : Source) (g : GalRef) (s : State) : Host.Outcome State Fault Refusal :=
  .next (alive s (fun t => askField t src (galRefPage g) fLOWPWR 0))
/-- EVT_EN_WRITE (R50, R66). -/
def execEvtEnWrite (src : Source) (page : BitVec 12) (data : Word64) (s : State) : Host.Outcome State Fault Refusal :=
  .next (alive s (fun t => askWord t src (page.toNat * 4096 + 0x028) data))
/-- VEC_DEST_WRITE (R71, R72). -/
def execVecDestWrite (src : Source) (vec : Fin 4096) (data : Word64) (s : State) : Host.Outcome State Fault Refusal :=
  .next (alive s (fun t => askWord t src (vecAddr vec.val) data))
/-- BAY_CLEAR_FAULT (R145). -/
def execBayClearFault (src : Source) (g : Fin 256) (mask : BitVec 4) (s : State) : Host.Outcome State Fault Refusal :=
  .next (alive s (fun t => askField t src (galPage g.val + 1) ⟨0x110, 0, 4⟩ mask.toNat))
/-- SPARE_MAPPING (R154). -/
def execSpareMapping (die : Fin 4) (data : Word64) (s : State) : Host.Outcome State Fault Refusal :=
  .next (alive s (fun t => askWord t .curator (cPage die.val 0x100 * 4096 + 0x100) data))
/-- MOVER_RESUME (R258). -/
def execMoverResume (src : Source) (g : Fin 256) (m : Fin 2) (s : State) : Host.Outcome State Fault Refusal :=
  .next (alive s (fun t => askField t src (movPage g.val) ⟨0x118 + 8 * m.val, 0, 1⟩ 1))
/-- MOVER_ABORT (R259). -/
def execMoverAbort (src : Source) (g : Fin 256) (m : Fin 2) (s : State) : Host.Outcome State Fault Refusal :=
  .next (alive s (fun t => askField t src (movPage g.val) ⟨0x118 + 8 * m.val, 1, 1⟩ 1))
/-- CHANNEL_RETIRE (R249). -/
def execChannelRetire (src : Source) (stack : Nat) (channel : Fin 32) (s : State) : Host.Outcome State Fault Refusal :=
  if stack < stackCount s.code then
    .next (alive s (fun t => askOp t src (fun u w =>
      doWrite u w (hbmPage t.code stack * 4096 + 0x118) (channel.val + 0x100) 0x11F)))
  else .refused .noSuchUnit
/-- TAIL_WRITE (R307). -/
def execTailWrite (src : Source) (g : Fin 256) (q : Fin 4) (tail : Word32) (s : State) : Host.Outcome State Fault Refusal :=
  .next (alive s (fun t => askWord t src (galPage g.val * 4096 + 0x210 + 0x40 * q.val) (tail.setWidth 64)))
/-- QUEUE_RESUME (R317). -/
def execQueueResume (src : Source) (g : Fin 256) (q : Fin 4) (s : State) : Host.Outcome State Fault Refusal :=
  .next (alive s (fun t => askField t src (galPage g.val) (fQRESUME q.val) 1))
/-- QUEUE_FLUSH (R317). -/
def execQueueFlush (src : Source) (g : Fin 256) (q : Fin 4) (s : State) : Host.Outcome State Fault Refusal :=
  .next (alive s (fun t => askField t src (galPage g.val) (fQFLUSH q.val) 1))
/-- EGL_LOCK (R458). -/
def execEglLock (src : Source) (xdie : Fin 6) (s : State) : Host.Outcome State Fault Refusal :=
  .next (alive s (fun t => askField t src (scanPage xdie.val) fEGLLOCK 1))
/-- RING_OPEN (R369). -/
def execRingOpen (src : Source) (ring : Ring) (s : State) : Host.Outcome State Fault Refusal :=
  .next (alive s (fun t => askField t src (xPage 0 0) (fROPEN ring) 1))
/-- RING_CLOSE (R369). -/
def execRingClose (src : Source) (ring : Ring) (s : State) : Host.Outcome State Fault Refusal :=
  .next (alive s (fun t => askField t src (xPage 0 0) (fROPEN ring) 0))
/-- HOLD (R415). -/
def execHold (src : Source) (p : Fin 64) (value : Bool) (s : State) : Host.Outcome State Fault Refusal :=
  .next (alive s (fun t => askField t src (resPage t) (fHOLDREQ p.val) (b2n value)))
/-- CV_START (R451). -/
def execCvStart (src : Source) (xdie : Fin 6) (u : Fin 8) (s : State) : Host.Outcome State Fault Refusal :=
  .next (alive s (fun t => askField t src (cvPage xdie.val) ⟨0x128 + 0x40 * u.val, 0, 1⟩ 1))
/-- CV_ABORT (R466). -/
def execCvAbort (src : Source) (xdie : Fin 6) (u : Fin 8) (s : State) : Host.Outcome State Fault Refusal :=
  .next (alive s (fun t => askField t src (cvPage xdie.val) ⟨0x128 + 0x40 * u.val, 1, 1⟩ 1))
/-- SCAN_START (R453). -/
def execScanStart (src : Source) (xdie : Fin 6) (s : State) : Host.Outcome State Fault Refusal :=
  .next (alive s (fun t => askField t src (scanPage xdie.val) ⟨0x118, 0, 1⟩ 1))
/-- SCAN_ABORT (R468). -/
def execScanAbort (src : Source) (xdie : Fin 6) (s : State) : Host.Outcome State Fault Refusal :=
  .next (alive s (fun t => askField t src (scanPage xdie.val) ⟨0x118, 1, 1⟩ 1))
/-- IDLE_REQUEST (R490). -/
def execIdleRequest (src : Source) (value : Bool) (s : State) : Host.Outcome State Fault Refusal :=
  .next (alive s (fun t => askField t src pwrPage ⟨0x110, 0, 1⟩ (b2n value)))
/-- RMON_PEAK_CLEAR (R494). -/
def execRmonPeakClear (src : Source) (die : Fin 10) (s : State) : Host.Outcome State Fault Refusal :=
  .next (alive s (fun t => askField t src (monitorPage die.val) fPEAKCLEAR 1))
/-- LDG_GRANT_WRITE (R526). -/
def execLdgGrantWrite (src : Source) (data : Word64) (s : State) : Host.Outcome State Fault Refusal :=
  .next (alive s (fun t => askWord t src (dumpPage * 4096 + 0x100) data))
/-- STREAM_ENABLE (R531, R534). -/
def execStreamEnable (src : Source) (j : Fin 16) (s : State) : Host.Outcome State Fault Refusal :=
  .next (alive s (fun t => askField t src dumpPage (fSTREAMEN j.val) 1))
/-- WATCH_ARM (R540). -/
def execWatchArm (src : Source) (g : Fin 256) (w : Fin 4) (s : State) : Host.Outcome State Fault Refusal :=
  .next (alive s (fun t => askField t src (galPage g.val) (fWARM w.val) 1))
/-- OBS_UNLOCK_NEW (R546). -/
def execObsUnlockNew (src : Source) (s : State) : Host.Outcome State Fault Refusal :=
  .next (alive s (fun t => askField t src muxPage ⟨0x220, 0, 1⟩ 1))
/-- OBS_UNLOCK_CHECK (R546). -/
def execObsUnlockCheck (src : Source) (s : State) : Host.Outcome State Fault Refusal :=
  .next (alive s (fun t => askField t src muxPage ⟨0x220, 1, 1⟩ 1))
/-- OBS_UNLOCK_LOCK (R546). -/
def execObsUnlockLock (src : Source) (s : State) : Host.Outcome State Fault Refusal :=
  .next (alive s (fun t => askField t src muxPage ⟨0x220, 3, 1⟩ 1))
/-- OUT_NOW (R547). -/
def execOutNow (src : Source) (s : State) : Host.Outcome State Fault Refusal :=
  .next (alive s (fun t => askField t src muxPage ⟨0x1A0, 0, 1⟩ 1))
/-- TRIG_RESTART (R547). -/
def execTrigRestart (src : Source) (s : State) : Host.Outcome State Fault Refusal :=
  .next (alive s (fun t => askField t src muxPage ⟨0x1A0, 1, 1⟩ 1))

/-- What CURWRITE is refused for (R512): BLK_EPOCH, BLK_OWNER, CEN_CFG.LEAD, OWNER and MODULE of a vector, the sparing map, and the
Curator's own pages. -/
def curwriteDenied (s : State) (addr mask : Nat) : Bool :=
  let off := addr % 4096
  match pageAt s (addr / 4096) with
  | none => false
  | some i =>
    off == 0x048 || off == 0x050 || i.type == .mailbox || i.type == .boot || i.type == .cdieControl ||
      (i.type == .censusKettle && off == 0x100 && bit mask 3) ||
      (isEntry i off && off % 16 == 0 && bits mask 40 7 != 0)

/-- Whether a page holds network settings, which the Curator's record keeps (R497; notes/assumptions/66). -/
def isNetwork (s : State) (pg : Nat) : Bool :=
  match pageAt s pg with
  | some i => i.type == .xdieControl || i.type == .port || i.type == .memoryScan
  | none => false

/-- The mask under which a network setting is kept: all of it but the ring requests, which the journal keeps. -/
def netMask (addr mask : Nat) : Nat := if addr = xPage 0 0 * 4096 + 0x130 then mask - mask % 4 else mask

/-- CURWRITE (R512): a WRITE_MASKED by the Curator, its status the result data. -/
def mailCurwrite (s : State) (b : List Byte) : State × MailEnd :=
  let addr := leAt b 8 8
  let data := leAt b 16 8
  let mask := leAt b 24 8
  if addr < 2 ^ 24 ∧ curwriteDenied s addr mask = true then (s, .done mDENIED [])
  else
    match doWrite s .curator addr data mask with
    | (s1, st, _) =>
      let s2 := if opFailed st = false ∧ isNetwork s (addr / 4096) = true then
          putRecord s1 { s1.boot.rcd with net := s1.boot.rcd.net ++ [(addr, data, netMask addr mask)] }
        else s1
      (s2, .done mDONE (leBytes 1 st))

/-- CURWRITE (R512). -/
def execCurwrite (session : Half) (k : Fin 16) (s : State) : Host.Outcome State Fault Refusal :=
  .next (alive s (fun t => mailRow t session.toNat k.val 0x8 mailCurwrite))

end Sys2Proof.Machine
end

