-- ==== Sys2Proof/Machine/Dispatch.lean ====
section
/-! DEFINITION. The dispatch of a command to its meaning, one arm per row of spec/opcode_table.json. -/

namespace Sys2Proof.Machine

def exec (i : Instr) (s : State) : Host.Outcome State Fault Refusal :=
  match i with
  | .read src addr pos => Sys2Proof.Machine.execRead src addr pos s
  | .write src addr data pos => Sys2Proof.Machine.execWrite src addr data pos s
  | .writeMasked src addr data mask pos => Sys2Proof.Machine.execWriteMasked src addr data mask pos s
  | .requestRunning src page => Sys2Proof.Machine.execRequestRunning src page s
  | .requestStopped src page => Sys2Proof.Machine.execRequestStopped src page s
  | .clearFault src page => Sys2Proof.Machine.execClearFault src page s
  | .napEntry src g => Sys2Proof.Machine.execNapEntry src g s
  | .sleepEntry src g => Sys2Proof.Machine.execSleepEntry src g s
  | .lowPowerExit src g => Sys2Proof.Machine.execLowPowerExit src g s
  | .drainComplete run => Sys2Proof.Machine.execDrainComplete run s
  | .evtEnWrite src page data => Sys2Proof.Machine.execEvtEnWrite src page data s
  | .vecDestWrite src vec data => Sys2Proof.Machine.execVecDestWrite src vec data s
  | .coalUsExpiry vec => Sys2Proof.Machine.execCoalUsExpiry vec s
  | .reloadStart g b => Sys2Proof.Machine.execReloadStart g b s
  | .rowLoadComplete g b row => Sys2Proof.Machine.execRowLoadComplete g b row s
  | .rowEntersPass g b row => Sys2Proof.Machine.execRowEntersPass g b row s
  | .elementEmit g b check => Sys2Proof.Machine.execElementEmit g b check s
  | .passDrained g b check => Sys2Proof.Machine.execPassDrained g b check s
  | .bayDrained g b => Sys2Proof.Machine.execBayDrained g b s
  | .bayClearFault src g mask => Sys2Proof.Machine.execBayClearFault src g mask s
  | .spareMapping die data => Sys2Proof.Machine.execSpareMapping die data s
  | .shadowRecompute g q run => Sys2Proof.Machine.execShadowRecompute g q run s
  | .stepClose p => Sys2Proof.Machine.execStepClose p s
  | .cabinetFillComplete g => Sys2Proof.Machine.execCabinetFillComplete g s
  | .napReadPassComplete g => Sys2Proof.Machine.execNapReadPassComplete g s
  | .moverElement g run => Sys2Proof.Machine.execMoverElement g run s
  | .moverResume src g m => Sys2Proof.Machine.execMoverResume src g m s
  | .moverAbort src g m => Sys2Proof.Machine.execMoverAbort src g m s
  | .hop g => Sys2Proof.Machine.execHop g s
  | .rowRepair stack channel row lastSpare => Sys2Proof.Machine.execRowRepair stack channel row lastSpare s
  | .channelRetire src stack channel => Sys2Proof.Machine.execChannelRetire src stack channel s
  | .retirementCopyComplete stack => Sys2Proof.Machine.execRetirementCopyComplete stack s
  | .escape die network => Sys2Proof.Machine.execEscape die network s
  | .linkErrorLimit die link => Sys2Proof.Machine.execLinkErrorLimit die link s
  | .nop g q => Sys2Proof.Machine.execNop g q s
  | .array g q => Sys2Proof.Machine.execArray g q s
  | .transfer g q => Sys2Proof.Machine.execTransfer g q s
  | .fadd g q => Sys2Proof.Machine.execFadd g q s
  | .fsub g q => Sys2Proof.Machine.execFsub g q s
  | .fmul g q => Sys2Proof.Machine.execFmul g q s
  | .ffma g q => Sys2Proof.Machine.execFfma g q s
  | .fmax g q => Sys2Proof.Machine.execFmax g q s
  | .fmin g q => Sys2Proof.Machine.execFmin g q s
  | .cmpEq g q => Sys2Proof.Machine.execCmpEq g q s
  | .cmpLt g q => Sys2Proof.Machine.execCmpLt g q s
  | .cmpLe g q => Sys2Proof.Machine.execCmpLe g q s
  | .fsqrt g q => Sys2Proof.Machine.execFsqrt g q s
  | .vrecip g q => Sys2Proof.Machine.execVrecip g q s
  | .vrsqrt g q => Sys2Proof.Machine.execVrsqrt g q s
  | .vexp g q => Sys2Proof.Machine.execVexp g q s
  | .vlog g q => Sys2Proof.Machine.execVlog g q s
  | .scale g q => Sys2Proof.Machine.execScale g q s
  | .copy g q => Sys2Proof.Machine.execCopy g q s
  | .sumReduction g q => Sys2Proof.Machine.execSumReduction g q s
  | .maxReduction g q => Sys2Proof.Machine.execMaxReduction g q s
  | .rmsNorm g q => Sys2Proof.Machine.execRmsNorm g q s
  | .layerNorm g q => Sys2Proof.Machine.execLayerNorm g q s
  | .dropout g q => Sys2Proof.Machine.execDropout g q s
  | .activationFunction g q => Sys2Proof.Machine.execActivationFunction g q s
  | .attention g q => Sys2Proof.Machine.execAttention g q s
  | .commit g q => Sys2Proof.Machine.execCommit g q s
  | .sketch g q => Sys2Proof.Machine.execSketch g q s
  | .rotate g q => Sys2Proof.Machine.execRotate g q s
  | .fence g q => Sys2Proof.Machine.execFence g q s
  | .stepEnd g q => Sys2Proof.Machine.execStepEnd g q s
  | .frame g q => Sys2Proof.Machine.execFrame g q s
  | .commandCompletion g q run => Sys2Proof.Machine.execCommandCompletion g q run s
  | .tailWrite src g q tail => Sys2Proof.Machine.execTailWrite src g q tail s
  | .queueResume src g q => Sys2Proof.Machine.execQueueResume src g q s
  | .queueFlush src g q => Sys2Proof.Machine.execQueueFlush src g q s
  | .create => Sys2Proof.Machine.execCreate s
  | .grow => Sys2Proof.Machine.execGrow s
  | .shrink => Sys2Proof.Machine.execShrink s
  | .start => Sys2Proof.Machine.execStart s
  | .stop => Sys2Proof.Machine.execStop s
  | .reset => Sys2Proof.Machine.execReset s
  | .destroy => Sys2Proof.Machine.execDestroy s
  | .admitPart => Sys2Proof.Machine.execAdmitPart s
  | .setL1 => Sys2Proof.Machine.execSetL1 s
  | .commitBegin p work => Sys2Proof.Machine.execCommitBegin p work s
  | .stepBoundary run => Sys2Proof.Machine.execStepBoundary run s
  | .doorbell pkt queueId tail => Sys2Proof.Machine.execDoorbell pkt queueId tail s
  | .bulkWrite pkt addr msgLen offset payload => Sys2Proof.Machine.execBulkWrite pkt addr msgLen offset payload s
  | .bulkRead pkt addr len rtag => Sys2Proof.Machine.execBulkRead pkt addr len rtag s
  | .bulkRdata pkt rtag offset payload => Sys2Proof.Machine.execBulkRdata pkt rtag offset payload s
  | .status pkt msg code detail => Sys2Proof.Machine.execStatus pkt msg code detail s
  | .blocks pkt hdr first nblk payload => Sys2Proof.Machine.execBlocks pkt hdr first nblk payload s
  | .combineUp pkt hdr offset payload => Sys2Proof.Machine.execCombineUp pkt hdr offset payload s
  | .combineDown pkt hdr offset payload => Sys2Proof.Machine.execCombineDown pkt hdr offset payload s
  | .credit pkt hdr slot => Sys2Proof.Machine.execCredit pkt hdr slot s
  | .mcastSeg pkt group offset payload => Sys2Proof.Machine.execMcastSeg pkt group offset payload s
  | .publish pkt offset => Sys2Proof.Machine.execPublish pkt offset s
  | .detach pkt offset => Sys2Proof.Machine.execDetach pkt offset s
  | .join pkt offset => Sys2Proof.Machine.execJoin pkt offset s
  | .accept pkt offset => Sys2Proof.Machine.execAccept pkt offset s
  | .refuse pkt offset => Sys2Proof.Machine.execRefuse pkt offset s
  | .scInit port init => Sys2Proof.Machine.execScInit port init s
  | .scAccept session acc => Sys2Proof.Machine.execScAccept session acc s
  | .scConfirm pkt signature => Sys2Proof.Machine.execScConfirm pkt signature s
  | .scClose pkt cause => Sys2Proof.Machine.execScClose pkt cause s
  | .scConfirmTimeout session => Sys2Proof.Machine.execScConfirmTimeout session s
  | .ack pkt => Sys2Proof.Machine.execAck pkt s
  | .ackTimer session => Sys2Proof.Machine.execAckTimer session s
  | .retransmissionTimeout session => Sys2Proof.Machine.execRetransmissionTimeout session s
  | .idleTimeout session => Sys2Proof.Machine.execIdleTimeout session s
  | .keepalive session => Sys2Proof.Machine.execKeepalive session s
  | .nonZazelFrame port frame => Sys2Proof.Machine.execNonZazelFrame port frame s
  | .linkUp port speed => Sys2Proof.Machine.execLinkUp port speed s
  | .linkDown port => Sys2Proof.Machine.execLinkDown port s
  | .laneSparing port lane => Sys2Proof.Machine.execLaneSparing port lane s
  | .lldpTransmit port => Sys2Proof.Machine.execLldpTransmit port s
  | .lldpduReceive port lldpdu => Sys2Proof.Machine.execLldpduReceive port lldpdu s
  | .ptpEventMessage port sent correction => Sys2Proof.Machine.execPtpEventMessage port sent correction s
  | .transportContextStopped p => Sys2Proof.Machine.execTransportContextStopped p s
  | .childDetach xdie group child => Sys2Proof.Machine.execChildDetach xdie group child s
  | .joinTimer xdie group => Sys2Proof.Machine.execJoinTimer xdie group s
  | .egressFrame port frame => Sys2Proof.Machine.execEgressFrame port frame s
  | .eglLock src xdie => Sys2Proof.Machine.execEglLock src xdie s
  | .ringOpen src ring => Sys2Proof.Machine.execRingOpen src ring s
  | .ringLoopbackVerified ring => Sys2Proof.Machine.execRingLoopbackVerified ring s
  | .ringSwitchSettled ring => Sys2Proof.Machine.execRingSwitchSettled ring s
  | .ringNeighboursTrained ring => Sys2Proof.Machine.execRingNeighboursTrained ring s
  | .ringTrainTimeout ring => Sys2Proof.Machine.execRingTrainTimeout ring s
  | .ringClose src ring => Sys2Proof.Machine.execRingClose src ring s
  | .reductionFire xdie p run => Sys2Proof.Machine.execReductionFire xdie p run s
  | .pointCompute xdie p rid point owner run => Sys2Proof.Machine.execPointCompute xdie p rid point owner run s
  | .combineEntry run => Sys2Proof.Machine.execCombineEntry run s
  | .channelArrival xdie p ch => Sys2Proof.Machine.execChannelArrival xdie p ch s
  | .channelRelease xdie p ch => Sys2Proof.Machine.execChannelRelease xdie p ch s
  | .vaultImageStream p => Sys2Proof.Machine.execVaultImageStream p s
  | .halfSealed p => Sys2Proof.Machine.execHalfSealed p s
  | .flashImage p => Sys2Proof.Machine.execFlashImage p s
  | .flashImageDone p => Sys2Proof.Machine.execFlashImageDone p s
  | .storeCopy p => Sys2Proof.Machine.execStoreCopy p s
  | .hold src p value => Sys2Proof.Machine.execHold src p value s
  | .restart p => Sys2Proof.Machine.execRestart p s
  | .finish p => Sys2Proof.Machine.execFinish p s
  | .restore p => Sys2Proof.Machine.execRestore p s
  | .replay p => Sys2Proof.Machine.execReplay p s
  | .repoint p => Sys2Proof.Machine.execRepoint p s
  | .flashNow p => Sys2Proof.Machine.execFlashNow p s
  | .storeNow p => Sys2Proof.Machine.execStoreNow p s
  | .cvStart src xdie u => Sys2Proof.Machine.execCvStart src xdie u s
  | .cvAbort src xdie u => Sys2Proof.Machine.execCvAbort src xdie u s
  | .cvRunComplete xdie u => Sys2Proof.Machine.execCvRunComplete xdie u s
  | .scanStart src xdie => Sys2Proof.Machine.execScanStart src xdie s
  | .scanAbort src xdie => Sys2Proof.Machine.execScanAbort src xdie s
  | .scanComplete xdie => Sys2Proof.Machine.execScanComplete xdie s
  | .patrolScrub stack => Sys2Proof.Machine.execPatrolScrub stack s
  | .cabinetScrub g bank => Sys2Proof.Machine.execCabinetScrub g bank s
  | .watchdogExpiry core => Sys2Proof.Machine.execWatchdogExpiry core s
  | .watchdogKick core => Sys2Proof.Machine.execWatchdogKick core s
  | .takeover => Sys2Proof.Machine.execTakeover s
  | .pwrEnRise => Sys2Proof.Machine.execPwrEnRise s
  | .railPowerGood rail => Sys2Proof.Machine.execRailPowerGood rail s
  | .pwrEnFall => Sys2Proof.Machine.execPwrEnFall s
  | .vinOutOfRange => Sys2Proof.Machine.execVinOutOfRange s
  | .railFault rail => Sys2Proof.Machine.execRailFault rail s
  | .powerStageFault rail => Sys2Proof.Machine.execPowerStageFault rail s
  | .railWarningEntry die mv => Sys2Proof.Machine.execRailWarningEntry die mv s
  | .railWarningExit die mv => Sys2Proof.Machine.execRailWarningExit die mv s
  | .vcoreResetLevel die => Sys2Proof.Machine.execVcoreResetLevel die s
  | .thermalDutyUpdate die temp => Sys2Proof.Machine.execThermalDutyUpdate die temp s
  | .thermalTrip die => Sys2Proof.Machine.execThermalTrip die s
  | .hbmThermalThrottle stack temp => Sys2Proof.Machine.execHbmThermalThrottle stack temp s
  | .resetNAssert lowNs => Sys2Proof.Machine.execResetNAssert lowNs s
  | .mResetRelease => Sys2Proof.Machine.execMResetRelease s
  | .mRequest => Sys2Proof.Machine.execMRequest s
  | .gRequest => Sys2Proof.Machine.execGRequest s
  | .lRequest => Sys2Proof.Machine.execLRequest s
  | .idleRequest src value => Sys2Proof.Machine.execIdleRequest src value s
  | .selfRefreshEntry stack => Sys2Proof.Machine.execSelfRefreshEntry stack s
  | .rmonPeakClear src die => Sys2Proof.Machine.execRmonPeakClear src die s
  | .romSelfTestComplete core pass => Sys2Proof.Machine.execRomSelfTestComplete core pass s
  | .imageLoaded core => Sys2Proof.Machine.execImageLoaded core s
  | .flashGrantTimeout => Sys2Proof.Machine.execFlashGrantTimeout s
  | .rcvData offset bytes => Sys2Proof.Machine.execRcvData offset bytes s
  | .recoveryRetryTimer => Sys2Proof.Machine.execRecoveryRetryTimer s
  | .recoveryRoleTimeout => Sys2Proof.Machine.execRecoveryRoleTimeout s
  | .standbySynced => Sys2Proof.Machine.execStandbySynced s
  | .quietPoint => Sys2Proof.Machine.execQuietPoint s
  | .updateQuietTimeout => Sys2Proof.Machine.execUpdateQuietTimeout s
  | .authSet session k => Sys2Proof.Machine.execAuthSet session k s
  | .authDel session k => Sys2Proof.Machine.execAuthDel session k s
  | .sessOpen session k => Sys2Proof.Machine.execSessOpen session k s
  | .sessClose session k => Sys2Proof.Machine.execSessClose session k s
  | .vecSet session k => Sys2Proof.Machine.execVecSet session k s
  | .mcastSet session k => Sys2Proof.Machine.execMcastSet session k s
  | .mcastDel session k => Sys2Proof.Machine.execMcastDel session k s
  | .curwrite session k => Sys2Proof.Machine.execCurwrite session k s
  | .mailboxReset session k => Sys2Proof.Machine.execMailboxReset session k s
  | .update session k => Sys2Proof.Machine.execUpdate session k s
  | .attest session k => Sys2Proof.Machine.execAttest session k s
  | .svnAdvance session k => Sys2Proof.Machine.execSvnAdvance session k s
  | .keyRevoke session k => Sys2Proof.Machine.execKeyRevoke session k s
  | .counterOverflow page counter weight => Sys2Proof.Machine.execCounterOverflow page counter weight s
  | .ldgGrantWrite src data => Sys2Proof.Machine.execLdgGrantWrite src data s
  | .streamEnable src j => Sys2Proof.Machine.execStreamEnable src j s
  | .dumpSample j => Sys2Proof.Machine.execDumpSample j s
  | .provenanceRecord op => Sys2Proof.Machine.execProvenanceRecord op s
  | .watchArm src g w => Sys2Proof.Machine.execWatchArm src g w s
  | .obsUnlockNew src => Sys2Proof.Machine.execObsUnlockNew src s
  | .obsUnlockCheck src => Sys2Proof.Machine.execObsUnlockCheck src s
  | .obsUnlockLock src => Sys2Proof.Machine.execObsUnlockLock src s
  | .trigIn => Sys2Proof.Machine.execTrigIn s
  | .trigPostStop => Sys2Proof.Machine.execTrigPostStop s
  | .outNow src => Sys2Proof.Machine.execOutNow src s
  | .trigOutPulseEnd => Sys2Proof.Machine.execTrigOutPulseEnd s
  | .trigRestart src => Sys2Proof.Machine.execTrigRestart src s
  | .extest => Sys2Proof.Machine.execExtest s
  | .samplePreload cells => Sys2Proof.Machine.execSamplePreload cells s
  | .idcode => Sys2Proof.Machine.execIdcode s
  | .bypass => Sys2Proof.Machine.execBypass s
  | .resetNDeassert => Sys2Proof.Machine.execResetNDeassert s
  | .vinInRange => Sys2Proof.Machine.execVinInRange s
  | .observationFrame pin => Sys2Proof.Machine.execObservationFrame pin s
  | .trstNAssert => Sys2Proof.Machine.execTrstNAssert s

end Sys2Proof.Machine
end

