-- ==== Sys2Proof/Safety.lean ====
section
/-! DEFINITION. What statements mean by a safe state: the canonical form of memory and tables. -/

namespace Sys2Proof

open Machine

/-- Memory in its canonical form: addresses strictly rising, no byte equal to 0, which an unlisted address reads as. -/
def Memory.wf (m : List Host.Cell) : Bool := twf (fun _ => (0 : Byte)) m

/-- The register file in its canonical form: addresses strictly rising, no word equal to its reset value. -/
def Registers.wf (s : State) : Bool := twf (fun a => BitVec.ofNat 64 (resetOf s.code s.fuses a)) s.regs

/-- A gallery has its four bays, its four queues and its two movers (R116, R306, R234). -/
def GalShaped (x : Gallery) : Prop := x.bays.length = 4 ∧ x.queues.length = 4 ∧ x.movers.length = 2

/-- Every gallery has its shape. -/
def Shaped (s : State) : Prop := ∀ pg, GalShaped (galGet s pg)

end Sys2Proof
end

