-- ==== Sys2Proof/Certificates/Slice0/Obligations.lean ====
section
/-! DEFINITION. The statements: what the commands do, what they leave alone, and what holds of the block throughout. -/

namespace Sys2Proof.Claims

open Sys2Proof.Machine

/-- The module is powered and out of reset, so that its blocks act (R471, R487). -/
abbrev Live (s : State) : Prop := s.power.phase = .on ∧ s.power.mReset = false

/-- A register operation in its turn (R56, R58, R59): of a message that its source has begun, or that it begins itself, with fewer than 64
before it; `u` is the state it meets, `m` its message so far and `who` its principal. -/
abbrev InTurn (s u : State) (src : Source) (who : Princ) (pos : MsgPos) (m : MsgProgress) : Prop :=
  Live s ∧ u = (if pos.first then beginMsg s src pos else s) ∧ tfind u.msgs (senderKey src) = some m ∧ m.early = none ∧
    m.results.length < 64 ∧ principalOf u src = some who

/-- The operation executes: none of its message has failed, or STOP_ON_ERROR is 0 (R58). -/
abbrev Executes (pos : MsgPos) (m : MsgProgress) : Prop := ¬ (m.failed = true ∧ pos.stopOnError = true)

/-- The state once an operation has its result: the last of its message answers it, another is kept with the message (R58, R355). -/
def opDone (src : Source) (pos : MsgPos) (m : MsgProgress) (t : State) (r : Nat × Word64) : State :=
  if pos.last then endMsg t src m.seq (r :: m.results).reverse
  else { t with msgs := tins t.msgs (senderKey src) { m with failed := m.failed || opFailed r.1, results := r :: m.results } }

/-- A message of one request from a source that has the rights of a principal and waits for no other message of its own (R56, R58, R59). -/
abbrev Opens (s : State) (src : Source) (who : Princ) : Prop :=
  Live s ∧ principalOf s src = some who ∧ ∀ i x, src = .session i → sessGet s i.toNat = some x → x.reads = []

/-- The state in which that one operation acts: a session's message has been counted (R351, R529). -/
def heard (s : State) (src : Source) : State :=
  match src with
  | .curator => s
  | .session i =>
    match sessGet s i.toNat with
    | some x => tally (sessPut s i.toNat { x with lastRx := s.now }) (ztPage (sessXdie i.toNat)) 13 1
    | none => s

/-- The state after the message of one operation is answered (R355). -/
def told (s : State) (src : Source) (t : State) (r : Nat × Word64) : State :=
  match src with
  | .curator => emit t (.curatorResp [r])
  | .session i => endReg t i.toNat (match sessGet s i.toNat with | some x => x.rxNext | none => 0) (.regResp i [r])

/-- The write that an operation is, on the register that carries it (R58). -/
def writeOf (s : State) (who : Princ) (addr data mask : Nat) (i : PageInfo) : WReq :=
  let old := regRead s (addr / 4096) i (addr % 4096)
  ⟨who, addr / 4096, i, addr % 4096, old, old - (old &&& mask) + (data &&& mask), data &&& mask, mask, (regFields i (addr % 4096)).getD []⟩

/-- An address names a register that the principal reaches, on a block not in reset (R57, R60). -/
abbrev Reached (s : State) (who : Princ) (addr : Nat) (i : PageInfo) : Prop :=
  addressRefusal s addr = none ∧ (pageAt s (addr / 4096)).map (liveInfo s) = some i ∧ reaches s who (addr / 4096) i (addr % 4096) = true ∧
    inReset s (addr / 4096) i = false

/-- No check of R60 refuses a write: its address is reached, and no field refuses. -/
abbrev Passes (s : State) (who : Princ) (addr data mask : Nat) (i : PageInfo) : Prop :=
  Reached s who addr i ∧ writeRefusal s (writeOf s who addr data mask i) = none

/-- The answer's status of a write that passed: DONE, or DONE_PARTIAL where the data reach read-only or reserved bits (R58). -/
def wroteStatus (w : WReq) : Nat := if writesRO w then rPARTIAL else rDONE

/-- What a READ answers: the register, or in the cycle of a run's start the previous run's value (R58, R524). -/
def readBack (s : State) (addr : Nat) (i : PageInfo) : Word64 :=
  BitVec.ofNat 64 ((runWord s addr).getD (regRead s (addr / 4096) i (addr % 4096)))

/-- A session but for what any packet sent on it moves: its packet number, its time, and what its acknowledgement fields have said. -/
def unsent (x : Sess) : Sess := { x with pnTx := 0, lastTx := 0, sinceAck := 0, ceSeen := false }

/-- Everything is as it was but the registers, the queue of each event vector, when event bits rose, and the messages sent, each of which
moves the numbers of its session and waits at its port. -/
abbrev OnlyRegs (s t : State) : Prop :=
  t = { s with
    regs := t.regs
    vecLast := t.vecLast
    out := t.out
    rose := t.rose
    sess := t.sess
    ports := t.ports } ∧
  (∀ i, (sessGet t i).map unsent = (sessGet s i).map unsent) ∧
  ∀ x p, { portGet t x p with waiting := [] } = { portGet s x p with waiting := [] }

/-- Every byte of memory reads as it did, and every error pattern stands. -/
abbrev SameMemory (s t : State) : Prop := t.mem = s.mem ∧ t.guard = s.guard

/-- Counter i of a block's ledger (R522). -/
def ledger (s : State) (pg i : Nat) : Nat := bits (regGet s (pg * 4096 + 0x840 + 8 * i)) 0 48

/-- A counter of a ledger takes one more, short of its wrap. -/
abbrev Counts (s t : State) (pg i : Nat) : Prop := ledger s pg i + 1 < 2 ^ 48 → ledger t pg i = ledger s pg i + 1

end Sys2Proof.Claims

open Sys2Proof Sys2Proof.Machine Sys2Proof.Claims

/-- The step takes the command at the front of the queue and runs it on the rest (the block's interface; derived). -/
def Sys2Proof.Claims.StepRunsFrontCommand : Prop :=
  ∀ (c : Instr) (rest : List Instr) (s : State), step { s with pending := c :: rest } = exec c { s with pending := rest }

/-- With nothing waiting a step is one nanosecond and changes nothing else (the model's choice, notes/assumptions/2). -/
def Sys2Proof.Claims.StepOnEmptyQueueCountsTime : Prop :=
  ∀ s : State, s.pending = [] → step s = .next { s with now := s.now + 1 }

/-- No command of the table stops the block: it answers a next state, and only the six rows of an HBM stack are refused, where the order
code fits no such stack (R5, R7). -/
def Obligations.CommandsAnswerNextState : Prop :=
  (∀ (c : Instr) (s : State), (∃ t, exec c s = .next t) ∨ exec c s = .refused .noSuchUnit) ∧
  (∀ (k : Nat) (s : State), stackCount s.code ≤ k →
    (∀ c row last, exec (.rowRepair k c row last) s = .refused .noSuchUnit) ∧
    (∀ src c, exec (.channelRetire src k c) s = .refused .noSuchUnit) ∧
    exec (.retirementCopyComplete k) s = .refused .noSuchUnit ∧ exec (.patrolScrub k) s = .refused .noSuchUnit ∧
    (∀ temp, exec (.hbmThermalThrottle k temp) s = .refused .noSuchUnit) ∧ exec (.selfRefreshEntry k) s = .refused .noSuchUnit) ∧
  (∀ (k : Nat) (s : State), k < stackCount s.code →
    (∀ c row last, ∃ t, exec (.rowRepair k c row last) s = .next t) ∧ (∀ src c, ∃ t, exec (.channelRetire src k c) s = .next t) ∧
    (∃ t, exec (.retirementCopyComplete k) s = .next t) ∧ (∃ t, exec (.patrolScrub k) s = .next t) ∧
    (∀ temp, ∃ t, exec (.hbmThermalThrottle k temp) s = .next t) ∧ ∃ t, exec (.selfRefreshEntry k) s = .next t)

/-- What holds of every state of a run: memory and registers list no default and rise in address, and every gallery has its four bays, four queues
and two movers. -/
def Sys2Proof.Claims.Canonical (s : State) : Prop := Memory.wf s.mem = true ∧ Registers.wf s = true ∧ Shaped s

/-- Every step keeps the canonical forms of memory and of the register file, and the shape of every gallery, from any state that has them. -/
def Obligations.StepKeepsCanonicalForms : Prop := ∀ s t : State, Canonical s → step s = .next t → Canonical t

/-- The state after reset has the canonical forms of memory and of the register file, and every gallery its four bays, four queues and two movers. -/
def Obligations.ResetIsCanonical : Prop := Canonical State.reset

/-- What the part is made of never changes: its order code, its stepping and the sparing map blown into its C-dies (R1, R3, R153); a
command leaves the queue of those behind it alone. -/
def Obligations.CommandsKeepIdentity : Prop :=
  ∀ (c : Instr) (s t : State), exec c s = .next t →
    t.code = s.code ∧ t.stepping = s.stepping ∧ t.fuses.spareMap = s.fuses.spareMap ∧ t.pending = s.pending

/-- A step takes the front of the queue, or with nothing waiting is one nanosecond. -/
def Obligations.StepTakesFrontOfQueue : Prop := StepRunsFrontCommand ∧ StepOnEmptyQueueCountsTime

/-- The module after reset: every register reads its Reset value, every page its block state STOPPED, memory lists nothing, nothing waits
(R17, R49; a register with no value of the spec reads what notes/assumptions/1 and 7 name, the model's choice). -/
def Obligations.ResetLeavesResetValues : Prop :=
  (∀ a, regGet State.reset a = resetOf State.reset.code State.reset.fuses a) ∧
  (∀ pg < 4096, blkState State.reset pg = stStopped) ∧
  State.reset.mem = [] ∧ State.reset.sess = [] ∧ State.reset.mcast = [] ∧ State.reset.pending = [] ∧
  Live State.reset ∧ State.reset.boot.active = none

/-- READ (R58-R61): an operation in its turn that nothing refuses answers DONE with the register as it reads, and changes nothing else, at any
place of its message. A register whose storage is uncorrectable answers DATA_ERROR and zero; a page that does not exist NO_PAGE; an offset
that is no multiple of 8 ALIGN; an address above 24 bits ADDR; a block in reset UNAVAILABLE. After a failure under STOP_ON_ERROR it answers
SKIPPED, and with another OP in its place ENCODING (R60, R355). -/
def Obligations.ReadsAnswerOrRefuse : Prop :=
  ∀ (s u : State) (src : Source) (who : Princ) (addr : Word64) (pos : MsgPos) (m : MsgProgress), InTurn s u src who pos m →
    (Executes pos m → pos.op = 0 →
      (∀ i, Reached u who addr.toNat i → u.regBad.contains addr.toNat = false →
        exec (.read src addr pos) s = .next (opDone src pos m u (rDONE, readBack u addr.toNat i))) ∧
      (∀ i, Reached u who addr.toNat i → u.regBad.contains addr.toNat = true →
        exec (.read src addr pos) s = .next (opDone src pos m u (rDATA, 0))) ∧
      (2 ^ 24 ≤ addr.toNat → exec (.read src addr pos) s = .next (opDone src pos m u (rADDR, 0))) ∧
      (addr.toNat < 2 ^ 24 → addr.toNat % 8 ≠ 0 → exec (.read src addr pos) s = .next (opDone src pos m u (rALIGN, 0))) ∧
      (addr.toNat < 2 ^ 24 → addr.toNat % 8 = 0 → pageAt u (addr.toNat / 4096) = none →
        exec (.read src addr pos) s = .next (opDone src pos m u (rNOPAGE, 0))) ∧
      ∀ i, addressRefusal u addr.toNat = none → (pageAt u (addr.toNat / 4096)).map (liveInfo u) = some i →
        reaches u who (addr.toNat / 4096) i (addr.toNat % 4096) = true → inReset u (addr.toNat / 4096) i = true →
        exec (.read src addr pos) s = .next (opDone src pos m u (rUNAVAIL, 0))) ∧
    (¬ Executes pos m → exec (.read src addr pos) s = .next (opDone src pos m u (rSKIPPED, 0))) ∧
    (Executes pos m → pos.op ≠ 0 → exec (.read src addr pos) s = .next (opDone src pos m u (rENCODING, 0)))

/-- WRITE and WRITE_MASKED (R58, R60): an operation in its turn that no check refuses keeps its word, has the effect of its register, and
answers DONE, or DONE_PARTIAL where it reached read-only or reserved bits; after a failure under STOP_ON_ERROR it answers SKIPPED and changes
nothing. -/
def Sys2Proof.Claims.WritesTakeEffect : Prop :=
  ∀ (s u : State) (src : Source) (who : Princ) (addr data mask : Word64) (pos : MsgPos) (m : MsgProgress), InTurn s u src who pos m →
    (Executes pos m → ∀ i,
      (pos.op = 1 → Passes u who addr.toNat data.toNat (2 ^ 64 - 1) i → exec (.write src addr data pos) s =
        .next (opDone src pos m (applyWrite u (writeOf u who addr.toNat data.toNat (2 ^ 64 - 1) i))
          (wroteStatus (writeOf u who addr.toNat data.toNat (2 ^ 64 - 1) i), 0))) ∧
      (pos.op = 2 → Passes u who addr.toNat data.toNat mask.toNat i → exec (.writeMasked src addr data mask pos) s =
        .next (opDone src pos m (applyWrite u (writeOf u who addr.toNat data.toNat mask.toNat i))
          (wroteStatus (writeOf u who addr.toNat data.toNat mask.toNat i), 0)))) ∧
    (¬ Executes pos m → exec (.write src addr data pos) s = .next (opDone src pos m u (rSKIPPED, 0)) ∧
      exec (.writeMasked src addr data mask pos) s = .next (opDone src pos m u (rSKIPPED, 0)))

/-- On a block that does nothing more with its registers than keep them, a WRITE or WRITE_MASKED that nothing refuses replaces exactly the
addressed register's word, field by field (R58): a register of one read-write field then holds the data's bits under the mask and the old bits
elsewhere; every other register and all else stand. -/
def Sys2Proof.Claims.WriteKeepsWord : Prop :=
  ∀ (u : State) (who : Princ) (addr data mask : Nat) (i : PageInfo), Passes u who addr data mask i → 0x100 ≤ addr % 4096 →
    i.type ∈ [.censusKettle, .nocMesh, .bridge, .port, .transport, .collective] →
    ∃ t, t = applyWrite u (writeOf u who addr data mask i) ∧ t = { u with regs := t.regs, regBad := t.regBad } ∧
      (∀ a, a ≠ addr → regGet t a = regGet u a) ∧ t.regBad.contains addr = false ∧
      ∀ f, regFields i (addr % 4096) = some [f] → shownWord u (addr / 4096) i (addr % 4096) = none → f.acc = .rw → f.lo + f.width ≤ 64 →
        bits (regGet t addr) f.lo f.width =
          bits (regRead u (addr / 4096) i (addr % 4096) - (regRead u (addr / 4096) i (addr % 4096) &&& mask) + (data &&& mask)) f.lo f.width

/-- WRITE and WRITE_MASKED complete, and what they keep. -/
def Obligations.WriteReplacesRegister : Prop := WritesTakeEffect ∧ WriteKeepsWord

/-- A field of a register, at an offset of a page, written with a value by one WRITE_MASKED (R58). -/
def Sys2Proof.Claims.askedField (s : State) (src : Source) (who : Princ) (pg off lo width v : Nat) : State :=
  told s src (doWrite (heard s src) who (pg * 4096 + off) (v * 2 ^ lo) ((2 ^ width - 1) * 2 ^ lo)).1
    (doWrite (heard s src) who (pg * 4096 + off) (v * 2 ^ lo) ((2 ^ width - 1) * 2 ^ lo)).2

/-- A whole register, at an offset of a page, written by one WRITE (R58). -/
def Sys2Proof.Claims.askedWord (s : State) (src : Source) (who : Princ) (pg off v : Nat) : State :=
  told s src (doWrite (heard s src) who (pg * 4096 + off) v (2 ^ 64 - 1)).1 (doWrite (heard s src) who (pg * 4096 + off) v (2 ^ 64 - 1)).2
/-- Each request row of the table is one write of the register field that its chapter names, from any source with a principal's rights, and
completes whatever the state is: BLK_CTRL.RUN, CLEAR_FAULT and LOWPWR (R48), EVT_EN (R50), VEC_DEST (R72), BAY_STATUS (R149), the
sparing map (R153), the movers' control (R261), HBM_RETIRE (R263). -/
def Sys2Proof.Claims.BlockRequestsAreFieldWrites : Prop :=
  ∀ (s : State) (src : Source) (who : Princ), Opens s src who →
    (∀ page, exec (.requestRunning src page) s = .next (askedField s src who page.toNat 0x010 0 1 1)) ∧
    (∀ page, exec (.requestStopped src page) s = .next (askedField s src who page.toNat 0x010 0 1 0)) ∧
    (∀ page, exec (.clearFault src page) s = .next (askedField s src who page.toNat 0x010 1 1 1)) ∧
    (∀ g, exec (.napEntry src g) s = .next (askedField s src who (galRefPage g) 0x010 4 2 1)) ∧
    (∀ g, exec (.sleepEntry src g) s = .next (askedField s src who (galRefPage g) 0x010 4 2 2)) ∧
    (∀ g, exec (.lowPowerExit src g) s = .next (askedField s src who (galRefPage g) 0x010 4 2 0)) ∧
    (∀ page data, exec (.evtEnWrite src page data) s = .next (askedWord s src who page.toNat 0x028 data.toNat)) ∧
    (∀ v data, exec (.vecDestWrite src v data) s =
      .next (askedWord s src who (4 * 512 + 0x40 + v.val / 64) (0x100 + 16 * (v.val % 64)) data.toNat)) ∧
    (∀ g mask, exec (.bayClearFault src g mask) s = .next (askedField s src who (galPage g.val + 1) 0x110 0 4 mask.toNat)) ∧
    (∀ g m, exec (.moverResume src g m) s = .next (askedField s src who (galPage g.val + 2) (0x118 + 8 * m.val) 0 1 1)) ∧
    (∀ g m, exec (.moverAbort src g m) s = .next (askedField s src who (galPage g.val + 2) (0x118 + 8 * m.val) 1 1 1)) ∧
    (∀ k c, k < stackCount s.code → exec (.channelRetire src k c) s =
      .next (told s src (doWrite (heard s src) who (hbmPage s.code k * 4096 + 0x118) (c.val + 0x100) 0x11F).1
        (doWrite (heard s src) who (hbmPage s.code k * 4096 + 0x118) (c.val + 0x100) 0x11F).2)) ∧
    (src = .curator → ∀ die data, exec (.spareMapping die data) s =
      .next (askedWord s .curator .curator (die.val * 512 + 0x100) 0x100 data.toNat))

/-- The request rows of the later chapters, as BlockRequestsAreFieldWrites: GQq_TAIL and GQq_CTRL (R330), EGL_CFG.LOCK (R468), RING_CTRL
(R370), RES_Ap.HOLD (R431), CVu_CTRL (R466), SCAN_CTRL (R468), PWR_MODE.IDLE (R495), RMON_PEAK (R494), LDG_GRANT and LDS_CFGj (R543),
WATCHw_CFG (R542), OBS_UNLOCK and TRIG_CTRL (R548). -/
def Sys2Proof.Claims.LaterRequestsAreFieldWrites : Prop :=
  ∀ (s : State) (src : Source) (who : Princ), Opens s src who →
    (∀ g q tail, exec (.tailWrite src g q tail) s =
      .next (askedWord s src who (galPage g.val) (0x210 + 0x40 * q.val) tail.toNat)) ∧
    (∀ g q, exec (.queueResume src g q) s = .next (askedField s src who (galPage g.val) (0x228 + 0x40 * q.val) 0 1 1)) ∧
    (∀ g q, exec (.queueFlush src g q) s = .next (askedField s src who (galPage g.val) (0x228 + 0x40 * q.val) 1 1 1)) ∧
    (∀ x, exec (.eglLock src x) s = .next (askedField s src who (scanPage x.val) 0x150 32 1 1)) ∧
    exec (.ringOpen src .a) s = .next (askedField s src who (xPage 0 0) 0x130 0 1 1) ∧
    exec (.ringOpen src .b) s = .next (askedField s src who (xPage 0 0) 0x130 1 1 1) ∧
    exec (.ringClose src .a) s = .next (askedField s src who (xPage 0 0) 0x130 0 1 0) ∧
    exec (.ringClose src .b) s = .next (askedField s src who (xPage 0 0) 0x130 1 1 0) ∧
    (∀ p v, exec (.hold src p v) s = .next (askedField s src who (resPage s) (0x200 + 24 * p.val) 49 1 (if v then 1 else 0))) ∧
    (∀ x u, exec (.cvStart src x u) s = .next (askedField s src who (cvPage x.val) (0x128 + 0x40 * u.val) 0 1 1)) ∧
    (∀ x u, exec (.cvAbort src x u) s = .next (askedField s src who (cvPage x.val) (0x128 + 0x40 * u.val) 1 1 1)) ∧
    (∀ x, exec (.scanStart src x) s = .next (askedField s src who (scanPage x.val) 0x118 0 1 1)) ∧
    (∀ x, exec (.scanAbort src x) s = .next (askedField s src who (scanPage x.val) 0x118 1 1 1)) ∧
    (∀ v, exec (.idleRequest src v) s = .next (askedField s src who pwrPage 0x110 0 1 (if v then 1 else 0))) ∧
    (∀ d, exec (.rmonPeakClear src d) s = .next (askedField s src who (monitorPage d.val) 0x108 63 1 1)) ∧
    (∀ data, exec (.ldgGrantWrite src data) s = .next (askedWord s src who dumpPage 0x100 data.toNat)) ∧
    (∀ j, exec (.streamEnable src j) s = .next (askedField s src who dumpPage (0x200 + 0x20 * j.val) 0 1 1)) ∧
    (∀ g w, exec (.watchArm src g w) s = .next (askedField s src who (galPage g.val) (0x600 + 0x40 * w.val) 43 1 1)) ∧
    exec (.obsUnlockNew src) s = .next (askedField s src who muxPage 0x220 0 1 1) ∧
    exec (.obsUnlockCheck src) s = .next (askedField s src who muxPage 0x220 1 1 1) ∧
    exec (.obsUnlockLock src) s = .next (askedField s src who muxPage 0x220 3 1 1) ∧
    exec (.outNow src) s = .next (askedField s src who muxPage 0x1A0 0 1 1) ∧
    exec (.trigRestart src) s = .next (askedField s src who muxPage 0x1A0 1 1 1)



/-- A register request from a source that has no rights of its own changes nothing while the session is unused, closed or not yet open, or
waits for its bulk reads; on a module-peer session it is answered with STATUS DENIED (R56, R59, R347). -/
def Sys2Proof.Claims.RequestsNeedPrincipal : Prop :=
  ∀ (s : State) (i : Half), Live s →
    ((sessGet s i.toNat = none ∨ (∃ x, sessGet s i.toNat = some x ∧ (x.phase ≠ .opened ∨ x.reads ≠ []))) →
      (∀ page, exec (.requestRunning (.session i) page) s = .next s) ∧ (∀ page, exec (.requestStopped (.session i) page) s = .next s) ∧
      (∀ page data, exec (.evtEnWrite (.session i) page data) s = .next s) ∧ (∀ g, exec (.sleepEntry (.session i) g) s = .next s) ∧
      ∀ g q tail, exec (.tailWrite (.session i) g q tail) s = .next s) ∧
    (∀ x, sessGet s i.toNat = some x → x.phase = .opened → x.reads = [] → x.role = .peer →
      ∀ page, exec (.requestRunning (.session i) page) s = .next (takeControlAt (heard s (.session i)) i.toNat x.rxNext (.refuse 1 0)))

/-- Every request row is a write of a register, answered as one, for a source that has the rights of a principal. -/
def Obligations.RequestsAreFieldWrites : Prop := BlockRequestsAreFieldWrites ∧ LaterRequestsAreFieldWrites ∧ RequestsNeedPrincipal

/-- A register request that passed its checks and was carried out: it leaves `t` before its message is answered (R58, R60). -/
def Sys2Proof.Claims.Done (c : Instr) (s : State) (src : Source) (t : State) : Prop :=
  ∃ st, (st = rDONE ∨ st = rPARTIAL) ∧ exec c s = .next (told s src t (st, 0))

/-- REQUEST_RUNNING on a STOPPED block whose RUN is 0 makes it RUNNING with CAUSE unchanged; what then follows is the lead gallery's own
start (R314). REQUEST_STOPPED on a RUNNING block makes it STOPPING with CAUSE 0x1 and STOP_SRC the writer's rank. CLEAR_FAULT on a FAULTED
block makes it STOPPED, raises CHANGES by one, keeps CAUSE and sets the event bit of EV_BLK_STOPPED (R62). -/
def Sys2Proof.Claims.BlockStateRequests : Prop :=
  ∀ (s h : State) (src : Source) (who : Princ) (page : BitVec 12) (i : PageInfo), Opens s src who → h = heard s src →
    (Passes h who (page.toNat * 4096 + 0x010) 1 1 i → blkState h page.toNat = stStopped →
      bit (regRead h page.toNat i 0x010) 0 = false →
      ∃ u, Done (.requestRunning src page) s src (leadStarted u page.toNat (rankOf who)) ∧
        rd u page.toNat fSTATE = 1 ∧ rd u page.toNat fRUN = 1 ∧ rd u page.toNat fCAUSE = rd h page.toNat fCAUSE ∧
        u = { h with
          regs := u.regs
          gals := u.gals }) ∧
    (Passes h who (page.toNat * 4096 + 0x010) 0 1 i → blkState h page.toNat = stRunning →
      bit (regRead h page.toNat i 0x010) 0 = true →
      ∃ t, Done (.requestStopped src page) s src t ∧ rd t page.toNat fSTATE = 2 ∧ rd t page.toNat fRUN = 0 ∧
        rd t page.toNat fCAUSE = 1 ∧ rd t page.toNat fSTOPSRC = rankOf who ∧
        t = { h with
          regs := t.regs
          gals := t.gals }) ∧
    (Passes h who (page.toNat * 4096 + 0x010) 2 2 i → blkState h page.toNat = stFaulted →
      ∃ t, Done (.clearFault src page) s src t ∧ rd t page.toNat fSTATE = 0 ∧
        rd t page.toNat fCHANGES = (rd h page.toNat fCHANGES + 1) % 2 ^ 32 ∧
        rd t page.toNat fCAUSE = rd h page.toNat fCAUSE ∧ (rd t page.toNat fEVTRAW).testBit 0 = true ∧ OnlyRegs h t)

/-- DRAIN_COMPLETE of a page with no new fault: a STOPPING block whose drain is complete becomes FAULTED where CAUSE is 0x2 and STOPPED
elsewhere, with EV_BLK_FAULTED, or with EV_BLK_STOPPED and CHANGES raised by one (R62, R63); a port's link goes down and an array drops its
incomplete loads (R147, R334), and a partition that is being stopped goes on (R66). Any other page is left alone. Where X-die 0's control page
is FAULTED the mirror of its vectors takes over (R71). -/
def Sys2Proof.Claims.DrainEndsStop : Prop :=
  ∀ (s : State) (page : BitVec 12), Live s →
    (∀ i, pageAt s page.toNat = some i → blkState s page.toNat = stStopping → drained s page.toNat = true →
      ∃ u, rd u page.toNat fSTATE = (if rd s page.toNat fCAUSE = 2 then 3 else 0) ∧
        rd u page.toNat fCHANGES = (if rd s page.toNat fCAUSE = 2 then rd s page.toNat fCHANGES else (rd s page.toNat fCHANGES + 1) % 2 ^ 32) ∧
        (rd u page.toNat fEVTRAW).testBit (if rd s page.toNat fCAUSE = 2 then 1 else 0) = true ∧ OnlyRegs s u ∧
        exec (.drainComplete ⟨page, none⟩) s = .next (takeMirror (match pageOwner (restBlock u page.toNat) page.toNat with
          | some p => if (partGet (restBlock u page.toNat) p).stopping = true then stopProgress (restBlock u page.toNat) p
            else restBlock u page.toNat
          | none => restBlock u page.toNat))) ∧
    (∀ i, pageAt s page.toNat = some i → blkState s page.toNat ≠ stStopping ∨ drained s page.toNat = false →
      exec (.drainComplete ⟨page, none⟩) s = .next (takeMirror s)) ∧
    (pageAt s page.toNat = none → ∀ f, exec (.drainComplete ⟨page, f⟩) s = .next s)

/-- A fault that a block detects (R62), as DRAIN_COMPLETE reports it: recorded (R52); a RUNNING block becomes STOPPING with RUN 0, CAUSE
0x2 and STOP_SRC the Curator's, and drains; a STOPPED one becomes FAULTED at once with EV_BLK_FAULTED; elsewhere it changes nothing. -/
def Sys2Proof.Claims.FaultsAreTaken : Prop :=
  ∀ (s : State) (page : BitVec 12) (i : PageInfo) (f : PageFault), Live s → pageAt s page.toNat = some i → f.channel = none →
    (blkState s page.toNat = stRunning → rd s page.toNat fERRVALID = 0 →
      ∃ u, rd u page.toNat fSTATE = 2 ∧ rd u page.toNat fRUN = 0 ∧ rd u page.toNat fCAUSE = 2 ∧ rd u page.toNat fSTOPSRC = 2 ∧
        rd u page.toNat fERRVALID = 1 ∧ bits (regGet u (page.toNat * 4096 + 0x038)) 0 8 = f.code.toNat ∧
        regGet u (page.toNat * 4096 + 0x040) = f.addr.toNat ∧
        u = { s with
          regs := u.regs
          gals := u.gals } ∧
        exec (.drainComplete ⟨page, some f⟩) s = .next (takeMirror (drainDone u page.toNat))) ∧
    (blkState s page.toNat = stStopped →
      ∃ u, rd u page.toNat fSTATE = 3 ∧ rd u page.toNat fCAUSE = 2 ∧ (rd u page.toNat fEVTRAW).testBit 1 = true ∧ SameMemory s u ∧
        exec (.drainComplete ⟨page, some f⟩) s = .next (takeMirror u)) ∧
    (blkState s page.toNat = stFaulted ∨ blkState s page.toNat = stAsleep →
      exec (.drainComplete ⟨page, some f⟩) s = .next (takeMirror s))

/-- NAP_ENTRY and SLEEP_ENTRY: the four pages of the gallery are ASLEEP, in Nap or in Sleep; nothing else changes but registers (R62, R488). -/
def Sys2Proof.Claims.LowPowerEntry : Prop :=
  ∀ (s h : State) (src : Source) (who : Princ) (g : GalRef) (i : PageInfo), Opens s src who → h = heard s src → i.type = .galleryControl →
    bits (regRead h (galRefPage g) i 0x010) 4 2 = 0 → blkState h (galRefPage g) = stStopped →
    (Passes h who (galRefPage g * 4096 + 0x010) (1 * 2 ^ 4) (3 * 2 ^ 4) i →
      ∃ t, Done (.napEntry src g) s src t ∧ (∀ n < 4, rd t (galRefPage g + n) fSTATE = 4) ∧ rd t (galRefPage g) fLOWPWR = 1 ∧
        t = { h with regs := t.regs }) ∧
    (Passes h who (galRefPage g * 4096 + 0x010) (2 * 2 ^ 4) (3 * 2 ^ 4) i →
      ∃ t, Done (.sleepEntry src g) s src t ∧ (∀ n < 4, rd t (galRefPage g + n) fSTATE = 4) ∧ rd t (galRefPage g) fLOWPWR = 2 ∧
        t = { h with regs := t.regs })

/-- LOW_POWER_EXIT of a gallery ASLEEP: LOWPWR is 0 and the way out begins, with the read pass of R455 from Nap or the fill of R230 from
Sleep (R488). CABINET_FILL_COMPLETE ends a fill: the gallery is there again; out of Sleep it is stale, and its caddies are empty (R230, R303).
NAP_READ_PASS_COMPLETE ends the read pass: the four pages are STOPPED with CAUSE 0x4 (R62, R488). -/
def Sys2Proof.Claims.LowPowerExitAndFills : Prop :=
  (∀ (s h : State) (src : Source) (who : Princ) (g : GalRef) (i : PageInfo), Opens s src who → h = heard s src →
    Passes h who (galRefPage g * 4096 + 0x010) 0 (3 * 2 ^ 4) i → i.type = .galleryControl →
    bits (regRead h (galRefPage g) i 0x010) 4 2 ≠ 0 → blkState h (galRefPage g) = stAsleep →
    ∃ t, Done (.lowPowerExit src g) s src t ∧ rd t (galRefPage g) fLOWPWR = 0 ∧
      (galGet t (galRefPage g)).fill = (if rd h (galRefPage g) fLOWPWR = 2 then .wake else .napRead) ∧ SameMemory h t) ∧
  (∀ (s : State) (g : GalRef), Live s → galThere s g = true →
    ((galGet s (galRefPage g)).fill = .reset →
      ∃ t, exec (.cabinetFillComplete g) s = .next t ∧ (galGet t (galRefPage g)).fill = .none ∧ t.mem = s.mem) ∧
    ((galGet s (galRefPage g)).fill = .wake →
      ∃ t, exec (.cabinetFillComplete g) s = .next t ∧ (galGet t (galRefPage g)).fill = .none ∧
        (galGet t (galRefPage g)).caddies = [] ∧ rd t (galRefPage g) fSTALE = 1) ∧
    ((galGet s (galRefPage g)).fill = .napRead → (∀ n < 4, blkState s (galRefPage g + n) = stAsleep) →
      ∃ t, exec (.napReadPassComplete g) s = .next t ∧ (galGet t (galRefPage g)).fill = .none ∧
        (∀ n < 4, blkState t (galRefPage g + n) = stStopped ∧ rd t (galRefPage g + n) fCAUSE = 4) ∧ SameMemory s t))

/-- EVT_EN_WRITE keeps the enables (R50); bits set over events that stand raise them, which changes no memory (R70). VEC_DEST_WRITE keeps the
entry's destination (R72); unmasking may deliver (R74). -/
def Sys2Proof.Claims.EventRegisterWrites : Prop :=
  (∀ (s h : State) (src : Source) (who : Princ) (page : BitVec 12) (data : Word64) (i : PageInfo), Opens s src who → h = heard s src →
    Passes h who (page.toNat * 4096 + 0x028) data.toNat (2 ^ 64 - 1) i →
    ∃ t, Done (.evtEnWrite src page data) s src t ∧
      regGet t (page.toNat * 4096 + 0x028) = writtenWord (writeOf h who (page.toNat * 4096 + 0x028) data.toNat (2 ^ 64 - 1) i)
        (regGet h (page.toNat * 4096 + 0x028)) % 2 ^ 64 ∧ SameMemory h t) ∧
  (∀ (s h : State) (src : Source) (who : Princ) (v : Fin 4096) (data : Word64) (i : PageInfo), Opens s src who → h = heard s src →
    Passes h who (vecAddr v.val) data.toNat (2 ^ 64 - 1) i →
    ∃ t, Done (.vecDestWrite src v data) s src t ∧
      regGet t (vecAddr v.val) = writtenWord (writeOf h who (vecAddr v.val) data.toNat (2 ^ 64 - 1) i) (regGet h (vecAddr v.val)) % 2 ^ 64 ∧
      SameMemory h t)

/-- The oldest pending event of a vector is COAL_US old, a limit being set, and the vector may hand over what is pending: it is valid and not
masked (R74). -/
abbrev Sys2Proof.Claims.CoalesceDue (s : State) (v : Nat) : Prop :=
  bits (regGet s (vecAddr v)) 24 16 ≠ 0 ∧
    ((tfind s.vecLast v).getD ⟨0, 0, 0, 0⟩).oldest + bits (regGet s (vecAddr v)) 24 16 * 1000 ≤ s.now ∧
    bits (regGet s (vecAddr v + 8)) 0 16 ≠ 0 ∧ bit (regGet s (vecAddr v)) 47 = false ∧ vecValid s v = true

/-- COAL_US_EXPIRY: a vector whose oldest pending event is COAL_US old hands over one message, as an EVENT packet or, from vector 0, to the
Curator; PENDING is 0 and the sequence number one more (R74, R75). One whose destination cannot be reached loses it: PENDING is 0 and LOST 1;
vector 0 keeps it. Without a limit, or before it, nothing changes. -/
def Sys2Proof.Claims.CoalesceTimeDelivers : Prop :=
  ∀ (s : State) (v : Fin 4096), Live s →
    (CoalesceDue s v.val → vecReachable s v.val = true →
      (v.val ≠ 0 → ledger s (ztPage (sessXdie (bits (regGet s (vecAddr v.val)) 0 16))) (typeIndex 0x08) + 1 < 2 ^ 48) →
      ∃ t, exec (.coalUsExpiry v) s = .next t ∧ bits (regGet t (vecAddr v.val + 8)) 0 16 = 0 ∧
        bits (regGet t (vecAddr v.val + 8)) 32 32 = (bits (regGet s (vecAddr v.val + 8)) 32 32 + 1) % 2 ^ 32 ∧
        (v.val = 0 → t.out = vecMessage s 0 ((bits (regGet s (vecAddr 0 + 8)) 32 32 + 1) % 2 ^ 32) :: s.out) ∧
        (v.val ≠ 0 → ∃ p hdr, t.out = .packet p hdr (vecMessage s v.val ((bits (regGet s (vecAddr v.val + 8)) 32 32 + 1) % 2 ^ 32)) :: s.out) ∧
        OnlyRegs s t) ∧
    (CoalesceDue s v.val → vecReachable s v.val = false →
      ∃ t, exec (.coalUsExpiry v) s = .next t ∧ t = { s with regs := t.regs } ∧
        (v.val = 0 → t = s) ∧ (v.val ≠ 0 → bits (regGet t (vecAddr v.val + 8)) 0 16 = 0 ∧ bits (regGet t (vecAddr v.val + 8)) 16 1 = 1)) ∧
    (bits (regGet s (vecAddr v.val)) 24 16 = 0 ∨
      s.now < ((tfind s.vecLast v.val).getD ⟨0, 0, 0, 0⟩).oldest + bits (regGet s (vecAddr v.val)) 24 16 * 1000 →
      exec (.coalUsExpiry v) s = .next s)

/-- A block starts, stops, restores, drains and faults. -/
def Obligations.BlocksStartStopDrain : Prop := BlockStateRequests ∧ DrainEndsStop ∧ FaultsAreTaken

/-- Nap and Sleep are entered and left, and fills end. -/
def Obligations.LowPowerEntersAndLeaves : Prop := LowPowerEntry ∧ LowPowerExitAndFills

/-- Event bits are written and cleared, and what a vector holds is delivered in time. -/
def Obligations.EventsAreSetAndDelivered : Prop := EventRegisterWrites ∧ CoalesceTimeDelivers

/-- The command of an open stream that the loader takes next (R130, R134): the first of the stream that holds the array or has a pass to
begin, the loader and the draining pass being free. -/
def Sys2Proof.Claims.nextToLoad (s : State) (g b : Nat) : Option Begun :=
  if running s (arrPage g) = true ∧ streamWhole s g b = true ∧ (bayGet s g (streamBay s g b)).load = none ∧
      (bayGet s g (streamBay s g b)).old = none then
    (streamCmds s g b).find? (fun c => cmdOp c.bytes == 4 || decide (c.loaded < (planOf (bayMode s g) c).total))
  else none

/-- The tile and the pass within it that a command begins next (R132). -/
abbrev Sys2Proof.Claims.nextPass (s : State) (g : Nat) (c : Begun) : Nat × Nat :=
  (planOf (bayMode s g) c).locate (planOf (bayMode s g) c).tiles 0 c.loaded

/-- RELOAD_START: the loader of an open stream that loads nothing begins the next pass of its next command, in the parity that the streaming
pass does not use, with no row loaded (R130-R132); the first pass of a tile needs the tile's accumulator slots (R119). A steep command whose
two streams are one makes its bay FAULTED with cause 0x4 instead (R194-R196). -/
def Sys2Proof.Claims.ReloadStartLoadsNextPass : Prop :=
  ∀ (s : State) (g : Fin 256) (b : Fin 4) (c : Begun), Live s → Shaped s → nextToLoad s g.val b.val = some c → cmdOp c.bytes = 1 →
    (correlated (planOf (bayMode s g.val) c) c = false →
      ((nextPass s g.val c).2 = 0 → (takeAcc s g.val c (planOf (bayMode s g.val) c) (nextPass s g.val c).1).isSome = true) →
      ∃ t ps, exec (.reloadStart g b) s = .next t ∧ (bayGet t g.val (streamBay s g.val b.val)).load = some ps ∧
        ps.queue = c.queue ∧ ps.index = c.index ∧ ps.number = c.loaded ∧ ps.emitted = 0 ∧
        ps.rows = (planOf (bayMode s g.val) c).rows (nextPass s g.val c).2 ∧
        ps.parity = 1 - rd s (arrPage g.val) (fPARITY (streamBay s g.val b.val)) ∧
        (bayGet t g.val (streamBay s g.val b.val)).rowsLoaded = [] ∧ (bayGet t g.val (streamBay s g.val b.val)).rowsEntered = []) ∧
    (correlated (planOf (bayMode s g.val) c) c = true →
      ∃ t, exec (.reloadStart g b) s = .next t ∧ bayFaulted t g.val b.val = true ∧
        bits (regGet t (arrPage g.val * 4096 + 0x118 + 8 * b.val)) 0 4 = 4)

/-- What the loader writes for a row of the pass being loaded, once the row's stationary operands have arrived: the pass, the register row and
the command (R130, R133, R134). -/
def Sys2Proof.Claims.arrivingRow (s : State) (g b row : Nat) : Option (Pass × WRow × Begun) :=
  match (bayGet s g (streamBay s g b)).load with
  | none => none
  | some ps =>
    match begunFind s g ps.queue ps.index with
    | none => none
    | some c =>
      match absorb s g b c with
      | (_, _, some _) => none
      | (s1, c1, none) =>
        match loadedRow s1 g (planOf (bayMode s g) c) c1
            ((planOf (bayMode s g) c).locate (planOf (bayMode s g) c).tiles 0 ps.number).1
            ((planOf (bayMode s g) c).locate (planOf (bayMode s g) c).tiles 0 ps.number).2 row with
        | some (.ok w) => some (ps, w)
        | _ => none

/-- ROW_LOAD_COMPLETE: a row of the pass being loaded, whose stationary operands have arrived, is in the weight registers of the pass's parity and
counts as loaded (R108, R130, R133, R134). ROW_ENTERS_PASS: a loaded row enters the pass once the streaming pass has at most four elements left,
and the pass becomes the streaming one when every row has entered and no other streams (R128, R131). -/
def Sys2Proof.Claims.RowsLoadAndEnter : Prop :=
  (∀ (s : State) (g : Fin 256) (b : Fin 4) (row : Fin 4096) (ps : Pass) (w : WRow) (c : Begun), Live s → Shaped s →
    running s (arrPage g.val) = true → arrivingRow s g.val b.val row.val = some (ps, w, c) → row.val < ps.rows →
    (bayGet s g.val (streamBay s g.val b.val)).rowsLoaded.contains row.val = false →
    ∃ t, exec (.rowLoadComplete g b row) s = .next t ∧
      (bayGet t g.val (streamBay s g.val b.val)).rowsLoaded = row.val :: (bayGet s g.val (streamBay s g.val b.val)).rowsLoaded ∧
      (bayMode s g.val = 1 → tget noRow (bayGet t g.val b.val).weights (1024 * ps.parity + row.val) = w)) ∧
  (∀ (s : State) (g : Fin 256) (b : Fin 4) (row : Fin 4096), Live s → Shaped s → running s (arrPage g.val) = true →
    streamWhole s g.val b.val = true → (bayGet s g.val (streamBay s g.val b.val)).load.isSome = true →
    (bayGet s g.val (streamBay s g.val b.val)).rowsLoaded.contains row.val = true →
    (bayGet s g.val (streamBay s g.val b.val)).rowsEntered.contains row.val = false →
    (∀ ps, (bayGet s g.val (streamBay s g.val b.val)).cur = some ps → passElements s g.val ps - ps.emitted ≤ 4) →
    ∃ t, exec (.rowEntersPass g b row) s = .next t ∧ SameMemory s t ∧
      bayGet t g.val (streamBay s g.val b.val) = promote
        { bayGet s g.val (streamBay s g.val b.val) with rowsEntered := row.val :: (bayGet s g.val (streamBay s g.val b.val)).rowsEntered })

/-- The pass whose next element a stream can emit, with its command: its streamed operands have arrived, and behind its last element no other pass
drains (R116, R128, R133). -/
def Sys2Proof.Claims.emitting (s : State) (g b : Nat) : Option (Pass × Begun) :=
  match (bayGet s g (streamBay s g b)).cur with
  | none => none
  | some ps =>
    match begunFind s g ps.queue ps.index with
    | none => none
    | some c =>
      if (absorb s g b c).2.2 = none ∧ elementReady (planOf (bayMode s g) c) (absorb s g b c).2.1 ps = true ∧ arrayGoes s g = true ∧
          ¬ ((planOf (bayMode s g) c).m ≤ ps.emitted + 1 ∧ (bayGet s g (streamBay s g b)).old.isSome = true) then some (ps, c)
      else none

/-- ELEMENT_EMIT: with the element's operands there and no residue mismatch, the streaming pass has emitted one element more; the last one
makes it the pass that drains (R116, R128, R133). A residue mismatch is a bay fault of cause 0x1 (R142, R445). -/
def Sys2Proof.Claims.ElementEmitAdvancesPass : Prop :=
  ∀ (s : State) (g : Fin 256) (b : Fin 4) (ps : Pass) (c : Begun), Live s → Shaped s → emitting s g.val b.val = some (ps, c) →
    (∃ t, exec (.elementEmit g b .agree) s = .next t ∧
      (ps.emitted + 1 < (planOf (bayMode s g.val) c).m →
        (bayGet t g.val (streamBay s g.val b.val)).cur = some { ps with emitted := ps.emitted + 1 }) ∧
      ((planOf (bayMode s g.val) c).m ≤ ps.emitted + 1 →
        (bayGet t g.val (streamBay s g.val b.val)).old = some { ps with emitted := ps.emitted + 1 })) ∧
    ∀ row column, exec (.elementEmit g b (.mismatch row column)) s =
      .next (residueFault (absorb s g.val b.val c).1 g.val (streamBay s g.val b.val) ps row column)

/-- Whether the accumulators that a draining pass adds to can be read: those of its tile, and the results that its shadow tiles keep behind the
tile's last pass (R119, R132, R212). -/
def Sys2Proof.Claims.drains (s : State) (g sb : Nat) (c : Begun) (ps : Pass) : Bool :=
  let p := planOf (bayMode s g) c
  let tx := p.locate p.tiles 0 ps.number
  match drainPass s g sb p c ps tx.1 tx.2 with
  | .error _ => false
  | .ok (s1, c1) =>
    match (if tx.2 + 1 = p.ofTile tx.1 then keepNarrow s1 g c1 p tx.1 else .ok (s1, c1)) with
    | .error _ => false
    | .ok _ => true

/-- PASS_DRAINED: the tree results of the pass that drains reach their accumulators, and the stream has no draining pass (R119, R132, R133); a
residue mismatch is a bay fault. BAY_DRAINED: a faulted bay whose stream has no pass left has drained, with its event (R143, R144). -/
def Sys2Proof.Claims.PassesAndBaysDrain : Prop :=
  (∀ (s : State) (g : Fin 256) (b : Fin 4) (ps : Pass) (c : Begun), Live s → Shaped s → arrayGoes s g.val = true →
    (bayGet s g.val (streamBay s g.val b.val)).old = some ps → begunFind s g.val ps.queue ps.index = some c →
    (drains s g.val (streamBay s g.val b.val) c ps = true →
      ∃ t, exec (.passDrained g b .agree) s = .next t ∧ (bayGet t g.val (streamBay s g.val b.val)).old = none) ∧
    ∀ row column, exec (.passDrained g b (.mismatch row column)) s =
      .next (residueFault s g.val (streamBay s g.val b.val) ps row column)) ∧
  (∀ (s : State) (g : Fin 256) (b : Fin 4), Live s → Shaped s →
    bayFaulted s g.val b.val = true → (bayGet s g.val b.val).faultDrained = false →
    (bayGet s g.val (streamBay s g.val b.val)).old = none → (bayGet s g.val (streamBay s g.val b.val)).cur = none →
    ∃ t, exec (.bayDrained g b) s = .next t ∧ (bayGet t g.val b.val).faultDrained = true ∧
      (rd t (arrPage g.val) fEVTRAW).testBit (12 + b.val) = true ∧ SameMemory s t)

/-- A residue mismatch is a bay fault of cause 0x1 in the bay of the column, or in split mode in the stream's own: the bay is FAULTED, and
ARR_BAY_FAULT holds the cause (R142, R145, R151, R445). -/
def Sys2Proof.Claims.ResidueFaultsBay : Prop :=
  ∀ (s : State) (g : Fin 256) (sb : Fin 4) (ps : Pass) (row : Option (Fin 4096)) (column : Fin 1024) (bay : Nat),
    bay = (if bayMode s g.val = 1 then sb.val else column.val / 256) → bayFaulted s g.val bay = false →
    bayFaulted (residueFault s g.val sb.val ps row column) g.val bay = true ∧
      bits (regGet (residueFault s g.val sb.val ps row column) (arrPage g.val * 4096 + 0x118 + 8 * bay)) 0 4 = 1 ∧
      bits (regGet (residueFault s g.val sb.val ps row column) (arrPage g.val * 4096 + 0x118 + 8 * bay)) 17 10 = column.val

/-- SHADOW_RECOMPUTE on an open stream: the selected tile of a shadowed command is compared, and is no longer among those to be compared (R212); a
residue mismatch of the shadow pass is a bay fault (R214). BAY_CLEAR_FAULT of drained bays completes for every mask that passed its checks, and with
no command on the array the faulted bays it names are IDLE, their fault registers 0 (R145). -/
def Sys2Proof.Claims.ShadowTilesAndBayClear : Prop :=
  (∀ (s : State) (g : Fin 256) (q : Fin 4) (tile : Nat) (c : Begun), Live s → streamOpen s g.val (streamBay s g.val q.val) = true →
    (galGet s (galPage g.val)).begun.find?
      (fun c => c.queue == q.val && cmdOp c.bytes == 1 && c.phase == .running && c.shadow.contains tile) = some c →
    (∃ t c1, exec (.shadowRecompute g q ⟨tile, .agree⟩) s = .next t ∧ begunFind t g.val c.queue c.index = some c1 ∧
      c1.shadow.contains tile = false) ∧
    ∀ row column, ∃ ps, ps.queue = c.queue ∧ ps.index = c.index ∧ exec (.shadowRecompute g q ⟨tile, .mismatch row column⟩) s =
      .next (residueFault s g.val (streamBay s g.val q.val) ps row column)) ∧
  (∀ (s h : State) (src : Source) (who : Princ) (g : Fin 256) (mask : BitVec 4) (i : PageInfo), Opens s src who → h = heard s src →
    Passes h who ((galPage g.val + 1) * 4096 + 0x110) mask.toNat 0xF i → i.type = .arrayBays → i.spare = false → i.num = g.val →
    ∃ t, Done (.bayClearFault src g mask) s src t ∧
      ((galGet h (galPage g.val)).begun.filter (fun c => cmdOp c.bytes == 1 || cmdOp c.bytes == 4) = [] →
        ∀ b < 4, mask.toNat.testBit b = true → bayFaulted h g.val b = true →
          rd t (arrPage g.val) (fBAY b) = 0 ∧ regGet t (arrPage g.val * 4096 + 0x118 + 8 * b) = 0))

/-- A pass is loaded, its rows enter, and its elements leave. -/
def Obligations.PassesLoadAndEmit : Prop := ReloadStartLoadsNextPass ∧ RowsLoadAndEnter ∧ ElementEmitAdvancesPass

/-- Passes and bays drain, a bay faults, shadow tiles run, a bay is cleared. -/
def Obligations.BaysDrainAndClear : Prop := PassesAndBaysDrain ∧ ResidueFaultsBay ∧ ShadowTilesAndBayClear

/-- The command at HEAD of queue q of gallery g, whose index is HEAD, as R315 presents it, with Orders 2 to 4 passed: the partition's EPOCH, a
format without reserved bits, and the step that gallery is in. -/
abbrev Sys2Proof.Claims.Presents (s : State) (g q index : Nat) (b : List Byte) : Prop :=
  Live s ∧ headCommand s g q = some (index, .ok b) ∧ cmdEpoch b = rd s (galPage g) fEPOCH ∧ checkFormat b = true ∧
    cmdStep b = rd s (galPage g) fSTEP ∧ (qaux s g q).stepEnded = false

/-- The state in which a command taken from HEAD is checked: its slot's correctable errors are written back, HEAD has moved on, and with
FRAME_END it is known as the end of its queue's frames (R229, R315, R328). -/
def Sys2Proof.Claims.taken (s : State) (g q index : Nat) (b : List Byte) : State :=
  noteEnder (takeHead (slotHeal s g q index) g q index) g q index b

/-- The state in which an accepted command starts: its waiting is counted and the watches that match it are marked (R315, R530, R540). -/
def Sys2Proof.Claims.accepted (s : State) (g q index : Nat) (b : List Byte) : State := noteWatches (noteWait (taken s g q index b) g q index) g b

/-- A gallery of state t has one begun command more than in state s. -/
abbrev Sys2Proof.Claims.Begins (s t : State) (g : Nat) (c : Begun) : Prop :=
  (galGet t (galPage g)).begun = (galGet s (galPage g)).begun ++ [c]

/-- Acceptance itself (R315, R330): HEAD is one more modulo 2^32, the queue is ACTIVE, the Ledger's accepted count of the queue is one more, and
DONE, TAIL, the bytes of memory and everything begun stand. -/
def Sys2Proof.Claims.AcceptanceAdvancesHead : Prop :=
  ∀ (s : State) (g : Fin 256) (q : Fin 4) (index : Nat) (b : List Byte),
    headCommand s g.val q.val = some (index, .ok b) →
    index = rd s (galPage g.val) (fQHEAD q.val) ∧
    rd (accepted s g.val q.val index b) (galPage g.val) (fQHEAD q.val) = (rd s (galPage g.val) (fQHEAD q.val) + 1) % 2 ^ 32 ∧
    rd (accepted s g.val q.val index b) (galPage g.val) (fQSTATE q.val) = 1 ∧
    rd (accepted s g.val q.val index b) (galPage g.val) (fQDONE q.val) = rd s (galPage g.val) (fQDONE q.val) ∧
    rd (accepted s g.val q.val index b) (galPage g.val) (fQTAIL q.val) = rd s (galPage g.val) (fQTAIL q.val) ∧
    (galGet (accepted s g.val q.val index b) (galPage g.val)).begun = (galGet s (galPage g.val)).begun ∧
    (accepted s g.val q.val index b).mem = s.mem

/-- The rows of VECTOR by operation code (R572), but for the activation functions. -/
def Sys2Proof.Claims.vectorRows : List (Nat × (Fin 256 → Fin 4 → Instr)) :=
  [(0x01, .fadd), (0x02, .fsub), (0x03, .fmul), (0x04, .ffma), (0x05, .fmax), (0x06, .fmin), (0x07, .cmpEq), (0x08, .cmpLt), (0x09, .cmpLe),
   (0x0A, .fsqrt), (0x0B, .vrecip)] ++
  [(0x0C, .vrsqrt), (0x0D, .vexp), (0x0E, .vlog), (0x10, .scale), (0x11, .copy), (0x20, .sumReduction), (0x21, .maxReduction),
   (0x30, .rmsNorm), (0x31, .layerNorm), (0x40, .dropout)]

/-- Each VECTOR row (FADD, FSUB, FMUL, FFMA, FMAX, FMIN, EQ, LT, LE, FSQRT, VRECIP, VRSQRT, VEXP, VLOG, SCALE, COPY, SUM_REDUCTION,
MAX_REDUCTION, RMS_NORM, LAYER_NORM, DROPOUT, ACTIVATION_FUNCTION) accepts the command at HEAD whose operation code it names and whose
operands pass R231 and R572: the gallery has that command begun, with its bytes, and waits for the vector unit (R315, R325). A row leaves a
defined command of another operation where it stands. -/
def Obligations.VectorRowsBegin : Prop :=
  ∀ (s : State) (g : Fin 256) (q : Fin 4) (index : Nat) (b : List Byte), Presents s g.val q.val index b → cmdOp b = 3 →
    checkVector (taken s g.val q.val index b) g.val b = .pass →
    (∀ r ∈ vectorRows, vcode b = r.1 →
      ∃ t, exec (r.2 g q) s = .next t ∧ Begins s t g.val (begunOf q.val index b 0 0 0 .running) ∧
        rd t (galPage g.val) (fQHEAD q.val) = (rd s (galPage g.val) (fQHEAD q.val) + 1) % 2 ^ 32 ∧ t.mem = s.mem) ∧
    (0x100 ≤ vcode b → vcode b ≤ 0x1FF →
      ∃ t, exec (.activationFunction g q) s = .next t ∧ Begins s t g.val (begunOf q.val index b 0 0 0 .running) ∧
        rd t (galPage g.val) (fQHEAD q.val) = (rd s (galPage g.val) (fQHEAD q.val) + 1) % 2 ^ 32 ∧ t.mem = s.mem) ∧
    ∀ r ∈ vectorRows, vdefined (vcode b) = true → vcode b ≠ r.1 → exec (r.2 g q) s = .next s

/-- NOP, FENCE, STEP_END and FRAME end as they are accepted (R310, R318, R321, R328): the completion is DONE, but for a FENCE that names a
queue halted before its INDEX, which ends DEPENDENCY. STEP_END closes the queue for the step; FRAME begins a frame of the gallery, broken
where the gallery is throttled. -/
def Sys2Proof.Claims.ImmediateCommandsComplete : Prop :=
  ∀ (s : State) (g : Fin 256) (q : Fin 4) (index : Nat) (b : List Byte) (u : State), Presents s g.val q.val index b →
    u = accepted s g.val q.val index b →
    (cmdOp b = 0 → exec (.nop g q) s = .next (completeCmd u g.val q.val index cDONE 1 0 b true)) ∧
    (cmdOp b = 8 → checkFence (taken s g.val q.val index b) g.val q.val index b = .pass →
      exec (.fence g q) s = .next
        (completeCmd u g.val q.val index (if (fenceEntries b).any (fenceHalted u) then cDEPEND else cDONE) 1 0 b true)) ∧
    (cmdOp b = 9 → ∃ v, exec (.stepEnd g q) s = .next (completeCmd v g.val q.val index cDONE 1 0 b true) ∧
      v = qauxPut u g.val q.val { qaux u g.val q.val with stepEnded := true }) ∧
    (cmdOp b = 10 → ∃ t, exec (.frame g q) s = .next t ∧
      (Shaped s → pageOwner s (galPage g.val) ≠ none →
        ∃ f ∈ (qaux t g.val q.val).frames, f.start = s.now ∧ f.ender = none ∧ (throttled u g.val = true → f.void = true)))

/-- The completion of a command (R316, R317): with DONE at its index and nothing completed ahead, DONE is one more; a command that asked for no
record and ended DONE writes no memory; one that ended otherwise halts the queue with its index and its status, or FAILED_DATA where its record
cannot be written (R571), unless an earlier one has; and it is no longer begun. -/
def Obligations.CompletionAdvancesDone : Prop :=
  ∀ (s : State) (g : Fin 256) (q : Fin 4) (index status attempts detail : Nat) (b : List Byte) (t : State), Shaped s →
    t = completeCmd s g.val q.val index status attempts detail b true → (cmdFlags b).testBit 3 = false →
    (index < 2 ^ 32 → rd s (galPage g.val) (fQDONE q.val) = index → (qaux s g.val q.val).ahead = [] →
      rd t (galPage g.val) (fQDONE q.val) = (index + 1) % 2 ^ 32) ∧
    (status = cDONE → (cmdFlags b).testBit 0 = false → SameMemory s t ∧
      rd t (galPage g.val) (fQSTATE q.val) = rd s (galPage g.val) (fQSTATE q.val)) ∧
    (status ≠ cDONE → status < 2 ^ 8 → index < 2 ^ 32 → rd s (galPage g.val) (fQSTATE q.val) ≠ 2 →
      rd t (galPage g.val) (fQSTATE q.val) = 2 ∧
      (rd t (galPage g.val) (fQHSTATUS q.val) = status ∨ rd t (galPage g.val) (fQHSTATUS q.val) = cFDATA) ∧
      rd t (galPage g.val) (fQHINDEX q.val) = index) ∧
    (∀ c ∈ (galGet t (galPage g.val)).begun, ¬ (c.queue = q.val ∧ c.index = index)) ∧
    rd t (galPage g.val) (fQHEAD q.val) = rd s (galPage g.val) (fQHEAD q.val)

/-- ARRAY, TRANSFER, ATTENTION, COMMIT, SKETCH and ROTATE that pass their checks are begun (R310, R315): the gallery holds the command with its
bytes; TRANSFER gives its mover the job, ARRAY its operand transfers, ATTENTION and SKETCH theirs; a COMMIT waits for its step's gate (R279);
a ROTATE of no hops is over (R241). -/
def Obligations.UnitCommandsBegin : Prop :=
  ∀ (s : State) (g : Fin 256) (q : Fin 4) (index : Nat) (b : List Byte) (u v : State), Presents s g.val q.val index b →
    u = accepted s g.val q.val index b → v = taken s g.val q.val index b →
    (cmdOp b = 1 → checkLayer v g.val b = .pass → checkArray v g.val b = .pass →
      ∃ c, exec (.array g q) s = .next (giveOperands (addBegun u g.val c) g.val c) ∧ Begins s (addBegun u g.val c) g.val c ∧
        c = begunOf q.val index b (layerWord u g.val b) (rangeExp u g.val b 2 48 50) (rangeExp u g.val b 3 49 52) .running) ∧
    (cmdOp b = 2 → checkTransfer v g.val b = .pass →
      ∃ w, exec (.transfer g q) s = .next (giveJob w g.val (leAt b 38 1 % 2) q.val index (leAt b 32 6) (descAt u g.val (leAt b 32 6))) ∧
        Begins s w g.val (begunOf q.val index b 0 0 0 .running)) ∧
    (cmdOp b = 4 → checkLayer v g.val b = .pass → checkAttention v g.val b = .pass →
      ∃ t c w, exec (.attention g q) s = .next t ∧ Begins s w g.val c ∧ c.bytes = b ∧ c.phase = .running ∧
        t = giveDescs (giveDescs w g.val 0 c [leAt b 32 6, leAt b 38 6, leAt b 44 6]) g.val 1 c [leAt b 50 6, leAt b 56 6]) ∧
    (cmdOp b = 5 → checkCommit v g.val b = .pass → ∃ t c, exec (.commit g q) s = .next t ∧ Begins s t g.val c ∧ c.phase = .waiting) ∧
    (cmdOp b = 6 → checkLayer v g.val b = .pass → checkSketch v g.val b = .pass →
      ∃ t c w, exec (.sketch g q) s = .next t ∧ Begins s w g.val c ∧ c.bytes = b ∧ c.phase = .running ∧
        t = giveDescs (giveDescs w g.val 0 c [leAt b 32 6]) g.val 1 c [leAt b 38 6]) ∧
    (cmdOp b = 7 → checkRotate v g.val b = .pass → ∃ t d, vload u ((pageOwner u (galPage g.val)).getD 0) (leAt b 32 6) 144 = .ok d ∧
      exec (.rotate g q) s = .next t ∧ Begins s t g.val (begunOf q.val index (b ++ d) 0 0 0 (if leAt b 38 1 = 0 then .ended cDONE 0 else .running)))

/-- The rows that take a command of one operation code from a queue. -/
def Sys2Proof.Claims.plainRows : List (Nat × (Fin 256 → Fin 4 → Instr)) :=
  [(0, .nop), (1, .array), (2, .transfer), (4, .attention), (5, .commit), (6, .sketch), (7, .rotate), (8, .fence), (9, .stepEnd), (10, .frame)]

/-- Orders 2 to 4 of R315: a command of another EPOCH is refused REFUSED_EPOCH with CODE 0x05 recorded, one of a wrong format
REFUSED_DESCRIPTOR, one of another step or after STEP_END REFUSED_STEP; the command is over in each. A queue that presents nothing keeps
its state, whatever the row. -/
def Sys2Proof.Claims.RefusedCommandsComplete : Prop :=
  ∀ (s : State) (g : Fin 256) (q : Fin 4), Live s →
    (headCommand s g.val q.val = none → (∀ r ∈ plainRows, exec (r.2 g q) s = .next s) ∧ (∀ r ∈ vectorRows, exec (r.2 g q) s = .next s) ∧
      exec (.activationFunction g q) s = .next s) ∧
    ∀ (index : Nat) (b : List Byte) (c : Instr) (v : State), headCommand s g.val q.val = some (index, .ok b) →
      v = taken s g.val q.val index b → (∃ r ∈ plainRows, cmdOp b = r.1 ∧ c = r.2 g q) ∨ (cmdOp b = 3 ∧ ∃ r ∈ vectorRows, vcode b = r.1 ∧ c = r.2 g q) →
      (cmdEpoch b ≠ rd s (galPage g.val) fEPOCH → exec c s = .next
        (completeCmd (tally (recordErr v (galPage g.val) 0x05 (pageOwner s (galPage g.val)) 0 false 0) (galPage g.val) 29 1)
          g.val q.val index cREFEPOCH 1 0 b true)) ∧
      (cmdEpoch b = rd s (galPage g.val) fEPOCH → checkFormat b = false →
        exec c s = .next (completeCmd v g.val q.val index cREFDESC 1 0 b true)) ∧
      (cmdEpoch b = rd s (galPage g.val) fEPOCH → checkFormat b = true →
        cmdStep b ≠ rd s (galPage g.val) fSTEP ∨ (qaux s g.val q.val).stepEnded = true →
        exec c s = .next (completeCmd v g.val q.val index cREFSTEP 1 0 b true))

/-- COMMAND_COMPLETION (R316): a begun command that has ended, other than an ARRAY that ended DONE, completes with its status, attempts and
detail; a VECTOR, ATTENTION or SKETCH that runs goes on in its unit first (R275, R572); an ARRAY that ended DONE adds its counts to the census
(R203), and fails where a record cannot be read (R208). A command not begun, or a COMMIT that waits for its gate, changes nothing. -/
def Obligations.BegunCommandsComplete : Prop :=
  ∀ (s : State) (g : Fin 256) (q : Fin 4) (run : CmdRun), Live s →
    (begunFind s g.val q.val run.index.toNat = none → exec (.commandCompletion g q run) s = .next s) ∧
    ∀ c, begunFind s g.val q.val run.index.toNat = some c →
      (c.phase = .waiting → exec (.commandCompletion g q run) s = .next s) ∧
      (∀ st d, c.phase = .ended st d → ¬ (st = 0 ∧ cmdOp c.bytes = 1) →
        exec (.commandCompletion g q run) s = .next (completeCmd s g.val q.val run.index.toNat st c.attempts d c.bytes true)) ∧
      (∀ d, c.phase = .ended 0 d → cmdOp c.bytes = 1 → run.fails = none →
        ((arrayCensus s g.val c).2 = none →
          exec (.commandCompletion g q run) s = .next (completeBegun (arrayCensus s g.val c).1 g.val c.queue c.index)) ∧
        ∀ va e, (arrayCensus s g.val c).2 = some (va, e) →
          exec (.commandCompletion g q run) s = .next (completeBegun
            (begunPut (recordAccess (arrayCensus s g.val c).1 (cenPage g.val) (pageOwner (arrayCensus s g.val c).1 (cenPage g.val)) va e) g.val
              { c with phase := .ended cFDATA 0 }) g.val c.queue c.index)) ∧
      (c.phase = .running → running s (galPage g.val) = true →
        (cmdOp c.bytes = 3 → exec (.commandCompletion g q run) s =
          .next (completeBegun (runVector s g.val c run.fails) g.val q.val run.index.toNat)) ∧
        (cmdOp c.bytes = 4 → exec (.commandCompletion g q run) s =
          .next (completeBegun (runAttention s g.val c run.check run.fails) g.val q.val run.index.toNat)) ∧
        (cmdOp c.bytes = 6 → exec (.commandCompletion g q run) s =
          .next (completeBegun (runSketch s g.val c run.fails) g.val q.val run.index.toNat)))

/-- The vector unit of R267-R273 and R572, on one command that it has begun and that has its turn, whose inputs are held in full and whose
output is a scratch caddy of FP32: the results stand in the caddy's memory from its base on, four bytes each, and the command has ended DONE. -/
def Obligations.VectorResultsReachScratch : Prop :=
  ∀ (s : State) (g : Fin 256) (c : Begun) (t u : State) (out : List Nat), vectorTurn s g.val c = true → c.hops = 0 → c.loaded ≠ 0 → c.kept = [] →
    begunFind s g.val c.queue c.index = some c → c.phase = .running →
    (∀ i ∈ vinputs c.bytes, vwant c.bytes i ≤ (inputBuf c i).length ∧ twin c.bytes i = none) → vofmt c.bytes = 0 →
    caddyRole (caddyWord s (movPage g.val) (vout c.bytes)) = 6 → t = runVector s g.val c none →
    out = (vectorResults (keyFor s g.val) c.bytes ((inputBuf c 0).map (vload32 (vfmt c.bytes 0))) ((inputBuf c 1).map (vload32 (vfmt c.bytes 1)))
      ((inputBuf c 2).map (vload32 (vfmt c.bytes 2)))).map (vstore32 0) → u = countVector s (galPage g.val) c.bytes out.length →
    (∃ c1, begunFind t g.val c.queue c.index = some c1 ∧ c1.phase = .ended cDONE 0) ∧
    t.mem = (store u (cabAddr u (galPage g.val) (caddyBase (caddyWord s (movPage g.val) (vout c.bytes)))) (out.flatMap (leBytes 4))).1.mem ∧
    OnlyRegs s u

/-- The special cases of the functions (R269, R270), on FP32 encodings: a NaN gives the canonical NaN; fmax and fmin of zeros of
either sign; vrecip of zeros, infinities and magnitudes of at most 2^-128; vrsqrt and vlog of zeros and of negative numbers; vexp at its ends;
comparisons with a NaN are false. -/
def Obligations.FunctionSpecialCases : Prop :=
  (∀ a b, a < 2 ^ 32 → b < 2 ^ 32 → isNan a = true → fmax a b = 0x7FC00000 ∧ fmax b a = 0x7FC00000 ∧ fmin a b = 0x7FC00000 ∧ fmin b a = 0x7FC00000 ∧
    veq (val32 a) (val32 b) = false ∧ vlt (val32 a) (val32 b) = false ∧ vlt (val32 b) (val32 a) = false) ∧
  (∀ a, a < 2 ^ 32 → isNan a = true → vrecip a = 0x7FC00000 ∧ vrsqrt a = 0x7FC00000 ∧ vexp a = 0x7FC00000 ∧ vlog a = 0x7FC00000) ∧
  fmax 0x80000000 0 = 0 ∧ fmax 0 0x80000000 = 0 ∧ fmin 0x80000000 0 = 0x80000000 ∧ fmin 0 0x80000000 = 0x80000000 ∧
  vrecip 0 = 0x7F800000 ∧ vrecip 0x80000000 = 0xFF800000 ∧ vrecip 0x7F800000 = 0 ∧ vrecip 0xFF800000 = 0x80000000 ∧
  (∀ w, 0 < w → w ≤ 2 ^ 21 → vrecip w = 0x7F800000 ∧ vrecip (w + 2 ^ 31) = 0xFF800000) ∧
  vrsqrt 0 = 0x7F800000 ∧ vrsqrt 0x80000000 = 0xFF800000 ∧ vrsqrt 0x7F800000 = 0 ∧
  (∀ w, 0x80000000 < w → w < 2 ^ 32 → vrsqrt w = 0x7FC00000 ∧ vlog w = 0x7FC00000) ∧
  vexp 0 = 0x3F800000 ∧ vexp 0x7F800000 = 0x7F800000 ∧ vexp 0xFF800000 = 0 ∧ vlog 0 = 0xFF800000 ∧ vlog 0x80000000 = 0xFF800000 ∧
  vlog 0x7F800000 = 0x7F800000

/-- Acceptance moves HEAD on; a command that needs no unit, and one refused, is over with it. -/
def Obligations.AcceptanceEndsAtOnce : Prop := AcceptanceAdvancesHead ∧ ImmediateCommandsComplete ∧ RefusedCommandsComplete

/-- A register request from a source with rights that passes its checks, on a page of a type. -/
abbrev Sys2Proof.Claims.Asks (s : State) (src : Source) (who : Princ) (pg off data mask : Nat) (i : PageInfo) (ty : BlockType) : Prop :=
  Opens s src who ∧ Passes (heard s src) who (pg * 4096 + off) data mask i ∧ i.type = ty ∧ i.spare = false

/-- The state in which the request takes effect: the addressed register's word is kept, and every other register and all else is as it was. -/
abbrev Sys2Proof.Claims.WordKept (b u : State) (a : Nat) : Prop :=
  u = { b with regs := u.regs, regBad := u.regBad } ∧ ∀ r, r ≠ a → regGet u r = regGet b r

/-- TAIL_WRITE (R307): TAIL holds the value, its time is kept when it changed, and memory, HEAD and DONE stand. QUEUE_RESUME (R317): the queue
is ACTIVE and nothing else changes. QUEUE_FLUSH (R317): every command from HEAD to TAIL is cancelled, so that HEAD is TAIL, and the queue is
ACTIVE. -/
def Sys2Proof.Claims.QueueRequestEffects : Prop :=
  ∀ (s b : State) (src : Source) (who : Princ) (g : Fin 256) (q : Fin 4) (i : PageInfo), b = heard s src → i.num = g.val → Shaped b →
    (∀ tail : Word32, Asks s src who (galPage g.val) (0x210 + 0x40 * q.val) tail.toNat (2 ^ 64 - 1) i .galleryControl →
      ∃ t, Done (.tailWrite src g q tail) s src t ∧ rd t (galPage g.val) (fQTAIL q.val) = tail.toNat ∧
        rd t (galPage g.val) (fQHEAD q.val) = rd b (galPage g.val) (fQHEAD q.val) ∧
        rd t (galPage g.val) (fQDONE q.val) = rd b (galPage g.val) (fQDONE q.val) ∧ SameMemory b t ∧
        (rd b (galPage g.val) (fQTAIL q.val) ≠ tail.toNat → (tail.toNat, b.now) ∈ (qaux t g.val q.val).tails)) ∧
    (Asks s src who (galPage g.val) (0x228 + 0x40 * q.val) 1 1 i .galleryControl →
      ∃ t, Done (.queueResume src g q) s src t ∧ rd t (galPage g.val) (fQSTATE q.val) = 1 ∧
        t = { b with
          regs := t.regs
          regBad := t.regBad }) ∧
    (Asks s src who (galPage g.val) (0x228 + 0x40 * q.val) 2 2 i .galleryControl →
      ∃ t, Done (.queueFlush src g q) s src t ∧ rd t (galPage g.val) (fQSTATE q.val) = 1 ∧
        rd t (galPage g.val) (fQHEAD q.val) = rd b (galPage g.val) (fQTAIL q.val) ∧
        rd t (galPage g.val) (fQTAIL q.val) = rd b (galPage g.val) (fQTAIL q.val))

/-- MOVER_RESUME (R258): the mover tries the access again, running its transfer, or IDLE where it has none of its own. MOVER_ABORT (R259): its
transfer ends, and the command with FAILED_MOVER; with no transfer the mover is IDLE. CHANNEL_RETIRE (R249): writes to the channel are mirrored
from here on. -/
def Sys2Proof.Claims.MoverAndRetireRequestEffects : Prop :=
  (∀ (s b : State) (src : Source) (who : Princ) (g : Fin 256) (m : Fin 2) (i : PageInfo), b = heard s src → i.num = g.val → Shaped b →
    (Asks s src who (galPage g.val + 2) (0x118 + 8 * m.val) 1 1 i .movers →
      ∃ t, Done (.moverResume src g m) s src t ∧ SameMemory b t ∧
        (moverJobs b (galPage g.val) m.val = [] → rd t (movPage g.val) (fMSTATE m.val) = 0) ∧
        ∀ j r, moverJobs b (galPage g.val) m.val = j :: r →
          rd t (movPage g.val) (fMSTATE m.val) = 1 ∧ moverJobs t (galPage g.val) m.val = { j with peer := .none } :: r) ∧
    (Asks s src who (galPage g.val + 2) (0x118 + 8 * m.val) 2 2 i .movers →
      ∃ t u, Done (.moverAbort src g m) s src t ∧ WordKept b u ((galPage g.val + 2) * 4096 + (0x118 + 8 * m.val)) ∧
        (∀ j r, moverJobs b (galPage g.val) m.val = j :: r → t = abortJob u g.val m.val j cFMOVER 0) ∧
        (moverJobs b (galPage g.val) m.val = [] → pageOwner b (galPage g.val) = none → rd t (movPage g.val) (fMSTATE m.val) = 0))) ∧
  ∀ (s b : State) (src : Source) (who : Princ) (k : Nat) (c : Fin 32) (i : PageInfo), b = heard s src → k < stackCount s.code → i.num = k →
    Asks s src who (hbmPage s.code k) 0x118 (c.val + 0x100) 0x11F i .hbm →
    ∃ t, Done (.channelRetire src k c) s src t ∧ rd t (hbmPage s.code k) ⟨0x110, 32 + c.val, 1⟩ = 1 ∧
      t = { b with
          regs := t.regs
          regBad := t.regBad }

/-- SPARE_MAPPING (R153, R154): the map holds the written targets; a mapping that begins, alone in its write and for a spare that was free,
clears GAL_FAILED of its logical gallery and leaves that gallery stale (R303). -/
def Sys2Proof.Claims.SpareMappingTakesEffect : Prop :=
  ∀ (s b : State) (die : Fin 4) (data : Word64) (i : PageInfo), b = heard s .curator →
    Asks s .curator .curator (die.val * 512 + 0x100) 0x100 data.toNat (2 ^ 64 - 1) i .cdieControl →
    ∃ t, Done (.spareMapping die data) s .curator t ∧
      (∀ k < 4, bit (regGet t ((die.val * 512 + 0x100) * 4096 + 0x100)) (8 * k + 7) = data.toNat.testBit (8 * k + 7)) ∧
      (∀ k < 4, data.toNat.testBit (8 * k + 7) = true →
        bits (regGet t ((die.val * 512 + 0x100) * 4096 + 0x100)) (8 * k) 6 = bits data.toNat (8 * k) 6) ∧
      ∀ k < 4, (∀ j < 4, j ≠ k → bits (regRead b (die.val * 512 + 0x100) i 0x100) (8 * j) 8 = bits data.toNat (8 * j) 8) →
        bit (regRead b (die.val * 512 + 0x100) i 0x100) (8 * k + 7) = false → data.toNat.testBit (8 * k + 7) = true →
        rd t (galPage (64 * die.val + bits data.toNat (8 * k) 6)) fSTALE = 1 ∧
        rd t (die.val * 512 + 0x100) ⟨0x108, bits data.toNat (8 * k) 6, 1⟩ = 0

/-- EGL_LOCK (R458): the limiter's configuration is locked, and nothing else changes. RING_OPEN of a ring that was not asked for (R368, R369):
its request stands, and from BYPASSED it is OPENING. RING_CLOSE of a ring that was asked for (R368): BYPASSED with cause 1, the request clear,
both of its ports bypassed. HOLD (R415): the bit holds the value; set, nothing else changes; cleared, what waited goes out. -/
def Sys2Proof.Claims.LinkRequestEffects : Prop :=
  ∀ (s b : State) (src : Source) (who : Princ) (i : PageInfo), b = heard s src →
    (∀ x : Fin 6, Asks s src who (scanPage x.val) 0x150 (2 ^ 32) (2 ^ 32) i .memoryScan →
      ∃ t, Done (.eglLock src x) s src t ∧ rd t (scanPage x.val) ⟨0x150, 32, 1⟩ = 1 ∧ WordKept b t (scanPage x.val * 4096 + 0x150)) ∧
    (∀ r : Ring, Asks s src who (xPage 0 0) 0x130 (2 ^ ringNum r) (2 ^ ringNum r) i .xdieControl →
      bit (regRead b (xPage 0 0) i 0x130) (ringNum r) = false →
      ∃ t, Done (.ringOpen src r) s src t ∧ rd t (xPage 0 0) (fROPEN r) = 1 ∧
        rd t (xPage 0 0) (fRSTATE r) = (if rd b (xPage 0 0) (fRSTATE r) = 0 then 1 else rd b (xPage 0 0) (fRSTATE r)) ∧
        t = { b with
          regs := t.regs
          regBad := t.regBad
          ringAt := t.ringAt }) ∧
    (∀ r : Ring, Asks s src who (xPage 0 0) 0x130 0 (2 ^ ringNum r) i .xdieControl →
      bit (regRead b (xPage 0 0) i 0x130) (ringNum r) = true →
      ∃ t, Done (.ringClose src r) s src t ∧ rd t (xPage 0 0) (fROPEN r) = 0 ∧ rd t (xPage 0 0) (fRSTATE r) = 0 ∧
        rd t (xPage 0 0) (fRCAUSE r) = 1 ∧ t.ringSettled = b.ringSettled.filter (· != r) ∧ SameMemory b t) ∧
    (∀ p : Fin 64, Asks s src who (resPage s) (0x200 + 24 * p.val) (2 ^ 49) (2 ^ 49) i .flash →
      ∃ t, Done (.hold src p true) s src t ∧ rd t (resPage s) ⟨0x200 + 24 * p.val, 49, 1⟩ = 1 ∧
        WordKept b t (resPage s * 4096 + (0x200 + 24 * p.val))) ∧
    (∀ p : Fin 64, Asks s src who (resPage s) (0x200 + 24 * p.val) 0 (2 ^ 49) i .flash →
      bit (regRead b (resPage s) i (0x200 + 24 * p.val)) 49 = true →
      ∃ t u, Done (.hold src p false) s src t ∧ rd u (resPage s) ⟨0x200 + 24 * p.val, 49, 1⟩ = 0 ∧
        WordKept b u (resPage s * 4096 + (0x200 + 24 * p.val)) ∧ t = holdCleared u p.val)

/-- CV_START (R451): the unit is BUSY with nothing fed. CV_ABORT of a BUSY unit (R466): it is ABORTED. SCAN_START (R453): the scan is BUSY with no
bytes done. SCAN_ABORT of a BUSY scan (R468): it is ABORTED. Memory stands in all four. -/
def Sys2Proof.Claims.CheckRequestEffects : Prop :=
  ∀ (s b : State) (src : Source) (who : Princ) (x : Fin 6) (i : PageInfo), b = heard s src → i.xdie = x.val →
    (∀ u : Fin 8, Asks s src who (cvPage x.val) (0x128 + 0x40 * u.val) 1 1 i .checkValue →
      ∃ t, Done (.cvStart src x u) s src t ∧ rd t (cvPage x.val) (fCVSTATE u.val) = 1 ∧ rd t (cvPage x.val) (fCVFED u.val) = 0 ∧
        t = { b with
          regs := t.regs
          regBad := t.regBad }) ∧
    (∀ u : Fin 8, Asks s src who (cvPage x.val) (0x128 + 0x40 * u.val) 2 2 i .checkValue →
      ∃ t, Done (.cvAbort src x u) s src t ∧ rd t (cvPage x.val) (fCVSTATE u.val) =
          (if rd b (cvPage x.val) (fCVSTATE u.val) = 1 then 3 else rd b (cvPage x.val) (fCVSTATE u.val)) ∧
        t = { b with
          regs := t.regs
          regBad := t.regBad }) ∧
    (Asks s src who (scanPage x.val) 0x118 1 1 i .memoryScan →
      ∃ t, Done (.scanStart src x) s src t ∧ rd t (scanPage x.val) fSCSTATE = 1 ∧ rd t (scanPage x.val) fSCBYTES = 0 ∧
        t = { b with
          regs := t.regs
          regBad := t.regBad }) ∧
    (Asks s src who (scanPage x.val) 0x118 2 2 i .memoryScan →
      ∃ t, Done (.scanAbort src x) s src t ∧
        rd t (scanPage x.val) fSCSTATE = (if rd b (scanPage x.val) fSCSTATE = 1 then 3 else rd b (scanPage x.val) fSCSTATE) ∧
        t = { b with
          regs := t.regs
          regBad := t.regBad })

/-- IDLE_REQUEST (R490): IDLE taken to 1 makes the module Idle from now; taken to 0 it ends Idle, and no stack is in self-refresh.
RMON_PEAK_CLEAR (R494): the least voltage and the highest temperature are what they read now. LDG_GRANT_WRITE (R526): the grants are the
written word. WATCH_ARM of a watch that is not armed (R540): it is ARMED, with nothing written. -/
def Sys2Proof.Claims.PowerAndGrantRequestEffects : Prop :=
  ∀ (s b : State) (src : Source) (who : Princ) (i : PageInfo), b = heard s src →
    (Asks s src who pwrPage 0x110 1 1 i .power → bit (regRead b pwrPage i 0x110) 0 = false →
      ∃ t, Done (.idleRequest src true) s src t ∧ rd t pwrPage fIDLEACT = 1 ∧ t.power.idleSince = b.now ∧ SameMemory b t) ∧
    (Asks s src who pwrPage 0x110 0 1 i .power → bit (regRead b pwrPage i 0x110) 0 = true →
      ∃ t, Done (.idleRequest src false) s src t ∧ rd t pwrPage fIDLEACT = 0 ∧
        (rd b pwrPage fIDLEACT = 1 → t.power.selfRefresh = []) ∧ SameMemory b t) ∧
    (∀ d : Fin 10, Asks s src who (monitorPage d.val) 0x108 (2 ^ 63) (2 ^ 63) i .railMonitor →
      ∃ t, Done (.rmonPeakClear src d) s src t ∧ rd t (monitorPage d.val) fMINMV = rd b (monitorPage d.val) fMV ∧
        rd t (monitorPage d.val) fMAXT = rd b (monitorPage d.val) fTEMP ∧ t = { b with
          regs := t.regs
          regBad := t.regBad }) ∧
    (∀ data : Word64, Asks s src who dumpPage 0x100 data.toNat (2 ^ 64 - 1) i .dump →
      ∃ t, Done (.ldgGrantWrite src data) s src t ∧ rd t dumpPage fGRANT = data.toNat ∧ SameMemory b t) ∧
    (∀ (g : Fin 256) (w : Fin 4), Asks s src who (galPage g.val) (0x600 + 0x40 * w.val) (2 ^ 43) (2 ^ 43) i .galleryControl →
      bit (regRead b (galPage g.val) i (0x600 + 0x40 * w.val)) 43 = false →
      ∃ t, Done (.watchArm src g w) s src t ∧ rd t (galPage g.val) (fWARM w.val) = 1 ∧ rd t (galPage g.val) (fWSTATE w.val) = 1 ∧
        rd t (galPage g.val) (fWRITTEN w.val) = 0 ∧ t = { b with
          regs := t.regs
          regBad := t.regBad })

/-- STREAM_ENABLE (R531, R534): a stream whose list can be read runs, its first sample at the next multiple of its period, its sequence number
0. OBS_UNLOCK_NEW (R546): a challenge stands that is the next of the module's count. OBS_UNLOCK_CHECK: a response that verifies opens the
pins; another sets FAILED and spends the challenge. OBS_UNLOCK_LOCK closes them. OUT_NOW (R547): a pulse begins now where the output is
enabled and none stands. TRIG_RESTART: the pins send again. -/
def Sys2Proof.Claims.ObservationRequestEffects : Prop :=
  ∀ (s b : State) (src : Source) (who : Princ) (i : PageInfo), b = heard s src →
    (∀ j : Fin 16, Asks s src who dumpPage (0x200 + 0x20 * j.val) 1 1 i .dump →
      bit (regRead b dumpPage i (0x200 + 0x20 * j.val)) 0 = false →
      ∃ t u, Done (.streamEnable src j) s src t ∧ WordKept b u (dumpPage * 4096 + (0x200 + 0x20 * j.val)) ∧
        (∀ l, readList u j.val (regRead b dumpPage i (0x200 + 0x20 * j.val) + 1) = .ok l →
          tfind t.obs.streams j.val = some ⟨l, (b.now / max 1 (rd u dumpPage (fLPERIOD j.val) * 1000) + 1) *
            max 1 (rd u dumpPage (fLPERIOD j.val) * 1000), 0, 0, none⟩ ∧ rd t dumpPage (fLSEQ j.val) = 0 ∧ rd t dumpPage (fLEN j.val) = 1)) ∧
    (Asks s src who muxPage 0x220 1 1 i .testMux →
      ∃ t, Done (.obsUnlockNew src) s src t ∧ t.obs.challenged = true ∧ t.boot.rcd.challenges = b.boot.rcd.challenges + 1 ∧ SameMemory b t) ∧
    (Asks s src who muxPage 0x220 2 2 i .testMux →
      ∃ t u, Done (.obsUnlockCheck src) s src t ∧ WordKept b u (muxPage * 4096 + 0x220) ∧
        (responseOk u = true → rd t muxPage fUNLOCKED = 1) ∧
        (responseOk u = false → rd t muxPage fUFAILED = 1 ∧ t.obs.challenged = false)) ∧
    (Asks s src who muxPage 0x220 8 8 i .testMux →
      ∃ t, Done (.obsUnlockLock src) s src t ∧ rd t muxPage fUNLOCKED = 0 ∧ t = { b with
          regs := t.regs
          regBad := t.regBad }) ∧
    (Asks s src who muxPage 0x1A0 1 1 i .testMux →
      ∃ t, Done (.outNow src) s src t ∧
        (rd b muxPage fTOUTEN = 1 → b.obs.pulse = none → rd t muxPage fTFIRED = 1 ∧ t.obs = { b.obs with pulse := some b.now })) ∧
    (Asks s src who muxPage 0x1A0 2 2 i .testMux →
      ∃ t, Done (.trigRestart src) s src t ∧ rd t muxPage fTSTOPPED = 0 ∧ t.obs = { b.obs with post := none } ∧ SameMemory b t)

/-- What the requests of queues, movers, retirement and the sparing map do. -/
def Obligations.QueueAndMoverRequestEffects : Prop := QueueRequestEffects ∧ MoverAndRetireRequestEffects ∧ SpareMappingTakesEffect

/-- What the requests of links, rings, checks, scans, power, grants, watches and observation do. -/
def Obligations.ControlRequestEffects : Prop := LinkRequestEffects ∧ CheckRequestEffects ∧ PowerAndGrantRequestEffects ∧ ObservationRequestEffects

/-- What a transfer is once an element more of it has moved, its slot not yet at its end (R237, R239). -/
def Sys2Proof.Claims.movedOn (j : MovJob) : MovJob := { j with done := j.done + 1, pos := j.pos + elemSize j.desc.esize, peer := .none }

/-- A mover goes on with the slot of its transfer, which has elements beyond the next one: the page runs, the mover is enabled and not in FAULT_WAIT,
no stack holds the access, and no earlier ROTATE has mover 1 (R235, R239, R241, R246, R260). -/
abbrev Sys2Proof.Claims.MoverGoes (s : State) (g m : Nat) (j : MovJob) (r : List MovJob) (n : Nat) : Prop :=
  moverJobs s (galPage g) m = j :: r ∧ running s (movPage g) = true ∧ elementHeld s (galPage g) j = false ∧ rd s (movPage g) (fMSTATE m) ≠ 2 ∧
    ¬ (m = 1 ∧ rotateAhead s g j.queue j.index = true) ∧ rd s (movPage g) (fMEN m) = 1 ∧ j.slot = some n ∧ j.done + 1 < transferCount j.desc

/-- Whether the next element of a transfer of direction 0 can be had at once: it is padding, or its address is one of the partition's own in
physical memory that reads (R236, R237, R254, R448). -/
def Sys2Proof.Claims.supplies (s : State) (g m : Nat) (j : MovJob) : Bool :=
  let p := (pageOwner s (galPage g)).getD 0
  let u := putJobs s (galPage g) m (moverJobs s (galPage g) m)
  match elementAt j.desc j.done with
  | none => true
  | some a =>
    if a < 0 ∨ (2 : Int) ^ 48 ≤ a then false
    else
      match translate u p a.toNat false with
      | .ok (.phys b) =>
        let v := voidFar u g (.ok (.phys b))
        (match ownerCheck v p (b + a.toNat % frameSize) with | .ok _ => true | .error _ => false) &&
          (match load v (b + a.toNat % frameSize) (elemSize j.desc.esize) with | .ok _ => true | .error _ => false)
      | _ => false

/-- Whether the next element of a transfer of direction 1 can be stored at once: it is padding, or the slot reads, and its address is one of the
partition's own in physical memory that takes it (R236, R237, R254, R448). -/
def Sys2Proof.Claims.delivers (s : State) (g m : Nat) (j : MovJob) (n : Nat) : Bool :=
  let p := (pageOwner s (galPage g)).getD 0
  let u := putJobs s (galPage g) m (moverJobs s (galPage g) m)
  let ca := cabAddr s (galPage g) (slotBase s (galPage g) j.desc.caddy n + j.pos)
  match elementAt j.desc j.done with
  | none => true
  | some a =>
    let v := voidFar u g (translate u p a.toNat true)
    if a < 0 ∨ (2 : Int) ^ 48 ≤ a then false
    else
      match translate v p a.toNat true, load v ca (elemSize j.desc.esize) with
      | .ok (.phys b), .ok bs =>
        let w := healRange v ca (elemSize j.desc.esize)
        (match ownerCheck w p (b + a.toNat % frameSize) with | .ok _ => true | .error _ => false) &&
          (store w (b + a.toNat % frameSize) bs).2.isNone
      | _, _ => false

/-- MOVER_ELEMENT (R236-R239, R254): a mover that goes on moves one element: padding is zeros; a fetch reads physical memory through the owner check;
a store writes it. Its done count is one more and its place in the slot an element further. An element whose address generation fails its check is
an uncorrectable word (R443). A mover without a transfer, stopped, held or waiting on a fault leaves the state. -/
def Sys2Proof.Claims.MoverElementMovesOne : Prop :=
  ∀ (s : State) (g : Fin 256) (m : Fin 2) (j : MovJob) (r : List MovJob) (n : Nat), Live s → Shaped s →
    (MoverGoes s g.val m.val j r n → j.desc.dir = 0 → j.pos + elemSize j.desc.esize < slotSize (caddyWord s (movPage g.val) j.desc.caddy) →
      supplies s g.val m.val j = true →
      ∃ t, exec (.moverElement g ⟨m, false⟩) s = .next t ∧ moverJobs t (galPage g.val) m.val = movedOn j :: r) ∧
    (MoverGoes s g.val m.val j r n → j.desc.dir ≠ 0 →
      j.pos + elemSize j.desc.esize < ((tfind (cadGet s (galPage g.val) j.desc.caddy).slots n).getD ⟨.full, 0, 0, 0, (4, 0)⟩).bytes →
      delivers s g.val m.val j n = true →
      ∃ t, exec (.moverElement g ⟨m, false⟩) s = .next t ∧ moverJobs t (galPage g.val) m.val = movedOn j :: r) ∧
    (MoverGoes s g.val m.val j r n → j.desc.dir = 0 → exec (.moverElement g ⟨m, true⟩) s =
      .next (elementFault (putJobs s (galPage g.val) m.val (j :: r)) g.val m.val j ((elementAt j.desc j.done).getD 0).toNat
        (.data (cabAddr s (galPage g.val) (slotBase s (galPage g.val) j.desc.caddy n + j.pos))))) ∧
    (moverJobs s (galPage g.val) m.val = [] → ∀ f, exec (.moverElement g ⟨m, f⟩) s = .next s) ∧
    (moverJobs s (galPage g.val) m.val = j :: r →
      moverRuns s (galPage g.val) j = false ∨ elementHeld s (galPage g.val) j = true ∨ rd s (movPage g.val) (fMSTATE m.val) = 2 →
      ∀ f, exec (.moverElement g ⟨m, f⟩) s = .next s)

/-- The member that follows a gallery in the ring of its rotation (R240). -/
abbrev Sys2Proof.Claims.ringNext (g : Nat) (c : Begun) : Nat :=
  (ringMembers (rotationOf c.bytes)).getD
    (((ringMembers (rotationOf c.bytes)).findIdx (· == g) + 1) % (ringMembers (rotationOf c.bytes)).length) g

/-- The slot whose slab a member sends next: its newest as the rotation began, and then what each hop has brought (R240). -/
abbrev Sys2Proof.Claims.hopFrom (s : State) (g : Nat) (c : Begun) : Nat :=
  let x := cadGet s (galPage g) (leAt (rotationOf c.bytes) 1 1)
  (x.head + x.count * 256 - 1 - c.cursor + c.hops) % x.count

/-- The slab that a member sends next read, and the slot taken for it at the next member (R240, R241). -/
def Sys2Proof.Claims.hopTaken (s : State) (g : Nat) (c r : Begun) : Option (State × Nat) :=
  let cad := leAt (rotationOf c.bytes) 1 1
  match loadHeal s (cabAddr s (galPage g) (slotBase s (galPage g) cad (hopFrom s g c))) (leAt (rotationOf c.bytes) 4 4) with
  | .error _ => none
  | .ok (s0, _) => slotTake s0 (galPage (ringNext g c)) cad (r.queue, r.index)

/-- A member can send its next slab: its mover 1 is free for the rotation and has hops left, the next member has begun the rotation, has sent all it
received before and has a FREE slot, and the slab can be read (R240, R241, R301). -/
abbrev Sys2Proof.Claims.Hops (s : State) (g : Nat) (c r : Begun) : Prop :=
  rotateOf s g = some c ∧ begunFind s g c.queue c.index = some c ∧ running s (movPage g) = true ∧
    (moverJobs s (galPage g) 1).all (fun j => decide (begunPlace s g c.queue c.index ≤ begunPlace s g j.queue j.index)) = true ∧
    c.hops < leAt c.bytes 38 1 ∧ rd s (movPage g) (fMEN 1) = 1 ∧ c.hops ≤ c.cursor ∧
    (cadGet s (galPage g) (leAt (rotationOf c.bytes) 1 1)).count ≠ 0 ∧
    (∀ k, tfind (cadGet s (galPage g) (leAt (rotationOf c.bytes) 1 1)).slots (hopFrom s g c) = some k → k.phase ≠ .filling) ∧
    hopStale s g (ringNext g c) = false ∧ rotateOf s (ringNext g c) = some r ∧ begunFind s (ringNext g c) r.queue r.index = some r ∧
    running s (movPage (ringNext g c)) = true ∧ r.cursor < leAt r.bytes 38 1 ∧ r.cursor ≤ r.hops ∧ (hopTaken s g c r).isSome = true

/-- HOP (R240-R242): mover 1 of a member sends its next slab into the slot at HEAD of the next member, which is then FULL with the slab's number; the
sender has sent, and the receiver received, one hop more. A member that is stale or of another epoch refuses it (R301, R303). -/
def Sys2Proof.Claims.HopCopiesSlab : Prop :=
  (∀ (s : State) (g : Fin 256) (c r : Begun), Live s → Hops s g.val c r →
    ∃ t n k cg cn, exec (.hop g) s = .next t ∧
      tfind (cadGet t (galPage (ringNext g.val c)) (leAt (rotationOf c.bytes) 1 1)).slots n = some k ∧ k.phase = .full ∧
      k.slab = hopSlab (ringMembers (rotationOf c.bytes)) ((ringMembers (rotationOf c.bytes)).findIdx (· == g.val)) c.hops ∧
      begunFind t (ringNext g.val c) r.queue r.index = some cn ∧ cn.cursor = r.cursor + 1 ∧
      begunFind t g.val c.queue c.index = some cg ∧ cg.hops = c.hops + 1) ∧
  ∀ (s : State) (g : Fin 256) (c : Begun), Live s → rotateOf s g.val = some c → running s (movPage g.val) = true →
    (moverJobs s (galPage g.val) 1).all (fun j => decide (begunPlace s g.val c.queue c.index ≤ begunPlace s g.val j.queue j.index)) = true →
    c.hops < leAt c.bytes 38 1 → rd s (movPage g.val) (fMEN 1) = 1 → hopStale s g.val (ringNext g.val c) = true →
    exec (.hop g) s = .next (hopRefused s g.val (ringNext g.val c) c)

/-- ROW_REPAIR (R248): with repair enabled, a row that has collected ROW_THRESH correctable errors is repaired: one repair more is counted, with its
event; the last spare of a bank shows in the channel's bit, with its event; stored bytes stand, and the row collects anew. Any other row is left
alone. RETIREMENT_COPY_COMPLETE (R249): the channel that was mirrored is RETIRED, its shares copied to the reserve. ESCAPE (R264): one move more is
counted. -/
def Sys2Proof.Claims.HbmRowsTakeEffect : Prop :=
  (∀ (s : State) (k : Nat) (c : Fin 32) (row : Nat) (last : Bool), Live s → k < stackCount s.code →
    (repairDue s k c.val row = false → exec (.rowRepair k c row last) s = .next s) ∧
    (repairDue s k c.val row = true → ∃ t, exec (.rowRepair k c row last) s = .next t ∧
      rd t (hbmPage s.code k) ⟨0x120, 0, 16⟩ = satAdd 16 (rd s (hbmPage s.code k) ⟨0x120, 0, 16⟩) 1 ∧
      (rd t (hbmPage s.code k) fEVTRAW).testBit 8 = true ∧
      (last = true → (rd t (hbmPage s.code k) ⟨0x120, 32, 32⟩).testBit c.val = true ∧ (rd t (hbmPage s.code k) fEVTRAW).testBit 9 = true) ∧
      t.mem = s.mem ∧ tget 0 t.rowErrs (rowKey k c.val row) = 0)) ∧
  (∀ (s : State) (k c : Nat), Live s → k < stackCount s.code →
    (List.range 32).find? (fun c => rd s (hbmPage s.code k) ⟨0x110, 32 + c, 1⟩ == 1) = some c →
    ∃ t, exec (.retirementCopyComplete k) s = .next t ∧ rd t (hbmPage s.code k) ⟨0x110, c, 1⟩ = 1 ∧
      rd t (hbmPage s.code k) ⟨0x110, 32 + c, 1⟩ = 0 ∧ (rd t (hbmPage s.code k) fEVTRAW).testBit 10 = true ∧
      t.mem = (copyShares s k c).mem ∧ t.guard = (copyShares s k c).guard) ∧
  ∀ (s : State) (die network : Fin 4), Live s → ledger s (die.val * 512 + 0x101) (10 + network.val) + 1 < 2 ^ 48 →
    ∃ t, exec (.escape die network) s = .next t ∧ t = { s with regs := t.regs } ∧
      ledger t (die.val * 512 + 0x101) (10 + network.val) = ledger s (die.val * 512 + 0x101) (10 + network.val) + 1

/-- What a bridge link's page shows once the link has reached its error limit: with a spare lane it uses one; without, it is down, with its event; one
that is down stays so (R265). -/
abbrev Sys2Proof.Claims.BridgeLimited (s t : State) (pg n : Nat) : Prop :=
  (rd s pg ⟨0x100, 2 * n, 2⟩ = 2 → rd t pg ⟨0x100, 2 * n, 2⟩ = 2) ∧
  (rd s pg ⟨0x100, 2 * n, 2⟩ ≠ 2 → 0 < rd s pg ⟨0x108, 4 * n, 4⟩ →
    rd t pg ⟨0x100, 2 * n, 2⟩ = 1 ∧ rd t pg ⟨0x108, 4 * n, 4⟩ = rd s pg ⟨0x108, 4 * n, 4⟩ - 1) ∧
  (rd s pg ⟨0x100, 2 * n, 2⟩ ≠ 2 → rd s pg ⟨0x108, 4 * n, 4⟩ = 0 →
    rd t pg ⟨0x100, 2 * n, 2⟩ = 2 ∧ (rd t pg fEVTRAW).testBit 9 = true)

/-- LINK_ERROR_LIMIT (R264, R265): a mesh link is taken out of use, with its event; a bridge link with a spare lane uses one; without, it is
down, which the pages of both its dies show; the stack behind a site's link that goes down is degraded (R250). -/
def Obligations.LinkLimitTakesLink : Prop :=
  ∀ (s : State) (die : Fin 4), Live s →
    (∀ n : Fin 16, rd s (die.val * 512 + 0x101) ⟨0x108, n.val, 1⟩ = 0 →
      ∃ t, exec (.linkErrorLimit die (.mesh n)) s = .next t ∧ rd t (die.val * 512 + 0x101) ⟨0x108, n.val, 1⟩ = 1 ∧
        (rd t (die.val * 512 + 0x101) fEVTRAW).testBit 8 = true ∧ OnlyRegs s t) ∧
    (∀ n : Fin 16, rd s (die.val * 512 + 0x101) ⟨0x108, n.val, 1⟩ = 1 → exec (.linkErrorLimit die (.mesh n)) s = .next s) ∧
    (∀ (l : LinkId) (n : Nat), (l = .horizontal ∧ n = 0) ∨ (l = .vertical ∧ n = 1) →
      ∃ t, exec (.linkErrorLimit die l) s = .next t ∧ OnlyRegs s t ∧ BridgeLimited s t (die.val * 512 + 0x102) n ∧
        BridgeLimited s t ((die.val ^^^ (n + 1)) * 512 + 0x102) n) ∧
    ∀ j : Fin 4, ∃ t, exec (.linkErrorLimit die (.site j)) s = .next t ∧ BridgeLimited s t (die.val * 512 + 0x102) (2 + j.val) ∧
      SameMemory s t ∧ ∀ k, (stackSites s.code).findIdx? (· == 4 * die.val + j.val) = some k →
        rd s (die.val * 512 + 0x102) ⟨0x100, 2 * (2 + j.val), 2⟩ ≠ 2 → rd s (die.val * 512 + 0x102) ⟨0x108, 4 * (2 + j.val), 4⟩ = 0 →
        k ∈ t.boot.rcd.degraded

/-- One granule scrubbed (R454, R455): a clean one changes no memory, a correctable one is written back corrected, an uncorrectable one is
recorded with its address. -/
abbrev Sys2Proof.Claims.Scrubbed (s t : State) (a : Nat) : Prop :=
  (granuleCheck s a = .clean → SameMemory s t) ∧
  (∀ p v, granuleCheck s a = .corrected p v → t.mem = s.mem ∧ t.guard = (healGranule s a).guard) ∧
  (granuleCheck s a = .bad → SameMemory s t ∧ regGet t (scanPage 0 * 4096 + 0x148) = (a + 2 ^ 63) % 2 ^ 64 ∧
    (rd t (scanPage 0) fEVTRAW).testBit 10 = true)

/-- The granule that a stack's scrubbing takes after n others (R454). -/
abbrev Sys2Proof.Claims.patrolAddr (s : State) (k n : Nat) : Nat :=
  frameSize * (n % 2 ^ 31 / 65536 * stackCount s.code + k) + n % 2 ^ 31 % 65536 * 32

/-- PATROL_SCRUB takes the next granule of a stack in physical order (R454), CABINET_SCRUB the next of a cabinet's bank (R455); each is counted
once. In module Idle the stack that the granule lies in leaves self-refresh (R490). Scrubbing that is off or stopped, and a cabinet that is not
there or asleep, is left alone. -/
def Sys2Proof.Claims.ScrubbingTakesNextGranule : Prop :=
  (∀ (s : State) (k n : Nat), Live s → k < stackCount s.code → n = scrubbed s k →
    (rd s (scanPage 0) ⟨0x138, 0, 8⟩ ≠ 0 → running s (scanPage 0) = true →
      ∃ t, exec (.patrolScrub k) s = .next t ∧ scrubbed t k = n + 1 ∧ Scrubbed s t (patrolAddr s k n) ∧
        (patrolAddr s k n < hbmEnd s.code → rd s pwrPage fIDLEACT = 1 →
          t.power.selfRefresh = s.power.selfRefresh.filter (· != hbmStack s.code (storageAddr s (patrolAddr s k n))))) ∧
    (running s (scanPage 0) = false → exec (.patrolScrub k) s = .next s)) ∧
  ∀ (s : State) (g : GalRef) (bank : Fin 64) (n : Nat), Live s → n = scrubbed s (2 ^ 16 + 64 * galRefPage g + bank.val) →
    rd s (scanPage 0) ⟨0x138, 8, 1⟩ = 1 → (galGet s (galRefPage g)).fill = .none →
    (blkState s (galRefPage g) = stAsleep ∨ pageAt s (galRefPage g) = none → exec (.cabinetScrub g bank) s = .next s) ∧
    (blkState s (galRefPage g) ≠ stAsleep → (pageAt s (galRefPage g)).isSome = true →
      ∃ t, exec (.cabinetScrub g bank) s = .next t ∧ scrubbed t (2 ^ 16 + 64 * galRefPage g + bank.val) = n + 1 ∧
        Scrubbed s t (cabAddr s (galRefPage g) (n % 6144 * 2048 + bank.val * 32)))

/-- CV_RUN_COMPLETE (R451, R452): a BUSY unit of a RUNNING page, fed by no scan, ends its run DONE or ABORTED, and stored bytes stand; a run of one
read that the unit may make takes those bytes into VALUE, and with CMP set compares it. A unit that is not BUSY is left alone. -/
def Sys2Proof.Claims.CheckRunsEnd : Prop :=
  ∀ (s : State) (x : Fin 6) (u : Fin 8), Live s → x.val < xdieCount s.code →
    (rd s (cvPage x.val) (fCVSTATE u.val) ≠ 1 → exec (.cvRunComplete x u) s = .next s) ∧
    (running s (cvPage x.val) = true → rd s (cvPage x.val) (fCVSTATE u.val) = 1 → rd s (cvPage x.val) (fCVSCAN u.val) = 0 →
      ∃ t, exec (.cvRunComplete x u) s = .next t ∧ t.mem = s.mem ∧
        (rd t (cvPage x.val) (fCVSTATE u.val) = 2 ∨ rd t (cvPage x.val) (fCVSTATE u.val) = 3) ∧
        ∀ (a n : Nat) (bs : List Byte), pageOwner s (cvPage x.val) = none → rd s (cvPage x.val) (fCV u.val 0 2 1) = 1 →
          rd s (cvPage x.val) (fCVFED u.val) = 0 → a = rd s (cvPage x.val) (fCV u.val 8 0 48) → n = rd s (cvPage x.val) (fCV u.val 0x10 0 48) →
          0 < n → a % 4096 + n ≤ 4096 → inMemory s.code a n = true → load s a n = .ok bs →
          t = cvEnd (cvTake (healRange s a n) x.val u.val bs) x.val u.val ∧ rd t (cvPage x.val) (fCVSTATE u.val) = 2 ∧
          rd t (cvPage x.val) (fCVFED u.val) = n ∧
          rd t (cvPage x.val) (fCVVALUE u.val) = cvFeed (rd s (cvPage x.val) (fCV u.val 0 0 1)) (rd s (cvPage x.val) (fCVVALUE u.val)) bs % 2 ^ 64)

/-- SCAN_COMPLETE (R453): a BUSY scan of a RUNNING page ends, at its range's end or at an uncorrectable word that stops it; a scan of nothing ends
DONE with EV_SCAN_DONE. A scan that is not BUSY is left alone. The bytes of memory stand; only error patterns may be corrected. -/
def Sys2Proof.Claims.ScansEnd : Prop :=
  ∀ (s : State) (x : Fin 6), Live s → x.val < xdieCount s.code →
    (rd s (scanPage x.val) fSCSTATE ≠ 1 → exec (.scanComplete x) s = .next s) ∧
    (running s (scanPage x.val) = true → rd s (scanPage x.val) fSCSTATE = 1 →
      ∃ t, exec (.scanComplete x) s = .next t ∧ t.mem = s.mem ∧
        (rd t (scanPage x.val) fSCSTATE = 2 ∨ rd t (scanPage x.val) fSCSTATE = 3) ∧
        (rd s (scanPage x.val) ⟨0x110, 6, 1⟩ = 0 → t.guard = s.guard) ∧
        (rd s (scanPage x.val) ⟨0x108, 0, 48⟩ - rd s (scanPage x.val) fSCBYTES < 32 →
          rd t (scanPage x.val) fSCSTATE = 2 ∧ (rd t (scanPage x.val) fEVTRAW).testBit 8 = true))

/-- A mover moves one element, and a rotation one hop. -/
def Obligations.MoversAndHopsMove : Prop := MoverElementMovesOne ∧ HopCopiesSlab

/-- The rows of a stack, and the scrubs. -/
def Obligations.HbmRowsAndScrubbing : Prop := HbmRowsTakeEffect ∧ ScrubbingTakesNextGranule

/-- A check-value run ends, and a scan. -/
def Obligations.ChecksAndScansEnd : Prop := CheckRunsEnd ∧ ScansEnd

/-- PART_REQ held a request of an operation for a partition as GO was written, with BUSY set, and every register's storage reads (R297, R298). -/
abbrev Sys2Proof.Claims.Requested (s : State) (op p : Nat) : Prop :=
  Live s ∧ rd s rootPage fPBUSY = 1 ∧ rq s fPOP = op ∧ rq s fPPART = p ∧ s.regBad = []

/-- The request has ended with a result: RESULT holds its code, BUSY is 0 and EV_PART_REQ_DONE stands (R297, R300). -/
abbrev Sys2Proof.Claims.Ended (t : State) (code : Nat) : Prop :=
  rd t rootPage fPRESULT = code ∧ rd t rootPage fPBUSY = 0 ∧ (rd t rootPage fEVTRAW).testBit 8 = true

/-- The rows of partition requests by operation code (R299), with what each does: CREATE, GROW, SHRINK, START, STOP, RESET, DESTROY, ADMIT, SET_L1. -/
def Sys2Proof.Claims.partRows : List (Nat × Instr × (State → Nat → State)) :=
  [(1, .create, partCreate), (2, .grow, partGrow), (3, .shrink, partShrink), (4, .start, partStart), (5, .stop, partStop), (6, .reset, partReset),
   (7, .destroy, partDestroy), (8, .admitPart, partAdmit), (9, .setL1, partSetL1)]

/-- A request is carried out by its own row alone: with BUSY 0, or another operation asked, a row changes nothing; a reserved operation code
ends with ENCODING (R297, R300). A request of a partition in a wrong state ends with STATE, and nothing is given or taken: CREATE of one that
exists; GROW, SHRINK, START, DESTROY and SET_L1 of one not STOPPED; STOP of one not RUNNING. -/
def Sys2Proof.Claims.RequestsMeetTheirRow : Prop :=
  ∀ (op p : Nat) (c : Instr) (f : State → Nat → State) (s : State), (op, c, f) ∈ partRows → Live s →
    (rd s rootPage fPBUSY = 0 → exec c s = .next s) ∧
    (∀ k, Requested s k p → 1 ≤ k → k ≤ 9 → k ≠ op → exec c s = .next s) ∧
    (∀ k, Requested s k p → k = 0 ∨ 9 < k → ∃ t, exec c s = .next t ∧ Ended t 3 ∧ SameMemory s t ∧ t.parts = s.parts) ∧
    (Requested s op p → (op = 1 ∧ rd s rootPage (fPSTATE p) ≠ 0) ∨ (op ∈ [2, 3, 4, 7, 9] ∧ rd s rootPage (fPSTATE p) ≠ 2) ∨
        (op = 5 ∧ rd s rootPage (fPSTATE p) ≠ 3 ∧ (partGet s p).stopping = false) →
      ∃ t, exec c s = .next t ∧ Ended t 1 ∧ SameMemory s t ∧ t.parts = s.parts ∧ rd t rootPage (fPSTATE p) = rd s rootPage (fPSTATE p))

/-- The read-back of R460: where a synced standby finds an item of a finished request other than it was written, it takes over, writes the items
anew and executes the request again; without such a standby, or where all agrees, the request stands. -/
def Sys2Proof.Claims.StandbyReadsBack : Prop :=
  ∀ (op p : Nat) (c : Instr) (f : State → Nat → State) (s : State), (op, c, f) ∈ partRows → Live s → rd s rootPage fPBUSY = 1 → rq s fPOP = op →
    rq s fPPART = p →
    (bothRun s = false ∨ rd (f s p) rootPage fPBUSY = 1 ∨ readBackFails s (f s p) = false → exec c s = .next (f s p)) ∧
    (bothRun s = true → rd (f s p) rootPage fPBUSY = 0 → readBackFails s (f s p) = true →
      exec c s = .next (f (takeover (activeExpires { s with regBad := s.regBad.filter (fun a => !isBackItem a) } (s.boot.active.getD 0))) p))

/-- A partition request ends, at its own row. -/
def Obligations.PartitionRequestsEnd : Prop := RequestsMeetTheirRow ∧ StandbyReadsBack

/-- A gallery that a partition has taken: its own, not stale, under its epoch and in its step (R295, R301, R303, R320). -/
abbrev Sys2Proof.Claims.Taken (t : State) (p g : Nat) : Prop :=
  pageOwner t (galPage g) = some p ∧ rd t (galPage g) fSTALE = 0 ∧ rd t (galPage g) fEPOCH = rd t rootPage (fPEPOCH p) ∧
    rd t (galPage g) fSTEP = rd t rootPage (fPSTEP p)

/-- CREATE (R251, R298, R299): with galleries that can be taken, and frames enough, the partition is STOPPED with exactly the lowest free frames;
its galleries are its own, not stale, under its epoch; LEAD stands on the lowest. GROW adds galleries and the lowest free frames. -/
def Sys2Proof.Claims.CreateAndGrowGive : Prop :=
  ∀ (s : State) (p : Nat) (gs fs fl : List Nat), gs = askedGals s → fs = freeFrames s (rq s fRQFRAMES) →
    fl = freeFlash s (rq s fRQFLASH) → galsRefusal s p true gs = none → fs.length = rq s fRQFRAMES → fl.length = rq s fRQFLASH →
    (Requested s 1 p → rd s rootPage (fPSTATE p) = 0 → gs ≠ [] → rq s fRQAIDX < rq s fRQFRAMES →
      ¬ (rq s fRQDEADLINE = 1 ∧ 128 < deadlineGals s + gs.length) →
      ∃ t, exec .create s = .next t ∧ Ended t 0 ∧ rd t rootPage (fPSTATE p) = 2 ∧
        (partGet t p).alloc = fs.map ListEntry.frame ∧ (partGet t p).flash = fl.map ListEntry.frame ∧
        rd t (cenPage (gs.headD 0)) fLEAD = 1 ∧ ∀ g ∈ gs, Taken t p g) ∧
    (Requested s 2 p → rd s rootPage (fPSTATE p) = 2 → ¬ (rd s rootPage (fPDEADLINE p) = 1 ∧ 128 < deadlineGals s + gs.length) →
      ∃ t, exec .grow s = .next t ∧ Ended t 0 ∧ rd t rootPage (fPSTATE p) = 2 ∧
        (partGet t p).alloc = (partGet s p).alloc ++ fs.map ListEntry.frame ∧ (partGet t p).flash = (partGet s p).flash ++ fl.map ListEntry.frame ∧
        ∀ g ∈ gs, Taken t p g)

/-- Every page of a partition told to stop, in the order of R66 as far as its blocks have settled (R62, R299, R362). -/
def Sys2Proof.Claims.stopTold (s : State) (p : Nat) : State :=
  (partGals s p).foldl (fun t g => stopPages t (galPages (galPage g)))
    (partPut s p { partGet s p with stopping := true, ctxStopped := (partGet s p).ctxStopped || contextQuiet s p })

/-- START of a STOPPED partition makes it RUNNING (R299). STOP and RESET end, once every page has settled and the transport contexts are stopped,
with the partition STOPPED; until then the partition is stopping and BUSY stays; RESET also sets its step to 0 (R66, R299, R362). SET_L1 names
another level-1 table (R252, R299). DESTROY frees the partition, its galleries and every frame of it (R299). -/
def Sys2Proof.Claims.StartStopResetDestroy : Prop :=
  ∀ (s : State) (p : Nat),
    (Requested s 4 p → rd s rootPage (fPSTATE p) = 2 →
      ∃ t, exec .start s = .next t ∧ Ended t 0 ∧ rd t rootPage (fPSTATE p) = 3) ∧
    (∀ (op : Nat) (c : Instr), (op, c) ∈ [(5, Instr.stop), (6, Instr.reset)] → Requested s op p →
      rd s rootPage (fPSTATE p) = 3 ∨ (op = 6 ∧ rd s rootPage (fPSTATE p) = 2) → (partGet s p).stopping = false →
      (partSettled (stopTold s p) p = true → (partGet (stopTold s p) p).ctxStopped = true →
        ∃ t, exec c s = .next t ∧ Ended t 0 ∧ rd t rootPage (fPSTATE p) = 2 ∧ (op = 6 → rd t rootPage (fPSTEP p) = 0)) ∧
      (partSettled (stopTold s p) p = false ∨ (partGet (stopTold s p) p).ctxStopped = false →
        exec c s = .next (stopTold s p) ∧ (partGet (stopTold s p) p).stopping = true ∧ rd (stopTold s p) rootPage fPBUSY = 1)) ∧
    (Requested s 9 p → rd s rootPage (fPSTATE p) = 2 → rq s fRQAIDX < (partGet s p).alloc.length →
      ∃ t, exec .setL1 s = .next t ∧ Ended t 0 ∧ rd t rootPage (fPL1 p) = rq s fRQAIDX ∧
        rd t rootPage (fPL1SLOT p) = rq s fRQSLOT ∧ SameMemory s t) ∧
    (Requested s 7 p → rd s rootPage (fPSTATE p) = 2 → vectorsStopped s p = true → (partGals s p).all (quietGallery s) = true →
      ∃ t, exec .destroy s = .next t ∧ Ended t 0 ∧ rd t rootPage (fPSTATE p) = 0 ∧ (partGet t p).alloc = [] ∧ (partGet t p).flash = [] ∧
        ∀ g ∈ partGals s p, pageOwner t (galPage g) = none)

/-- SHRINK (R299): the named galleries, not all of the partition's and none the lead, leave it once every gallery is quiet; the partition stays
STOPPED. ADMIT (R305): a stale gallery that is STOPPED and filled is not stale any more, its caddies empty where the partition does not run. -/
def Sys2Proof.Claims.ShrinkAndAdmit : Prop :=
  ∀ (s : State) (p : Nat) (gs : List Nat), gs = askedGals s → galsRefusal s p false gs = none →
    (Requested s 3 p → rd s rootPage (fPSTATE p) = 2 → (partGals s p).all gs.contains = false →
      (partGals s p).all (quietGallery s) = true → gs.any (fun g => rd s (cenPage g) fLEAD == 1) = false →
      rq s fRQFRAMES ≤ (partGet s p).alloc.length → rq s fRQFLASH ≤ (partGet s p).flash.length →
      rd s rootPage (fPL1 p) < (partGet s p).alloc.length - rq s fRQFRAMES →
      ∃ t, exec .shrink s = .next t ∧ Ended t 0 ∧ rd t rootPage (fPSTATE p) = 2 ∧ ∀ g ∈ gs, pageOwner t (galPage g) = none) ∧
    (∀ g : Nat, Requested s 8 p → rd s rootPage (fPSTATE p) = 2 ∨ rd s rootPage (fPSTATE p) = 3 → gs = [g] → admissible s g = true →
      ∃ t, exec .admitPart s = .next t ∧ Ended t 0 ∧ rd t (galPage g) fSTALE = 0 ∧
        (rd s rootPage (fPSTATE p) = 2 → (galGet t (galPage g)).caddies = []))

/-- STEP_CLOSE (R205, R321): a partition all of whose enabled queues have passed STEP_END, with no other command of the step begun, closes its
census step on every gallery; otherwise nothing happens. -/
def Sys2Proof.Claims.StepCloseShowsClosed : Prop :=
  ∀ (s : State) (p : Fin 64), Live s →
    (stepClosable s p.val = true → ∃ t, exec (.stepClose p) s = .next t ∧ (partGet t p.val).stp.closed = true ∧
      (∀ g ∈ partGals s p.val, rd t (cenPage g) fCLOSED = 1) ∧ SameMemory s t) ∧
    (stepClosable s p.val = false → exec (.stepClose p) s = .next s)

/-- The contributors of the step that the gate has opened for (R281, R394). -/
def Sys2Proof.Claims.contributors (s : State) (p : Nat) : Nat := match (partGet s p).stp.job with | some j => j.2.2 | none => 0

/-- COMMIT_BEGIN (R281, R286): with its gate open the commit of a step with no COMMIT is done at once; with COMMITs its groups run under the
scalars read from the first one's block and the gradient scale of R281, and a commit under way goes on. With the gate shut nothing happens; where the
gate's comparators disagree the commit fails (R447). -/
def Sys2Proof.Claims.CommitBeginRuns : Prop :=
  ∀ (s : State) (p : Fin 64) (lanes : List LaneFault), Live s →
    (commitReady s p.val = false → ∀ gate, exec (.commitBegin p ⟨lanes, gate⟩) s = .next s) ∧
    (commitReady s p.val = true → (partGet s p.val).stp.run = none → commitsOf s p.val = [] →
      ∃ t r, exec (.commitBegin p ⟨lanes, false⟩) s = .next t ∧ (partGet t p.val).stp.run = some r ∧ r.done = true ∧ r.elements = 0 ∧
        SameMemory s t) ∧
    (∀ (g : Nat) (c : Begun) (rest : List (Nat × Begun)), commitReady s p.val = true → (partGet s p.val).stp.run = none →
      commitsOf s p.val = (g, c) :: rest → partReady s g curNone = true → heldVa s p.val (leAt (commitDesc c.bytes) 8 6) false = false →
      (vfetch s p.val (leAt (commitDesc c.bytes) 8 6) 32).isOk = true →
      ∃ s1 b u r, vfetch s p.val (leAt (commitDesc c.bytes) 8 6) 32 = .ok (s1, b) ∧
        exec (.commitBegin p ⟨lanes, false⟩) s = .next (commitAll u p.val ((g, c) :: rest) 0 lanes) ∧ (partGet u p.val).stp.run = some r ∧
        r.scal = b ∧ r.gs.toNat = gradScale (contributors s p.val) b % 2 ^ 32 ∧ r.elements = 0 ∧ r.held = 0 ∧ r.done = false) ∧
    (∀ r, commitReady s p.val = true → (partGet s p.val).stp.run = some r → ∀ gate,
      exec (.commitBegin p ⟨lanes, gate⟩) s = .next (commitAll s p.val (commitsOf s p.val) 0 lanes)) ∧
    ∀ g, commitReady s p.val = true → (partGet s p.val).stp.run = none → leadOf s p.val = some g →
      exec (.commitBegin p ⟨lanes, true⟩) s = .next (compareFails s p.val g)

/-- STEP_BOUNDARY (R286, R293, R320): with the commit done, the census and the Appraiser applied, the COMMITs end DONE and step n + 1 begins on
every gallery of the partition, under one number; its queues take commands again, and the gate's job flags are gone. Where the comparators of the
advance disagree the commit fails (R447). -/
def Sys2Proof.Claims.StepBoundaryBeginsNext : Prop :=
  (∀ (s : State) (p : Fin 64) (g : Nat) (r : CommitRun), Live s → (partGet s p.val).stp.run = some r → leadOf s p.val = some g →
    r.done = true → running s (galPage g) = true → (censusCommit s p.val g (stepNow s p.val) none).2 = none →
    (runAppraiser (censusCommit s p.val g (stepNow s p.val) none).1 p.val g (stepNow s p.val) none).2 = none →
    (∃ u, exec (.stepBoundary ⟨p, none, false⟩) s = .next (stepStart u p.val ((stepNow s p.val + 1) % 2 ^ 32) false)) ∧
    exec (.stepBoundary ⟨p, none, true⟩) s = .next (compareFails
      (runAppraiser (censusCommit s p.val g (stepNow s p.val) none).1 p.val g (stepNow s p.val) none).1 p.val g)) ∧
  (∀ (s : State) (p : Fin 64) (fails : Option Nat) (counter : Bool), Live s →
    (partGet s p.val).stp.run = none ∨ leadOf s p.val = none → exec (.stepBoundary ⟨p, fails, counter⟩) s = .next s) ∧
  ∀ (s t : State) (p : Fin 64) (n : Nat) (again : Bool), n < 2 ^ 32 → t = stepStart s p.val n again →
    (∀ g ∈ partGals s p.val, rd t (galPage g) fSTEP = n ∧ rd t (cenPage g) fCENSTEP = n ∧ rd t (cenPage g) fCLOSED = 0 ∧
      ∀ q < 4, (qaux t g q).stepEnded = false) ∧
    (partGet t p.val).stp.started = true ∧ (partGet t p.val).stp.closed = false ∧ (partGet t p.val).stp.job = none ∧
    (partGet t p.val).stp.run = none

/-- What each accepted partition request does. -/
def Obligations.PartitionRequestsTakeEffect : Prop := CreateAndGrowGive ∧ StartStopResetDestroy ∧ ShrinkAndAdmit

/-- A step closes, its commit runs, and the next step begins. -/
def Obligations.StepsCloseAndCommit : Prop := StepCloseShowsClosed ∧ CommitBeginRuns ∧ StepBoundaryBeginsNext

/-- A packet whose session knows it as authentic, come in on a port of its X-die that takes packets, of a TYPE that is not reserved and that the
table of R347 does not discard, encrypted where its partition asks for it, its CRC right (R337, R341, R342, R346-R348). -/
abbrev Sys2Proof.Claims.Authentic (s : State) (k : Pkt) (ty : Kind) (crc : Option (List Byte)) (x : Sess) : Prop :=
  Live s ∧ sessGet s (pktSess k) = some x ∧ x.phase ≠ .initiating ∧ accepts s k.port = true ∧ k.port.xdie.val = sessXdie (pktSess k) ∧
    k.authentic = true ∧ k.pn.toNat + 1 < 2 ^ 48 ∧ typeReserved k.type.toNat = false ∧ k.type ≠ 0x02 ∧ k.type ≠ 0x08 ∧
    (isData ty = true → x.role ≠ .administrator → rd s (ztPage (sessXdie (pktSess k))) (fENC x.partition) = 1 → k.enc = true) ∧
    (∀ bs, crc = some bs → crc32c bs = k.crc.toNat)

/-- The state once an authentic packet is counted at its port and noted in its session (R340, R349, R351, R529). -/
def Sys2Proof.Claims.arrived (s : State) (k : Pkt) (ty : Kind) (crc : Option (List Byte)) (x : Sess) : State :=
  noteRx (countFrame s k x crc.isSome) (pktSess k) x k ty

/-- A packet that its session takes in as new (R18, R347, R350, R351): of a type the phase and the binding carry, neither a duplicate nor beyond
what SACK can mark, with no reserved encoding. `u` is the state it meets, `y` its session there. -/
abbrev Sys2Proof.Claims.Arrives (s : State) (k : Pkt) (ty : Kind) (crc : Option (List Byte)) (y : Sess) (u : State) : Prop :=
  ∃ x, Authentic s k ty crc x ∧ u = arrived s k ty crc x ∧ sessGet u (pktSess k) = some y ∧ phaseTakes y ty = true ∧ carries y.role ty = true ∧
    duplicate y k.seq = false ∧ ahead k.seq y.rxNext ≤ 64 ∧ reservedAt k = none

/-- What follows the effect of a bulk packet: its number is received, control packets behind it may execute, an acknowledgement is owed, and its own
acknowledgement fields are taken (R351, R353). -/
def Sys2Proof.Claims.bulkDone (t : State) (k : Pkt) (n : Nat) : State :=
  takeAck (owe (runHeld (match sessGet t (pktSess k) with | some y => sessPut t (pktSess k) (markRx y k.seq) | none => t) (pktSess k) n)
    (pktSess k)) (pktSess k) k

/-- What follows the effect of a control packet in its turn. -/
def Sys2Proof.Claims.controlDone (t : State) (k : Pkt) : State := takeAck (owe (runHeld t (pktSess k) 1) (pktSess k)) (pktSess k) k

/-- A bulk packet of a message that has not been refused: what its own rule takes or refuses is taken or refused. `u` is the state in which it
acts, `y` its session there. -/
abbrev Sys2Proof.Claims.BulkIn (s : State) (k : Pkt) (ty : Kind) (crc : Option (List Byte)) (y : Sess) (u : State) : Prop :=
  Arrives s k ty crc y u ∧ y.failed.contains k.msg = false

/-- A control packet in its turn, none held before it: `v` is the state in which its body executes, `y` its session there (R351, R353). -/
abbrev Sys2Proof.Claims.ControlIn (s : State) (k : Pkt) (ty : Kind) (y : Sess) (v : State) : Prop :=
  ∃ u z, Arrives s k ty none z u ∧ k.seq = z.rxNext ∧ z.held = [] ∧ z.reads = [] ∧ y = markRx z k.seq ∧ v = sessPut u (pktSess k) y

/-- BULK_WRITE, BULK_READ and BULK_RDATA (R357): a write of a tenant or a peer stores its bytes at the address plus the offset, through the
partition's translation; an administrator's stores them at the physical address; a read answers with the bytes there; data given back reach the
waiting owner. A stale EPOCH is refused with code 2 and recorded (R360). -/
def Obligations.BulkMessagesActOnMemory : Prop :=
  ∀ (s u : State) (k : Pkt) (y : Sess) (addr : Word64) (len off : Word32) (bs : List Byte),
    (BulkIn s k .bulkWrite (some bs) y u →
      (∀ n, contextCheck u (pktSess k) y k.epoch.toNat = .refuse 2 n →
        exec (.bulkWrite k addr len off bs) s =
          .next (bulkDone (refuseMsg (staleRecord u (pktSess k) y.partition) (pktSess k) k.msg 2 n) k (y.held.length + 1))) ∧
      (contextCheck u (pktSess k) y k.epoch.toNat = .taken → bits addr.toNat 48 15 = 0 → off.toNat + bs.length ≤ len.toNat → 0 < len.toNat →
        (∀ w, y.role ≠ .administrator → addr.toNat < 2 ^ 63 →
          vstore (tally u (ztPage (sessXdie (pktSess k))) 43 bs.length) y.partition (addr.toNat + off.toNat) bs = (w, none) →
          exec (.bulkWrite k addr len off bs) s = .next (bulkDone
            (countWindows w (sessXdie (pktSess k)) y.partition (addr.toNat + off.toNat) (addr.toNat + off.toNat + bs.length)) k
            (y.held.length + 1))) ∧
        (∀ w a, y.role = .administrator → 2 ^ 63 ≤ addr.toNat → a = addr.toNat % 2 ^ 48 → inMailbox a = false →
          adminMay (tally u (ztPage (sessXdie (pktSess k))) 43 bs.length) (a + off.toNat) (max 1 bs.length) = true →
          store (tally u (ztPage (sessXdie (pktSess k))) 43 bs.length) (a + off.toNat) bs = (w, none) →
          exec (.bulkWrite k addr len off bs) s = .next (bulkDone w k (y.held.length + 1))))) ∧
    (BulkIn s k .bulkRead none y u → contextCheck u (pktSess k) y k.epoch.toNat = .taken → bits addr.toNat 48 15 = 0 → 0 < len.toNat →
      ∀ (rtag : Word32),
        (∀ w, y.role ≠ .administrator → partRead u (pktSess k) y.partition addr.toNat len.toNat = (w, .ok bs) →
          exec (.bulkRead k addr len rtag) s = .next (bulkDone (answerRead w (pktSess k) k rtag.toNat bs) k (y.held.length + 1))) ∧
        (∀ w, y.role = .administrator → adminRead u (pktSess k) addr.toNat len.toNat = (w, .ok bs) →
          exec (.bulkRead k addr len rtag) s = .next (bulkDone (answerRead w (pktSess k) k rtag.toNat bs) k (y.held.length + 1)))) ∧
    (BulkIn s k .bulkRdata (some bs) y u → ∀ (rtag : Word32) (o : RdOwner) (left : Nat),
      y.rtags.find? (fun e => e.1 == rtag.toNat) = some (rtag.toNat, o, left) →
      ∃ v z, sessGet v (pktSess k) = some z ∧ z.rtags = (if left ≤ bs.length then y.rtags.filter (fun e => e.1 != rtag.toNat)
          else y.rtags.map (fun e => if e.1 = rtag.toNat then (rtag.toNat, o, left - bs.length) else e)) ∧
        exec (.bulkRdata k rtag off bs) s =
          .next (bulkDone (ownerData v (pktSess k) rtag.toNat o off.toNat bs (left - bs.length == 0)) k (y.held.length + 1)))

/-- Collective segments and multicast data, taken in as bulk packets (R364, R389, R390, R393, R394, R397): each has the effect of its own rule, or is
refused with that rule's STATUS, on the session's own partition. -/
def Obligations.SegmentsAreTaken : Prop :=
  ∀ (s u w : State) (k : Pkt) (y : Sess) (h : SegHdr) (a : Word32) (nblk : Half) (bs : List Byte) (v : State),
    v = tally (tally u (xPage (sessXdie (pktSess k)) 0x0A) 1 1) (xPage (sessXdie (pktSess k)) 0x0A) 13 (8 + bs.length) →
    (BulkIn s k .collSeg (some (leBytes 4 a.toNat ++ leBytes 4 nblk.toNat ++ bs)) y u →
      takeBlocks v (pktSess k) y.partition k h a.toNat nblk.toNat bs = (w, .taken) →
      exec (.blocks k h a nblk bs) s = .next (bulkDone w k (y.held.length + 1))) ∧
    (BulkIn s k .collSeg (some (leBytes 4 a.toNat ++ leBytes 4 0 ++ bs)) y u →
      (takeCombine v (pktSess k) y.partition 2 k h a.toNat bs = (w, .taken) →
        exec (.combineUp k h a bs) s = .next (bulkDone w k (y.held.length + 1))) ∧
      (takeCombine v (pktSess k) y.partition 3 k h a.toNat bs = (w, .taken) →
        exec (.combineDown k h a bs) s = .next (bulkDone w k (y.held.length + 1))) ∧
      (bs = [] → takeCredit v (pktSess k) y.partition k h = (w, .taken) →
        exec (.credit k h a) s = .next (bulkDone w k (y.held.length + 1))) ∧
      (bs = [] → ∀ code d, takeCredit v (pktSess k) y.partition k h = (w, .refuse code d) →
        exec (.credit k h a) s = .next (bulkDone (refuseMsg w (pktSess k) k.msg code d) k (y.held.length + 1)))) ∧
    (∀ (group : Half) (off : Word64) (n : Nat) (m : Mcast), BulkIn s k .mcastSeg (some bs) y u →
      contextCheck u (pktSess k) y k.epoch.toNat = .taken → mcFind u (sessXdie (pktSess k)) group.toNat = some (n, m) →
      m.partition = y.partition → off.toNat + bs.length ≤ m.len → mcStore u n m off.toNat bs = (w, none) →
      exec (.mcastSeg k group off bs) s = .next (bulkDone w k (y.held.length + 1)))

/-- DOORBELL (R308, R356): a doorbell that the register's checks let pass is a write of that queue's TAIL by the session's principal. STATUS
(R358): a code other than 0 fails what waited for that message; code 0 does nothing. SC_CLOSE (R349): the session is gone. A control packet of
a stale EPOCH is refused (R360). -/
def Obligations.ControlPacketsExecute : Prop :=
  ∀ (s v : State) (k : Pkt) (y : Sess),
    (∀ (id : Half) (tail : Word32) (who : Princ) (i : PageInfo), ControlIn s k .doorbell y v →
      (∀ n, contextCheck v (pktSess k) y k.epoch.toNat = .refuse 2 n → exec (.doorbell k id tail) s =
        .next (controlDone (refuseMsg (staleRecord v (pktSess k) y.partition) (pktSess k) (BitVec.ofNat 32 k.seq.toNat) 2 n) k)) ∧
      (contextCheck v (pktSess k) y k.epoch.toNat = .taken → id.toNat < 1024 →
        who = (if y.role = .administrator then Princ.administrator else .tenant y.partition) →
        Passes v who (galPage (id.toNat / 4) * 4096 + 0x210 + 0x40 * (id.toNat % 4)) tail.toNat (2 ^ 64 - 1) i →
        ∃ w, exec (.doorbell k id tail) s = .next (controlDone w k) ∧
          rd w (galPage (id.toNat / 4)) (fQTAIL (id.toNat % 4)) = tail.toNat ∧ SameMemory v w)) ∧
    (∀ (msg : Word32) (code : Byte) (detail : Word64), ControlIn s k .status y v →
      exec (.status k msg code detail) s = .next (controlDone (takeStatus v (pktSess k) y msg code.toNat detail.toNat) k) ∧
      (code = 0 → exec (.status k msg code detail) s = .next (controlDone v k))) ∧
    (∀ cause : Byte, ControlIn s k .sc y v → y.phase = .opened → 1 ≤ cause.toNat → cause.toNat ≤ 7 →
      ∃ t, t = closeSession v (pktSess k) cause.toNat ∧ exec (.scClose k cause) s = .next (controlDone t k) ∧ sessGet t (pktSess k) = none ∧
        rd t (ztPage (sessXdie (pktSess k))) fZTOPEN = rd v (ztPage (sessXdie (pktSess k))) fZTOPEN - 1)

/-- MCAST_CTRL (R364-R366): PUBLISH raises the published offset of the source's group and holds those bytes; DETACH detaches the node with its
event; ACCEPT attaches it; REFUSE has it catch up; JOIN of a child that is attached already is answered with ACCEPT. -/
def Sys2Proof.Claims.MulticastControlActs : Prop :=
  ∀ (s v : State) (k : Pkt) (y : Sess) (off : Word64) (n : Nat) (m : Mcast),
    (ControlIn s k (.mcastCtrl 1) y v → contextStopped v (sessXdie (pktSess k)) y.partition = false →
      mcPick v (pktSess k) (fun m => m.source && m.partition == y.partition) = some (n, m) → m.published ≤ off.toNat → off.toNat ≤ m.len →
      exec (.publish k off) s = .next (controlDone
        (mcPump (mcPut v n { m with published := off.toNat, received := addRange m.received 0 off.toNat }) n) k)) ∧
    (ControlIn s k (.mcastCtrl 2) y v → contextStopped v (sessXdie (pktSess k)) y.partition = false →
      mcPick v (pktSess k) (fun m => !m.source && m.parent.toNat == pktSess k) = some (n, m) →
      ∃ u, exec (.detach k off) s = .next (controlDone (mcCatch u n) k) ∧
        tfind u.mcast n = some { m with detached := true, joinAt := v.now, published := max m.published off.toNat } ∧
        (rd u (ztPage (sessXdie (pktSess k))) fEVTRAW).testBit 11 = true ∧ Counts v u (ztPage (sessXdie (pktSess k))) 68) ∧
    (ControlIn s k (.mcastCtrl 3) y v → contextStopped v (sessXdie (pktSess k)) y.partition = false →
      mcPick v (pktSess k) (fun m => m.children.any (fun c => c.session.toNat == pktSess k)) = some (n, m) →
      (m.children.any (fun c => c.session.toNat == pktSess k && c.attached) = true →
        exec (.join k off) s = .next (controlDone (mcSend v (pktSess k) 4 off.toNat) k)) ∧
      (m.children.any (fun c => c.session.toNat == pktSess k && c.attached) = false → mcSent m ≤ off.toNat + mcWindow m / 2 →
        ∃ u, exec (.join k off) s = .next (controlDone (mcPump (mcSend u (pktSess k) 4 off.toNat) n) k) ∧
          tfind u.mcast n = some { m with children := m.children.map (fun c => if c.session.toNat = pktSess k then
            { c with attached := true, acked := off.toNat, sent := off.toNat, heldSince := none } else c) } ∧
          (rd u (ztPage (sessXdie (pktSess k))) fEVTRAW).testBit 12 = true ∧ Counts v u (ztPage (sessXdie (pktSess k))) 69) ∧
      (m.children.any (fun c => c.session.toNat == pktSess k && c.attached) = false → off.toNat + mcWindow m / 2 < mcSent m →
        exec (.join k off) s = .next (controlDone (mcSend v (pktSess k) 5 (mcSent m)) k))) ∧
    (ControlIn s k (.mcastCtrl 4) y v → contextStopped v (sessXdie (pktSess k)) y.partition = false →
      mcPick v (pktSess k) (fun m => !m.source && m.parent.toNat == pktSess k) = some (n, m) →
      exec (.accept k off) s = .next (controlDone (mcPut v n { m with detached := false }) k)) ∧
    (ControlIn s k (.mcastCtrl 5) y v → contextStopped v (sessXdie (pktSess k)) y.partition = false →
      mcPick v (pktSess k) (fun m => !m.source && m.parent.toNat == pktSess k) = some (n, m) →
      exec (.refuse k off) s = .next (controlDone (mcCatch (mcPut v n { m with published := max m.published off.toNat }) n) k))

/-- CHILD_DETACH (R365): a child that has held its group for DETACH_US is detached, with the event and a DETACH sent to it. JOIN_TIMER (R366): a
node detached for DETACH_US asks its parent to join at the offset it holds without a gap, and goes on catching up; an attached one, or one
that asked within DETACH_US, does nothing. -/
def Sys2Proof.Claims.MulticastTimersAct : Prop :=
  ∀ (s : State) (x : Fin 6) (group : Half) (k : Nat) (m : Mcast), Live s → mcFind s x.val group.toNat = some (k, m) →
    (∀ (n : Fin 8) (c : McastChild) (t0 : Nat), m.children[n.val]? = some c → c.heldSince = some t0 → c.attached = true →
      (s.now < t0 + m.detachUs * 1000 → exec (.childDetach x group n) s = .next s) ∧
      (t0 + m.detachUs * 1000 ≤ s.now → contextStopped s x.val m.partition = false →
        ∃ u, exec (.childDetach x group n) s = .next (mcPump (mcSend u c.session.toNat 2 (mcSent m)) k) ∧
          tfind u.mcast k = some { m with children := m.children.set n.val { c with attached := false, heldSince := none } } ∧
          (rd u (ztPage x.val) fEVTRAW).testBit 11 = true ∧ Counts s u (ztPage x.val) 68 ∧ SameMemory s u)) ∧
    (m.detached = true → m.joinAt + m.detachUs * 1000 ≤ s.now → contextStopped s x.val m.partition = false → exec (.joinTimer x group) s =
      .next (mcCatch (mcSend (mcPut s k { m with joinAt := s.now }) m.parent.toNat 3 (contiguous m.received 0)) k)) ∧
    (m.detached = false ∨ s.now < m.joinAt + m.detachUs * 1000 → exec (.joinTimer x group) s = .next s)

/-- SC_INIT (R344, R345): of a key that the table authorises it fills the lowest free slot with a session that opens; of another it does nothing.
SC_ACCEPT: verified, it gives the session its keys and its remote number, and sends SC_CONFIRM; else the slot is free. SC_CONFIRM: verified, the
session is OPEN, counted and announced; else it is closed. -/
def Obligations.SessionsOpen : Prop :=
  (∀ (s : State) (x : PortId) (i : ScInit), Live s →
    (authorised s i.ed448 i.role.toNat i.partition.toNat = false → exec (.scInit x i) s = .next s) ∧
    ∀ (role : Role) (idx : Nat), roleOf i.role.toNat = some role → freeSlot s x.xdie.val = some idx → x.xdie.val < xdieCount s.code →
      accepts s x = true →
      s.boot.active.isSome = true → i.reserved = false → authorised s i.ed448 i.role.toNat i.partition.toNat = true → i.partition.toNat < 64 →
      ∃ t y, exec (.scInit x i) s = .next t ∧ sessGet t idx = some y ∧ y.phase = .opening ∧ y.role = role ∧ y.partition = i.partition.toNat ∧
        y.remote = i.iSession ∧ y.key = i.ed448 ∧ y.port = x.port.val ∧ y.address = i.address ∧ SameMemory s t) ∧
  (∀ (s : State) (i : Half) (a : ScAccept) (x : Sess) (tr : List Byte), Live s → sessGet s i.toNat = some x → x.phase = .initiating →
    x.txNext = 1 → accepts s a.port = true → a.port.xdie.val = sessXdie i.toNat → tr = Config.shake256 (x.transcript ++ acceptBytes a.rSession.toNat i.toNat a.nonce a.x448 a.ed448) 64 →
    (a.reserved = false ∧ authorised s a.ed448 (roleCode x.role) x.partition = true ∧ Config.ed448Verify a.ed448 [] tr a.signature = true →
      ∃ u v y, sessGet u i.toNat = some y ∧ y.remote = a.rSession ∧ y.key = a.ed448 ∧ y.transcript = tr ∧ y.asker = none ∧ SameMemory s u ∧
        v = send u i.toNat (.scConfirm (BitVec.ofNat 16 i.toNat) (Config.ed448Sign [] tr)) ∧
        exec (.scAccept i a) s = .next (match x.asker with | some k => mailDone v k.1 k.2 mDONE (leBytes 2 i.toNat) | none => v)) ∧
    (¬ (a.reserved = false ∧ authorised s a.ed448 (roleCode x.role) x.partition = true ∧ Config.ed448Verify a.ed448 [] tr a.signature = true) →
      ∃ t, exec (.scAccept i a) s = .next t ∧ sessGet t i.toNat = none)) ∧
  ∀ (s v : State) (k : Pkt) (y : Sess) (sig : List Byte), ControlIn s k .sc y v → y.phase = .opening →
    (Config.ed448Verify y.key [] y.transcript sig = true ∧ authorised v y.key (roleCode y.role) y.partition = true →
      ∃ w, exec (.scConfirm k sig) s = .next (controlDone w k) ∧ (sessGet w (pktSess k)).map unsent = some (unsent { y with phase := .opened }) ∧
        (rd v (ztPage (sessXdie (pktSess k))) fZTOPEN + 1 < 2 ^ 13 →
          rd w (ztPage (sessXdie (pktSess k))) fZTOPEN = rd v (ztPage (sessXdie (pktSess k))) fZTOPEN + 1) ∧
        (rd w (ztPage (sessXdie (pktSess k))) fEVTRAW).testBit 8 = true ∧ Counts v w (ztPage (sessXdie (pktSess k))) 32) ∧
    (¬ (Config.ed448Verify y.key [] y.transcript sig = true ∧ authorised v y.key (roleCode y.role) y.partition = true) →
      ∃ t, exec (.scConfirm k sig) s = .next t ∧ sessGet t (pktSess k) = none)

/-- A packet has gone out on session i, which is as `x` says but for what a packet sent moves: its packet number goes on, its time is now, and
what its acknowledgement fields say is said (R346, R349, R351). -/
abbrev Sys2Proof.Claims.Sent (s t : State) (i : Nat) (x : Sess) (o : Out) : Prop :=
  SameMemory s t ∧ (∃ p h, Out.packet p h o ∈ t.out) ∧
    ∃ y, sessGet t i = some y ∧ unsent y = unsent x ∧ x.pnTx < y.pnTx ∧ y.lastTx = s.now ∧ y.sinceAck = 0 ∧ y.ceSeen = false

/-- The timers of a session (R344, R349, R351, R352). A slot not confirmed within 1 s, or a session idle for IDLE_MS, is free. An acknowledgement
owed for 2 µs, or a quiet session's keepalive, is one ACK packet. A timeout after the lowest unacknowledged packet was last sent, it is sent again
with the timeout doubled and cwnd 8,192; past RETX_LIMIT the session closes. Before its time a timer does nothing. -/
def Sys2Proof.Claims.SessionTimersAct : Prop :=
  ∀ (s : State) (i : Half) (x : Sess), Live s → sessGet s i.toNat = some x →
    (x.phase = .opening → x.openedAt + 1000000000 ≤ s.now → ∃ t, exec (.scConfirmTimeout i) s = .next t ∧ sessGet t i.toNat = none) ∧
    (x.phase = .opening → s.now < x.openedAt + 1000000000 → exec (.scConfirmTimeout i) s = .next s) ∧
    (x.phase = .opened → x.lastRx + idleTime s i.toNat ≤ s.now → ∃ t, exec (.idleTimeout i) s = .next t ∧ sessGet t i.toNat = none) ∧
    (x.phase = .opened → s.now < x.lastRx + idleTime s i.toNat → exec (.idleTimeout i) s = .next s) ∧
    (x.pnTx + 2 < 2 ^ 48 →
      (1 ≤ x.sinceAck → x.owedAt + 2000 ≤ s.now → ∃ t, exec (.ackTimer i) s = .next t ∧
        Sent s t i.toNat x (.ack (BitVec.ofNat 16 i.toNat) x.rxNext x.rxSack x.ceSeen)) ∧
      (x.phase = .opened → x.lastTx + aliveTime s i.toNat ≤ s.now → ∃ t, exec (.keepalive i) s = .next t ∧
        Sent s t i.toNat x (.ack (BitVec.ofNat 16 i.toNat) x.rxNext x.rxSack x.ceSeen)) ∧
      ∀ k, x.tx.find? (fun k => k.gone && !k.sacked) = some k → k.sentAt + x.rto ≤ s.now →
        k.retx < rd s (ztPage (sessXdie i.toNat)) ⟨0x100, 32, 8⟩ →
        ∃ t, exec (.retransmissionTimeout i) s = .next t ∧ Sent s t i.toNat { x with
          rto := min (rd s (ztPage (sessXdie i.toNat)) ⟨0x100, 16, 16⟩ * 1000000) (2 * x.rto)
          cwnd := 8192
          tx := x.tx.map (fun d => if d.seq = k.seq then { d with retx := d.retx + 1, sentAt := s.now } else d) } k.body) ∧
    (x.sinceAck = 0 ∨ s.now < x.owedAt + 2000 → exec (.ackTimer i) s = .next s) ∧
    (s.now < x.lastTx + aliveTime s i.toNat → exec (.keepalive i) s = .next s) ∧
    ∀ k, x.tx.find? (fun k => k.gone && !k.sacked) = some k →
      (s.now < k.sentAt + x.rto → exec (.retransmissionTimeout i) s = .next s) ∧
      (k.sentAt + x.rto ≤ s.now → rd s (ztPage (sessXdie i.toNat)) ⟨0x100, 32, 8⟩ ≤ k.retx →
        ∃ t, exec (.retransmissionTimeout i) s = .next t ∧ sessGet t i.toNat = none)

/-- ACK (R351, R352): the acknowledgement fields are taken; with no packet newly acknowledged the session keeps those not below ACK, and what may
leave leaves. No packet that has left below ACK is kept. TRANSPORT_CONTEXT_STOPPED (R362): with every outbound message of a stopping partition
over, its contexts are stopped and the stop goes on. -/
def Sys2Proof.Claims.AcknowledgementsAndContexts : Prop :=
  (∀ (s : State) (k : Pkt) (x y : Sess) (u : State), Authentic s k .ack none x → u = arrived s k .ack none x →
    sessGet u (pktSess k) = some y → reservedAt k = none →
    exec (.ack k) s = .next (takeAck u (pktSess k) k) ∧
    (newlyAcked y k = [] → exec (.ack k) s = .next (pump (sessPut u (pktSess k) { y with tx := afterAck y k }) (pktSess k)))) ∧
  (∀ (x : Sess) (k : Pkt), ∀ d ∈ afterAck x k, ¬ (d.gone = true ∧ below d.seq k.ack = true)) ∧
  ∀ (s : State) (p : Fin 64), Live s →
    ((partGet s p.val).stopping = true → (partGet s p.val).ctxStopped = false → contextQuiet s p.val = true →
      exec (.transportContextStopped p) s = .next (stopProgress (partPut s p.val { partGet s p.val with ctxStopped := true }) p.val)) ∧
    ((partGet s p.val).stopping = false ∨ contextQuiet s p.val = false → exec (.transportContextStopped p) s = .next s)

/-- Multicast control packets and timers act on their group. -/
def Obligations.MulticastGroupsAct : Prop := MulticastControlActs ∧ MulticastTimersAct

/-- Session timers, acknowledgements, and the stop of a transport context. -/
def Obligations.TimersAndAcknowledgements : Prop := SessionTimersAct ∧ AcknowledgementsAndContexts


/-- A port that is fitted and RUNNING, on a live module, with its link up or not. -/
abbrev Sys2Proof.Claims.Fitted (s : State) (port : PortId) (up : Bool) : Prop :=
  Live s ∧ portRuns s port.xdie.val port.port.val = true ∧ portUp s port.xdie.val port.port.val = up

/-- Links (R333, R335, R337, R371). LINK_UP in the mode that its port trains in: the link stands at that speed, with bit 8. LINK_DOWN: it is down,
with bit 9, the frames that waited lost, and the sessions of the port go to one port, which is up, no ring port and of the same VLAN setting where
it is another; a ring port keeps its sessions. LANE_SPARING: the lane is among the failed and the link is down; where lanes remain and SPARE_EN is 1
the port trains at the widest mode left, with bit 10. A link that is up, or down, already, or another mode, changes nothing. -/
def Obligations.LinksRiseAndFall : Prop :=
  ∀ (s : State) (port : PortId) (pg : Nat), pg = portPage port.xdie.val port.port.val →
    (∀ speed, (Fitted s port false → trainMode s port.xdie.val port.port.val = some speed.val ∨ romPort s port.xdie.val port.port.val = true →
        ∃ t, exec (.linkUp port speed) s = .next t ∧ rd t pg fLINK = 1 ∧ rd t pg fSPEED = speed.val ∧
          (rd t pg fEVTRAW).testBit 8 = true ∧ Counts s t pg 91 ∧ OnlyRegs s t) ∧
      (trainMode s port.xdie.val port.port.val ≠ some speed.val → romPort s port.xdie.val port.port.val = false →
        exec (.linkUp port speed) s = .next s) ∧
      (Fitted s port true → exec (.linkUp port speed) s = .next s)) ∧
    (Fitted s port true → ∃ t q, exec (.linkDown port) s = .next t ∧ rd t pg fLINK = 0 ∧ (rd t pg fEVTRAW).testBit 9 = true ∧ Counts s t pg 92 ∧
      (portGet t port.xdie.val port.port.val).waiting = [] ∧
      (∀ i x, sessGet s i = some x → ∃ y, sessGet t i = some y ∧
        unsent y = unsent { x with port := if i / 8192 = port.xdie.val ∧ x.port = port.port.val then q else x.port }) ∧
      (isRingPort s.code port.xdie.val port.port.val = true → q = port.port.val) ∧
      (q ≠ port.port.val → q < 8 ∧ portUp t port.xdie.val q = true ∧ isRingPort s.code port.xdie.val q = false ∧
        rd t (portPage port.xdie.val q) fVLAN = rd t pg fVLAN) ∧ SameMemory s t) ∧
    (Fitted s port false → exec (.linkDown port) s = .next s) ∧
    ∀ (up : Bool) (lane : Fin 4), Fitted s port up →
      ∃ t, exec (.laneSparing port lane) s = .next t ∧ rd t pg fLINK = 0 ∧ rd t pg fLANES = (rd s pg fLANES ||| 2 ^ lane.val) ∧ SameMemory s t ∧
        (rd s pg fSPAREEN = 0 → rd t pg fSPEED = rd s pg fSPEED) ∧
        ∀ m, rd s pg fSPAREEN = 1 → spareMode (rd s pg fMODE) (rd s pg fLANES ||| 2 ^ lane.val) = some m →
          rd t pg fSPEED = m ∧ (rd t pg fEVTRAW).testBit 10 = true ∧ Counts s t pg 93

/-- NON_ZAZEL_FRAME, LLDP_TRANSMIT, LLDPDU_RECEIVE and PTP_EVENT_MESSAGE (R336-R338). A malformed frame is discarded and counted by its kind; one
without a taker is counted; one for the Curator goes to it, and its answer waits to be sent. An LLDPDU that is due is sent; the last received one is
kept, with bit 11 where it differs. A PTP event message is stamped at the MAC; a received one corrects the time on a slave port. -/
def Sys2Proof.Claims.FramesComeAndGo : Prop :=
  ∀ (s : State) (port : PortId) (pg x : Nat), pg = portPage port.xdie.val port.port.val → x = port.xdie.val → Fitted s port true →
    (∀ f : RxFrame,
      (∀ n, frameFate s x port.port.val f = .discard n → ∃ t, exec (.nonZazelFrame port f) s = .next t ∧ Counts s t pg n ∧ OnlyRegs s t) ∧
      (frameFate s x port.port.val f = .noTaker → ∃ t, exec (.nonZazelFrame port f) s = .next t ∧ Counts s t pg 90 ∧ Counts s t (xPage x 0) 7 ∧
        OnlyRegs s t) ∧
      (frameFate s x port.port.val f = .curator → ∃ t a, exec (.nonZazelFrame port f) s = .next t ∧ Out.toCurator port f ∈ t.out ∧
        resolveAnswer s x port.port.val f = some a ∧ QFrame.mk 0 a [] ∈ (portGet t x port.port.val).waiting ∧
        Counts s t pg 89 ∧ Counts s t (xPage x 0) 6 ∧ Counts s t (xPage x 0) 5 ∧ OnlyRegs s t) ∧
      (frameFate s x port.port.val f = .zazel → exec (.nonZazelFrame port f) s = .next s)) ∧
    (rd s pg fLLDPEN = 1 → lldpDue s x port.port.val = true → ∃ t, exec (.lldpTransmit port) s = .next t ∧
      Out.lldp port (portMac s 0 0) (ascii "X" ++ [BitVec.ofNat 8 (48 + x)] ++ ascii ".P" ++ [BitVec.ofNat 8 (48 + port.port.val)])
        (orderText s.code s.stepping) ∈ t.out ∧ (portGet t x port.port.val).lldpSent = some s.now ∧
      (∃ q ∈ (portGet t x port.port.val).waiting, q.frame.kind = .lldp) ∧ Counts s t pg 94 ∧ SameMemory s t) ∧
    (rd s pg fLLDPEN = 0 ∨ lldpDue s x port.port.val = false → exec (.lldpTransmit port) s = .next s) ∧
    (∀ b, ∃ t, exec (.lldpduReceive port b) s = .next t ∧ (portGet t x port.port.val).lldp = b ∧ Counts s t pg 95 ∧
      ((portGet s x port.port.val).lldp ≠ b → (rd t pg fEVTRAW).testBit 11 = true) ∧ SameMemory s t) ∧
    (∀ d, ∃ t, exec (.ptpEventMessage port true d) s = .next t ∧ Out.ptpStamp port s.now ∈ t.out ∧ Counts s t pg 96 ∧ OnlyRegs s t) ∧
    ∀ d, ∃ t, exec (.ptpEventMessage port false d) s = .next t ∧ Out.ptpStamp port s.now ∈ t.out ∧ Counts s t pg 97 ∧ SameMemory s t ∧
      t.now = if rd s pg fPTPEN = 1 then ((s.now : Int) + d).toNat else s.now

/-- EGRESS_FRAME (R339, R457). A frame that a rule refuses is dropped and counted by its rule. A frame towards the next hop leaves when the bucket
holds its length, and takes it; until then it waits. A frame to another destination beyond OTHER_PPS in its second is dropped as rule 4 says. Of the
frames that wait at the port the oldest of TC0 goes first; with none waiting nothing changes. -/
def Sys2Proof.Claims.EgressServesPort : Prop :=
  ∀ (s : State) (port : PortId) (pg x : Nat) (v : Port), pg = portPage port.xdie.val port.port.val → x = port.xdie.val → Fitted s port true →
    v = portGet s x port.port.val →
    (∀ f : TxFrame,
      (∀ r, egressRule s x port.port.val f = some r → ∃ t, exec (.egressFrame port (some f)) s = .next t ∧ Counts s t (scanPage x) (11 + r) ∧
        SameMemory s t ∧ portTokens t x port.port.val = portTokens s x port.port.val) ∧
      (egressRule s x port.port.val f = none → f.dstMac.toNat ≠ rd s pg fNHMAC → v.otherSecond = s.now / 1000000000 →
        rd s (scanPage x) fEGLPPS ≤ v.otherCount → ∃ t, exec (.egressFrame port (some f)) s = .next t ∧ Counts s t (scanPage x) 15 ∧
        SameMemory s t ∧ portTokens t x port.port.val = portTokens s x port.port.val) ∧
      (egressRule s x port.port.val f = none → f.dstMac.toNat = rd s pg fNHMAC → f.length < 9216 →
        (portTokens s x port.port.val < f.length * 2048 → exec (.egressFrame port (some f)) s = .next s) ∧
        (f.length * 2048 ≤ portTokens s x port.port.val → exec (.egressFrame port (some f)) s = .next (emit (portPut s x port.port.val
          { v with tokens := portTokens s x port.port.val - f.length * 2048, tokenAt := s.now }) (.frame port f [] false)))) ∧
      (egressRule s x port.port.val f = none → f.dstMac.toNat = rd s pg fNHMAC → 9216 ≤ f.length → 9216 * 2048 ≤ portTokens s x port.port.val →
        ∃ t, exec (.egressFrame port (some f)) s = .next t ∧ Out.frame port { f with length := 9216 } [] true ∈ t.out ∧
          Counts s t (scanPage x) 16)) ∧
    (v.waiting = [] → exec (.egressFrame port none) s = .next s) ∧
    ∀ q, classHead v.waiting 0 = some q →
      (egressDecide s x port.port.val q.frame = .waits → exec (.egressFrame port none) s = .next s) ∧
      (egressDecide s x port.port.val q.frame = .leaves → exec (.egressFrame port none) s =
        .next (egressPass (portPut s x port.port.val { v with waiting := dropFirst v.waiting q }) port q.frame (some q.cls) q.bytes))

/-- Frames at an up port, in and out. -/
def Obligations.FramesAtPort : Prop := FramesComeAndGo ∧ EgressServesPort

/-- The opening of an optical ring (R369): its loopback verified within TRAIN_MS, its switch settled, its neighbours trained within TRAIN_MS of that,
and the ring is OPEN with its ports no longer bypassed; TRAIN_MS over, it is bypassed again with cause 4. A row out of its turn changes nothing. -/
def Obligations.RingsOpenInOrder : Prop :=
  ∀ (s : State) (r : Ring), Live s →
    (rd s (xPage 0 0) (fRSTATE r) = 1 → trainOver s r = false → ∃ t, exec (.ringLoopbackVerified r) s = .next t ∧
      rd t (xPage 0 0) (fRSTATE r) = 2 ∧ t = { s with regs := t.regs }) ∧
    (rd s (xPage 0 0) (fRSTATE r) ≠ 1 ∨ trainOver s r = true → exec (.ringLoopbackVerified r) s = .next s) ∧
    (rd s (xPage 0 0) (fRSTATE r) = 2 → s.ringSettled.contains r = false → exec (.ringSwitchSettled r) s =
      .next { s with ringSettled := r :: s.ringSettled, ringAt := tins s.ringAt (ringNum r) s.now }) ∧
    (rd s (xPage 0 0) (fRSTATE r) ≠ 2 → exec (.ringSwitchSettled r) s = .next s ∧ exec (.ringNeighboursTrained r) s = .next s) ∧
    (rd s (xPage 0 0) (fRSTATE r) = 2 → s.ringSettled.contains r = true → trainOver s r = false →
      (∀ q ∈ ringPorts s.code r, portUp s q.1 q.2 = true) →
      ∃ t, exec (.ringNeighboursTrained r) s = .next t ∧ rd t (xPage 0 0) (fRSTATE r) = 3 ∧
        (∀ q ∈ ringPorts s.code r, rd t (portPage q.1 q.2) fBYPASSED = 0) ∧ (rd t (xPage 0 0) fEVTRAW).testBit 8 = true ∧
        Counts s t (xPage 0 0) (2 * ringNum r) ∧ r ∈ t.boot.ringsOpen ∧ SameMemory s t) ∧
    (rd s (xPage 0 0) (fRSTATE r) = 1 ∨ (rd s (xPage 0 0) (fRSTATE r) = 2 ∧ s.ringSettled.contains r = true) → trainOver s r = true →
      ∃ t, exec (.ringTrainTimeout r) s = .next t ∧ rd t (xPage 0 0) (fRSTATE r) = 0 ∧ rd t (xPage 0 0) (fRCAUSE r) = 4 ∧
        rd t (xPage 0 0) (fROPEN r) = 0 ∧ (∀ q ∈ ringPorts s.code r, rd t (portPage q.1 q.2) fBYPASSED = 1) ∧
        (rd t (xPage 0 0) fEVTRAW).testBit 9 = true ∧ t.ringSettled = s.ringSettled.filter (· != r) ∧ SameMemory s t) ∧
    (rd s (xPage 0 0) (fRSTATE r) = 0 ∨ rd s (xPage 0 0) (fRSTATE r) = 3 ∨ trainOver s r = false → exec (.ringTrainTimeout r) s = .next s)

/-- A reduction that has not fired or failed, whose engine is RUNNING and whose partition has its lead. -/
abbrev Sys2Proof.Claims.Waits (s : State) (x p : Nat) (rid : Half) (r : RedRun) (g : Nat) : Prop :=
  Live s ∧ redFind s x p rid.toNat = some r ∧ leadOf s p = some g ∧ redLive r = true ∧ running s (collPage x) = true

/-- REDUCTION_FIRE (R378, R379, R399): a trigger whose queue has halted fails the reduction with cause 2; triggers not all met leave it waiting;
a bad descriptor fails it with cause 1 and it counts as fired; an accepted one is fired and the leaf of every owner's shard is encoded. -/
def Sys2Proof.Claims.ReductionsFire : Prop :=
  ∀ (s : State) (x : Fin 6) (p : Fin 64) (run : FireRun) (r : RedRun) (g : Nat) (ts : List (Nat × Nat)), Waits s x.val p.val run.rid r g →
    r.fired = false → ts = (redTriggers r).filter (fun e => decide (e.1 < 1024)) →
    (ts.any (fenceHalted s) = true → ∃ t, exec (.reductionFire x p run) s = .next t ∧
      redFind t x.val p.val run.rid.toNat = some { r with failed := some 2 } ∧ Counts s t (collPage x.val) 6 ∧
      (rd t (collPage x.val) fEVTRAW).testBit 8 = true ∧ SameMemory s t) ∧
    (ts.any (fenceHalted s) = false → ts.all (fenceMet s) = false → exec (.reductionFire x p run) s = .next s) ∧
    (ts.any (fenceHalted s) = false → ts.all (fenceMet s) = true → redOk x.val r = false → ∃ t, exec (.reductionFire x p run) s = .next t ∧
      redFind t x.val p.val run.rid.toNat = some { r with fired := true, failed := some 1 } ∧ Counts s t (collPage x.val) 6 ∧ SameMemory s t) ∧
    (ts.any (fenceHalted s) = false → ts.all (fenceMet s) = true → redOk x.val r = true →
      (mayOriginate s x.val p.val = true ∨ ∀ o ∈ redOwners r, delegateOf r o (redSelf r / 8) = redSelf r) →
      ∃ u, exec (.reductionFire x p run) s =
          .next ((redOwners r).foldl (fun t o => fireOwner t x.val p.val run.rid.toNat g o run.fails) u) ∧
        redFind u x.val p.val run.rid.toNat = some { r with fired := true } ∧ Counts s u (collPage x.val) 5 ∧ OnlyRegs s { u with parts := s.parts })

/-- POINT_COMPUTE (R380-R382): a point with a child still to come waits. One with a single present child carries that child's block
unchanged. The root of two children writes their FP32 sums, element by element, to DST, and the block counts as written. Additions or an encoding
that fail their check are an uncorrectable word where the block would have gone, and the reduction fails (R443). -/
def Sys2Proof.Claims.PointsCombine : Prop :=
  ∀ (s : State) (x : Fin 6) (p : Fin 64) (rid o : Half) (code : BitVec 24) (block g : Nat) (r : RedRun) (pt a b : Point),
    Waits s x.val p.val rid r g → pointOf code.toNat = some pt → redOk x.val r = true → pointMine r o.toNat pt = true →
    block < redBlocks r o.toNat → pointDone r o.toNat block pt = false → childrenOf r o.toNat pt = some (a, b) →
    (childOf r o.toNat block a = .missing ∨ childOf r o.toNat block b = .missing → ∀ f, exec (.pointCompute x p rid code o ⟨block, f⟩) s = .next s) ∧
    (bufReadable s p.val r o.toNat block [a, b] = none →
      childOf r o.toNat block a ≠ .missing → childOf r o.toNat block b ≠ .missing →
      mayOriginate s x.val p.val = true → exec (.pointCompute x p rid code o ⟨block, true⟩) s = .next (redFailData s x.val p.val rid.toNat
        (failedWord s p.val (pointAddr r o.toNat block pt)).1 (failedWord s p.val (pointAddr r o.toNat block pt)).2)) ∧
    (bufReadable s p.val r o.toNat block [a, b] = none →
      (∀ v, (childOf r o.toNat block a = .block v ∧ childOf r o.toNat block b = .absent) ∨
          (childOf r o.toNat block a = .absent ∧ childOf r o.toNat block b = .block v) →
        pt ≠ topPoint r o.toNat (redSelf r / 8) → isRoot r o.toNat pt = false →
        exec (.pointCompute x p rid code o ⟨block, false⟩) s =
          .next (redPut s p.val { r with points := ⟨pointCode pt, o.toNat, block, v⟩ :: r.points })) ∧
      ∀ (l q : List Byte) (u : State) (sums : List Nat), childOf r o.toNat block a = .block l → childOf r o.toNat block b = .block q →
        isRoot r o.toNat pt = true → sums = (List.range 32).map (fun i => fadd ((bs8Decode l).getD i 0) ((bs8Decode q).getD i 0)) →
        vstore s p.val (leAt r.desc 22 6 + 128 * block)
          ((sums.take (min 32 (redElements r - (o.toNat * redShard r + 32 * block)))).flatMap (leBytes 4)) = (u, none) →
        vaultOpen u p.val = false →
        exec (.pointCompute x p rid code o ⟨block, false⟩) s = .next (redPut u p.val { r with roots := r.roots ++ [block] }))

/-- COMBINE_ENTRY (R392-R394). A module that may enter does so once, with its own flags, contribution and records, and then passes on what has
gathered; one that stands alone enters COMPLETE 0 and its result is the step's. A module that may not enter moves a combine that waited, and one
with nothing to move stands. -/
def Obligations.CombineIsEntered : Prop :=
  ∀ (s v : State) (p : Fin 64) (f : Option Nat) (g : Nat) (own : Combined), Live s → leadOf s p.val = some g →
    (mayEnter s p.val = false → exec (.combineEntry ⟨p, f⟩) s = .next (combinePump s p.val) ∧
      ((partGet s p.val).coll.entered = false ∨ (partGet s p.val).coll.upSent = true → combinePump s p.val = s)) ∧
    (mayEnter s p.val = true → vaultOpen s p.val = false →
      (∀ h, jobPlace (partGet s p.val).coll = some h → ownEntry s p.val g false f = (v, own) → ∃ u,
        exec (.combineEntry ⟨p, f⟩) s = .next (combinePump u p.val) ∧ (partGet u p.val).coll.entered = true ∧ (partGet u p.val).coll.alone = false ∧
        (partGet u p.val).coll.merged = some own ∧ (partGet u p.val).stp.lFinite = own.finite ∧ (partGet u p.val).stp.lComplete = own.complete ∧
        (∀ h ∈ partGals v p.val, rd u (cenPage h) fLASTFIN = b2n own.finite) ∧ SameMemory s u) ∧
      (jobPlace (partGet s p.val).coll = none → ownEntry s p.val g true f = (v, own) → ∃ u,
        exec (.combineEntry ⟨p, f⟩) s = .next (applyResult u p.val { own with complete := false }) ∧ (partGet u p.val).coll.entered = true ∧
        (partGet u p.val).coll.alone = true ∧ (partGet u p.val).stp.lComplete = own.complete ∧ Counts v u (collPage 0) 6 ∧ SameMemory s u))

/-- CHANNEL_ARRIVAL (R397): with the slot's bytes all received, the consumer's queue has its TAIL moved on by the commands of a slot; with fewer
nothing changes. CHANNEL_RELEASE: with the slot's commands completed, its credit goes to the producer; with fewer nothing changes. -/
def Obligations.ChannelsPassCredits : Prop :=
  ∀ (s : State) (x : Fin 6) (p : Fin 64) (ch : Half) (a : Nat) (b r : List Byte), Live s → chanAddr s x.val p.val ch.toNat = some a →
    chanLive s x.val p.val ch.toNat = true → vload s p.val a 64 = .ok b → leAt b 0 1 = 2 → leAt b 12 4 ≠ 0 →
    (vload s p.val (leAt b 22 6 + 16 * (leAt b 40 4 % leAt b 12 4)) 16 = .ok r →
      (leAt r 0 8 < leAt b 32 8 → exec (.channelArrival x p ch) s = .next s) ∧
      ∀ u, leAt b 32 8 ≤ leAt r 0 8 → advanceTail s p.val (leAt b 6 2) (leAt b 8 4) = some u →
        ∃ t, exec (.channelArrival x p ch) s = .next t ∧ Counts s t (collPage x.val) 8 ∧
          rd t (galPage (leAt b 6 2 / 4)) (fQTAIL (leAt b 6 2 % 4)) =
            (rd s (galPage (leAt b 6 2 / 4)) (fQTAIL (leAt b 6 2 % 4)) + leAt b 8 4) % 2 ^ 32) ∧
    (mayOriginate s x.val p.val = true → sessOpen s (leAt b 2 2) = true → leAt b 44 4 ≠ leAt b 40 4 →
      vload s p.val (leAt b 22 6 + 16 * (leAt b 44 4 % leAt b 12 4)) 16 = .ok r → ownsQueue s p.val (leAt b 6 2) = true →
      (2 ^ 31 ≤ (rd s (galPage (leAt b 6 2 / 4)) (fQDONE (leAt b 6 2 % 4)) + 2 ^ 32 - leAt r 8 4) % 2 ^ 32 →
        exec (.channelRelease x p ch) s = .next s) ∧
      ((rd s (galPage (leAt b 6 2 / 4)) (fQDONE (leAt b 6 2 % 4)) + 2 ^ 32 - leAt r 8 4) % 2 ^ 32 < 2 ^ 31 →
        ∃ t u v e, exec (.channelRelease x p ch) s = .next t ∧
          u = chanStore s x.val p.val ch.toNat (a + 44) (leBytes 4 ((leAt b 44 4 + 1) % 2 ^ 32)) ∧ peerEpoch u p.val (leAt b 2 2) = (v, e) ∧
          t = tally (tally (sendSeg v (leAt b 2 2) e 4
            ⟨0xFFFF, 0, 0, BitVec.ofNat 16 (leAt b 4 2), BitVec.ofNat 32 (stepNow s p.val), false⟩ (leAt b 44 4 % leAt b 12 4) 0 [])
            (collPage x.val) 9 1) (collPage x.val) 10 1))

/-- A reduction fires, and its points combine. -/
def Obligations.ReductionsRun : Prop := ReductionsFire ∧ PointsCombine


/-- The checkpoint engine of a partition (R403). -/
def Sys2Proof.Claims.ckpt (s : State) (p : Fin 64) : Resil := (partGet s p.val).res

/-- Images leave the module (R411-R413). To the Vault: the header as unsealed (order 1), the pieces that are dirty (order 2), the header as
sealed (order 4), each once the one before is acknowledged. To flash: the image that has fallen due, and then its header as whole, with bit 10.
To the store: at its cadence the newest flash image. -/
def Obligations.ImagesLeave : Prop :=
  ∀ (s : State) (p : Fin 64), Live s →
    (vaultReady s p.val = true → (ckpt s p).streamMsgs = [] →
      (∀ (c : Nat) (u : State) (ms : List Word32), (ckpt s p).stream = none → (ckpt s p).due = true → (partGet s p.val).stp.run = none →
        c = (stepNow s p.val + 2 ^ 32 - 1) % 2 ^ 32 → vaultWrite s p.val (32 * (c % 2)) (headerRecord c 1 0 s.now) 3 = (u, ms) →
        exec (.vaultImageStream p) s =
          .next (resPut u p.val { ckpt u p with due := false, stream := some (c % 2, c, false), streamMsgs := ms })) ∧
      (∀ (h c len : Nat) (ps : List (Nat × List Byte)) (u : State) (ms : List Word32), (ckpt s p).stream = some (h, c, false) →
        imagePieces s p.val ((ckpt s p).dirty.getD h none) = .ok (ps, len) → vaultPieces s p.val (halfAt len h) ps = (u, ms) →
        exec (.vaultImageStream p) s = .next (resPut u p.val
          { ckpt u p with stream := some (h, c, true), streamMsgs := ms, dirty := setAt (ckpt u p).dirty h (some []) })) ∧
      ∀ (h c : Nat), (ckpt s p).stream = some (h, c, true) → exec (.vaultImageStream p) s = .next s ∧
        ∃ t u ms, exec (.halfSealed p) s = .next t ∧ vaultWrite s p.val (32 * h) (headerRecord c 2 (halfLen s p.val) s.now) 3 = (u, ms) ∧
          ckpt t p = { ckpt u p with stream := none, streamMsgs := ms, sealedAt := setAt (ckpt s p).sealedAt h (some c) } ∧
          Counts u t (resPage s) 2) ∧
    ((ckpt s p).stream = none → exec (.halfSealed p) s = .next s ∧ ((ckpt s p).due = false → exec (.vaultImageStream p) s = .next s)) ∧
    ((ckpt s p).flashDue = none → exec (.flashImage p) s = .next s) ∧
    (∀ c, (ckpt s p).flashDue = some c → (ckpt s p).flash = none → running s (resPage s) = true → exec (.flashImage p) s =
      .next (flashImageTo (resPut s p.val { ckpt s p with flashDue := none }) p.val (c / rdEVERY (ckpt s p).desc % 2) c).1) ∧
    ((ckpt s p).flash = none → exec (.flashImageDone p) s = .next s) ∧
    (∀ slot c, (ckpt s p).flash = some (slot, c) → ∃ t, exec (.flashImageDone p) s = .next t ∧ (ckpt t p).flash = none ∧
      (ckpt t p).flashAt = setAt (ckpt s p).flashAt slot (some c) ∧ (rd t (resPage s) fEVTRAW).testBit 10 = true ∧ Counts s t (resPage s) 3) ∧
    (s.now < (ckpt s p).storeAt + rdPERIOD (ckpt s p).desc ∨ (ckpt s p).store.isSome = true → exec (.storeCopy p) s = .next s) ∧
    ((ckpt s p).desc ≠ [] → (ckpt s p).broken = false → (ckpt s p).store = none → rdSTORE (ckpt s p).desc ≠ 0xFFFF →
      (ckpt s p).storeAt + rdPERIOD (ckpt s p).desc ≤ s.now → running s (resPage s) = true →
      exec (.storeCopy p) s = .next (if storeOpen s p.val = true ∧ (partGet s p.val).ctxStopped = false
        then storeStart (resPut s p.val { ckpt s p with storeAt := s.now }) p.val else resPut s p.val { ckpt s p with storeAt := s.now }))

/-- The seven requests of a partition's checkpoint engine (R431). -/
def Sys2Proof.Claims.resRows : List (Nat × (Fin 64 → Instr)) :=
  [(1, .restart), (2, .finish), (3, .restore), (4, .replay), (5, .repoint), (6, .flashNow), (7, .storeNow)]

/-- A request of a live module whose checkpoint engine is RUNNING waits, with an operation code. -/
abbrev Sys2Proof.Claims.Waiting (s : State) (p : Fin 64) (op : Nat) : Prop :=
  Live s ∧ rd s (resPage s) (fRCBUSY p.val) = 1 ∧ running s (resPage s) = true ∧ resOp s p.val = op

/-- A request has ended with a RESULT, with bit 9. -/
abbrev Sys2Proof.Claims.Closes (s t : State) (p : Fin 64) (code : Nat) : Prop :=
  rd t (resPage s) (fRRESULT p.val) = code ∧ rd t (resPage s) (fRCBUSY p.val) = 0 ∧ (rd t (resPage s) fEVTRAW).testBit 9 = true

/-- Requests (R417, R418, R421, R422, R431). A reserved code ends with ENCODING; a row out of its turn changes nothing. The
fields of a request are those that its GO found (the model's reading, notes/assumptions/162). RESTART needs the step
named and a quiet module. FINISH by another source ends at once. RESTORE of a partition that is not STOPPED ends with STATE. REPLAY opens the
gate with both flags set and the N it reads. FLASH_NOW and STORE_NOW need something to write; a store whose session is closed is SESSION. -/
def Obligations.ResilienceRequestsEnd : Prop :=
  ∀ (s : State) (p : Fin 64),
    (∀ row ∈ resRows,
      (Live s → rd s (resPage s) (fRCBUSY p.val) = 0 → exec (row.2 p) s = .next s) ∧
      (∀ op, Waiting s p op → op ≠ row.1 → (1 ≤ op ∧ op ≤ 7 → exec (row.2 p) s = .next s) ∧
        (op = 0 ∨ 8 ≤ op → ∃ t, exec (row.2 p) s = .next t ∧ Closes s t p 5 ∧ SameMemory s t))) ∧
    (Waiting s p 1 →
      (leadOf s p.val = none ∨ isQuiet s p.val = false ∨ resStep s p.val ≠ stepNow s p.val ∨
        (partGet s p.val).stp.run.isSome = true → ∃ t, exec (.restart p) s = .next t ∧ Closes s t p 1 ∧ SameMemory s t) ∧
      ∀ (g n : Nat) (u v : State), leadOf s p.val = some g → isQuiet s p.val = true → n = resStep s p.val →
        n = stepNow s p.val → (partGet s p.val).stp.run = none → u = clearWires s p.val g n → vaultOpen s p.val = false →
        v = collStart (partPut u p.val { partGet u p.val with
          stp := { (partGet u p.val).stp with job := none }, coll := { (partGet u p.val).coll with result := none } }) p.val n
          (partGet u p.val).coll.tabs →
        ∃ t, exec (.restart p) s = .next t ∧ Closes s t p 0 ∧
          t = resEnd ((partGet v p.val).coll.reds.foldl (fun t r => redFire t r.xdie p.val r.rid none) v) p.val 0) ∧
    (Waiting s p 2 → resStep s p.val = stepNow s p.val → (partGet s p.val).coll.reds ≠ [] → (partGet s p.val).coll.reds.any redComplete = false →
      ∃ t, exec (.finish p) s = .next t ∧ Closes s t p 1 ∧ OnlyRegs s t) ∧
    (Waiting s p 2 → (partGet s p.val).coll.reds.any redComplete = true →
      (resSource s p.val ≠ groupSelf (partGet s p.val).coll.job →
        ∃ t, exec (.finish p) s = .next t ∧ Closes s t p 0 ∧ OnlyRegs s t) ∧
      ∀ (c : Combined), resSource s p.val = groupSelf (partGet s p.val).coll.job →
        groupOk (partGet s p.val).coll.job (partGet s p.val).coll.jobMembers = true →
        heldResult s p.val (resStep s p.val) = some c → ∃ t, exec (.finish p) s = .next t ∧ Closes s t p 0 ∧
          t = resEnd (((hereMembers (partGet s p.val).coll.job (partGet s p.val).coll.jobMembers).filter
            (· != groupSelf (partGet s p.val).coll.job)).foldl (fun t m => sendCombine t p.val 3 m c) s) p.val 0) ∧
    (Waiting s p 3 → (ckpt s p).restore = none →
      (rd s rootPage (fPSTATE p.val) ≠ 2 → ∃ t, exec (.restore p) s = .next t ∧ Closes s t p 1 ∧ SameMemory s t) ∧
      ∀ u i, rd s rootPage (fPSTATE p.val) = 2 → readDesc s p.val = (u, 0) → i = rdVAULT (ckpt u p).desc → peerOpen u p.val i = true →
        exec (.restore p) s = .next (restoreRead (resPut u p.val { ckpt u p with
          restore := some ⟨resStep s p.val, 0, 0, 0, .header, 4096, [], [], []⟩, readFailed := false }) p.val i
          (rdVBASE (ckpt u p).desc) 4096 0)) ∧
    (Waiting s p 3 → (ckpt s p).restore.isSome = true →
      ((ckpt s p).readFailed = true → ∃ t, exec (.restore p) s = .next t ∧ Closes s t p 4 ∧ (ckpt t p).restore = none) ∧
      ((ckpt s p).readFailed = false → exec (.restore p) s = .next s)) ∧
    (Waiting s p 4 → (ckpt s p).replay = none →
      (resStep s p.val ≠ stepNow s p.val ∨ (partGet s p.val).stp.job.isSome = true →
        ∃ t, exec (.replay p) s = .next t ∧ Closes s t p 1 ∧ SameMemory s t) ∧
      ∀ (g : Nat) (d : List Byte), leadOf s p.val = some g → resStep s p.val = stepNow s p.val →
        (partGet s p.val).stp.started = true → (partGet s p.val).stp.job = none → (partGet s p.val).stp.dead = false →
        vload s p.val (rd s (resPage s) (fRBASE p.val)) 64 = .ok d →
        exec (.replay p) s = .next (partPut s p.val { partGet s p.val with
          stp := { (partGet s p.val).stp with job := some (true, true, leAt d 60 4), gateAt := s.now },
          res := { ckpt s p with replay := some (stepNow s p.val) } })) ∧
    (Waiting s p 5 → ∀ (u : State) (c : Nat), readDesc s p.val = (u, c) → c < 16 →
      (c ≠ 0 ∨ rdVAULT (ckpt u p).desc = 0xFFFF → ∃ t, exec (.repoint p) s = .next t ∧ Closes s t p c ∧ t = resEnd u p.val c) ∧
      (c = 0 → rdVAULT (ckpt u p).desc ≠ 0xFFFF → peerOpen u p.val (rdVAULT (ckpt u p).desc) = false →
        ∃ t, exec (.repoint p) s = .next t ∧ Closes s t p 4)) ∧
    (Waiting s p 6 →
      ((ckpt s p).lastStep = none → ∃ t, exec (.flashNow p) s = .next t ∧ Closes s t p 1 ∧ SameMemory s t) ∧
      ∀ c u e, (ckpt s p).lastStep = some c → (ckpt s p).desc ≠ [] → (ckpt s p).broken = false → rdEVERY (ckpt s p).desc ≠ 0 →
        (ckpt s p).flash = none → (ckpt s p).flashDue = none → (ckpt s p).store ≠ some ((c / rdEVERY (ckpt s p).desc + 1) % 2) →
        (partGet s p.val).stp.run = none → flashImageTo s p.val ((c / rdEVERY (ckpt s p).desc + 1) % 2) c = (u, e) →
        ∃ t, exec (.flashNow p) s = .next t ∧ Closes s t p e ∧ t = resEnd u p.val e) ∧
    (Waiting s p 7 →
      (newestSlot (ckpt s p) = none → ∃ t, exec (.storeNow p) s = .next t ∧ Closes s t p 1 ∧ SameMemory s t) ∧
      ((ckpt s p).desc ≠ [] → (ckpt s p).broken = false → (ckpt s p).store = none → newestSlot (ckpt s p) ≠ none →
        (storeOpen s p.val = false → ∃ t, exec (.storeNow p) s = .next t ∧ Closes s t p 4 ∧ SameMemory s t) ∧
        (storeOpen s p.val = true → ∃ t, exec (.storeNow p) s = .next t ∧ Closes s t p 0 ∧ t = resEnd (storeStart s p.val) p.val 0)))


/-- The power sequence (R470-R474, R483, R550, R556, R557). PWR_EN rising with VIN in range begins the ramp, everything but module flash cleared.
A rail's power-good counts in its turn, and with the last one the module is on, with PWR_CAUSE power-on unless a fault's cause is kept. PWR_EN
falling, or VIN lost, takes the rails down; VIN back brings up VIN and VAUX alone. A power-stage fault or a thermal trip holds the module,
with its cause. -/
def Obligations.PowerSequence : Prop :=
  ∀ s : State,
    (s.power.pwrEn = true → exec .pwrEnRise s = .next s) ∧
    (s.power.pwrEn = false → s.power.vinOk = true →
      s.power.phase = .off ∨ (s.power.phase = .held ∧ ∃ a, s.power.pwrEnLowAt = some a ∧ a + 100000000 ≤ s.now) →
      ∃ t, exec .pwrEnRise s = .next t ∧ t.power.phase = .ramping ∧ t.power.good = [.vin, .vaux] ∧ t.power.pwrEn = true ∧ t.power.mReset = false ∧
        t.mem = s.mem.filter (fun e => decide (flashBase ≤ e.1) && decide (e.1 < flashTop)) ∧ t.sess = [] ∧ t.parts = [] ∧ t.gals = [] ∧
        t.boot.active = none ∧ t.boot.rcd = s.boot.rcd ∧ t.boot.slot = s.boot.slot) ∧
    (s.power.pwrEn = false → s.power.vinOk = false ∨ (s.power.phase = .held ∧ ∀ a, s.power.pwrEnLowAt = some a → s.now < a + 100000000) →
      exec .pwrEnRise s = .next { s with power := { s.power with pwrEn := true, pwrEnLowAt := none } }) ∧
    (∀ r, s.power.phase = .ramping ∧ (rampNext s.code s.power.good).contains r = true →
      (rampNext s.code (s.power.good ++ [r]) ≠ [] ∨ s.power.resetN = false →
        exec (.railPowerGood r) s = .next { s with power := { s.power with good := s.power.good ++ [r] } }) ∧
      (rampNext s.code (s.power.good ++ [r]) = [] → s.power.resetN = true → ∃ t, exec (.railPowerGood r) s = .next t ∧
        t.power = { s.power with good := s.power.good ++ [r], phase := .on, keepCause := false } ∧ SameMemory s t ∧
        rd t pwrPage fPCAUSE = if s.power.keepCause = true then rd s pwrPage fPCAUSE else 0)) ∧
    (∀ r, ¬ (s.power.phase = .ramping ∧ (rampNext s.code s.power.good).contains r = true) → exec (.railPowerGood r) s = .next s) ∧
    (s.power.pwrEn = false → exec .pwrEnFall s = .next s) ∧
    (s.power.pwrEn = true → ∃ t, exec .pwrEnFall s = .next t ∧ t.power.pwrEn = false ∧ t.power.pwrEnLowAt = some s.now ∧
      t.power.phase = (if s.power.phase = .held then .held else .off) ∧ (∀ r ∈ t.power.good, r = .vin ∨ r = .vaux) ∧
      (s.power.phase = .on → ∀ g, rd t (xPage 0 0) (fRSTATE g) = 0) ∧ SameMemory s t) ∧
    (∃ t, exec .vinOutOfRange s = .next t ∧ t.power.phase = .off ∧ t.power.good = [] ∧ t.power.vinOk = false ∧ rd t pwrPage fPCAUSE = 0 ∧
      SameMemory s t) ∧
    (s.power.vinOk = false → exec .vinInRange s = .next { s with power := { s.power with vinOk := true, good := [.vin, .vaux] } }) ∧
    (s.power.vinOk = true → exec .vinInRange s = .next s) ∧
    (s.power.phase = .on ∨ s.power.phase = .ramping →
      (∀ r, ∃ t, exec (.powerStageFault r) s = .next t ∧ t.power.phase = .held ∧ t.power.faultAlert = true ∧ t.power.keepCause = true ∧
        rd t pwrPage fPCAUSE = 5 ∧ rd t pwrPage fPRAIL = railNum r ∧ SameMemory s t) ∧
      ∀ d : Fin 10, dieFitted s.code d.val = true → ∃ t, exec (.thermalTrip d) s = .next t ∧ t.power.phase = .held ∧ t.power.thermtripN = false ∧
        t.power.keepCause = true ∧ rd t pwrPage fPCAUSE = 6 ∧ SameMemory s t) ∧
    (s.power.phase = .off ∨ s.power.phase = .held → (∀ r, exec (.powerStageFault r) s = .next s) ∧ ∀ d, exec (.thermalTrip d) s = .next s)

/-- An M reset with a cause: begun now, where the time base counts from, everything but module flash cleared (R485, R487, R519). -/
abbrev Sys2Proof.Claims.ResetsM (s t : State) (cause rail : Nat) : Prop :=
  t.power.mReset = true ∧ t.power.phase = .on ∧ t.now = 0 ∧ t.power.resetAt = 0 ∧ rd t pwrPage fPCAUSE = cause ∧ rd t pwrPage fPRAIL = rail ∧
    t.mem = s.mem.filter (fun e => decide (flashBase ≤ e.1) && decide (e.1 < flashTop)) ∧ t.sess = [] ∧ t.parts = [] ∧ t.gals = [] ∧
    t.boot.active = none

/-- Resets (R473, R477, R485-R487, R556, R558). RESET_N low for 100 ns or less does nothing; low for 1 µs or more it begins an M reset with
cause 1, and a reset under way begins its time again. The module stays in reset until RESET_N is high and 1 ms has passed. VCORE below its
reset level, a request of kind 1, and VBUS, VHBM or VSER out of range each begin one with its own cause; VOPT out of range bypasses both rings.
A request of kind 2 empties a gallery and its cabinet; one of kind 3 takes a port's link down and ends. -/
def Obligations.ResetsTakeEffect : Prop :=
  ∀ s : State,
    (∀ n, n ≤ 100 → exec (.resetNAssert n) s = .next s) ∧
    (∀ n, 1000 ≤ n → s.power.phase = .on →
      (s.power.mReset = false → ∃ t, exec (.resetNAssert n) s = .next t ∧ ResetsM s t 1 0 ∧ t.power.resetN = false) ∧
      (s.power.mReset = true → exec (.resetNAssert n) s = .next { s with power := { s.power with resetN := false, resetAt := s.now } })) ∧
    (∀ n, 1000 ≤ n → s.power.phase ≠ .on → exec (.resetNAssert n) s = .next { s with power := { s.power with resetN := false } }) ∧
    (s.power.phase ≠ .ramping ∨ rampNext s.code s.power.good ≠ [] →
      exec .resetNDeassert s = .next { s with power := { s.power with resetN := true } }) ∧
    (s.power.phase = .ramping → rampNext s.code s.power.good = [] → ∃ t, exec .resetNDeassert s = .next t ∧
      t.power = { s.power with resetN := true, phase := .on, keepCause := false } ∧ SameMemory s t) ∧
    (s.power.mReset = true → s.power.resetN = true → s.power.resetAt + 1000000 ≤ s.now → exec .mResetRelease s = .next { s with power := { s.power with mReset := false } }) ∧
    (s.power.mReset = false ∨ s.power.resetN = false ∨ s.now < s.power.resetAt + 1000000 → exec .mResetRelease s = .next s) ∧
    (∀ d : Fin 10, s.power.phase = .on → s.power.mReset = false → dieFitted s.code d.val = true →
      ∃ t, exec (.vcoreResetLevel d) s = .next t ∧ ResetsM s t 2 (3 + d.val)) ∧
    (∀ d : Fin 10, dieFitted s.code d.val = false → exec (.vcoreResetLevel d) s = .next s) ∧
    (Live s → (∀ r, r = .vbus ∨ r = .vhbm ∨ r = .vser → ∃ t, exec (.railFault r) s = .next t ∧ ResetsM s t 4 (railNum r)) ∧
      (∃ t, exec (.railFault .vopt) s = .next t ∧ (∀ g, rd t (xPage 0 0) (fRSTATE g) = 0) ∧
        (∀ g, ∀ q ∈ ringPorts s.code g, portUp t q.1 q.2 = false) ∧ (rd t pwrPage fALERT).testBit 3 = true ∧ SameMemory s t) ∧
      (resetAsked s 1 = true → ∃ t, exec .mRequest s = .next t ∧ ResetsM s t 3 0 ∧ rd t pwrPage fRBUSY = 0) ∧ (resetAsked s 1 = false → exec .mRequest s = .next s) ∧
      (resetAsked s 2 = true → ∃ t, exec .gRequest s = .next t ∧ t.power.gBusy = true ∧ (galGet t (galPage (resetTarget s))).fill = .reset ∧
        (galGet t (galPage (resetTarget s))).caddies = [] ∧
        ∀ a, cabAddr t (galPage (resetTarget s)) 0 ≤ a → a < cabAddr t (galPage (resetTarget s)) 0 + cabSize → tfind t.mem a = none) ∧
      (resetAsked s 2 = false → exec .gRequest s = .next s) ∧
      (∀ x q, resetAsked s 3 = true → x = bits s.power.rstReq 12 3 → q = bits s.power.rstReq 8 3 → x < xdieCount s.code →
        ∃ t, exec .lRequest s = .next t ∧ portUp t x q = false ∧ rd t pwrPage fRBUSY = 0 ∧ (rd t pwrPage fEVTRAW).testBit 10 = true ∧
          SameMemory s t) ∧
      (resetAsked s 3 = false → exec .lRequest s = .next s))

/-- Warnings and temperature (R475, R476, R481, R482, R494). A VCORE rail that enters warning shows it, its reading and one more event, and the
die's duty is the lesser of the warning's, for a C-die, and the thermal one; leaving warning lifts it. A reading of the junction sets the
thermal duty of R482: 16 below 95, one sixteenth less a degree from 95 on, no lower than 2, and 15 down to 93 while throttling. A die that is
not fitted, or is already so, changes nothing. -/
def Obligations.WarningsThrottle : Prop :=
  ∀ (s : State) (d : Fin 10) (pg : Nat), Live s → pg = monitorPage d.val →
    (∀ mv : BitVec 10, dieFitted s.code d.val = true → rd s pg fWARN = 0 →
      ∃ t, exec (.railWarningEntry d mv) s = .next t ∧ rd t pg fWARN = 1 ∧ rd t pg fMV = mv.toNat ∧ rd t pg fMINMV = min (rd s pg fMINMV) mv.toNat ∧
        rd t pg fWEVENTS = satAdd 32 (rd s pg fWEVENTS) 1 ∧ (rd t pg fEVTRAW).testBit 8 = true ∧ (rd t pwrPage fALERT).testBit 1 = true ∧
        rd t pg fDUTY = min (if d.val < 4 then rd s pg fWDUTY else 16) (tget 16 s.power.thermDuty d.val) ∧ SameMemory s t) ∧
    (∀ mv : BitVec 10, dieFitted s.code d.val = true → rd s pg fWARN = 1 →
      ∃ t, exec (.railWarningExit d mv) s = .next t ∧ rd t pg fWARN = 0 ∧ rd t pg fMV = mv.toNat ∧ (rd t pg fEVTRAW).testBit 9 = true ∧
        rd t pg fWTIME = satAdd 32 (rd s pg fWTIME) ((s.now - tget s.now s.power.warnSince d.val) / 1000) ∧
        rd t pg fDUTY = min 16 (tget 16 s.power.thermDuty d.val) ∧ SameMemory s t) ∧
    (∀ mv, dieFitted s.code d.val = false ∨ rd s pg fWARN = 1 → exec (.railWarningEntry d mv) s = .next s) ∧
    (∀ mv, dieFitted s.code d.val = false ∨ rd s pg fWARN = 0 → exec (.railWarningExit d mv) s = .next s) ∧
    (∀ c : Byte, dieFitted s.code d.val = true → ∃ (t : State) (duty : Nat), exec (.thermalDutyUpdate d c) s = .next t ∧
      duty = (if 95 ≤ c.toNat then max 2 (110 - c.toNat) else if rd s pg fHOT = 1 ∧ 93 ≤ c.toNat then 15 else 16) ∧
      rd t pg fTEMP = c.toNat ∧ rd t pg fMAXT = max (rd s pg fMAXT) c.toNat ∧ rd t pg fHOT = b2n (duty < 16) ∧
      tget 16 t.power.thermDuty d.val = duty ∧ (rd s pg fHOT = 0 → duty < 16 → (rd t pg fEVTRAW).testBit 10 = true ∧ Counts s t pg 1) ∧
      (rd s pg fTWARN ≤ c.toNat → (rd t pg fEVTRAW).testBit 11 = true ∧ (rd t pwrPage fALERT).testBit 2 = true) ∧
      rd t pg fDUTY = min (if d.val < 4 ∧ rd s pg fWARN = 1 then rd s pg fWDUTY else 16) duty ∧ SameMemory s t) ∧
    (∀ c, dieFitted s.code d.val = false → exec (.thermalDutyUpdate d c) s = .next s)


/-- Watchdogs and takeover (R459, R507, R509). A kick starts a core's time anew; a core not kicked for 100 ms goes back to its ROM: the active core
with both rings bypassed for cause 2 and the alert raised, a standby with vector 0 told. A standby that has synced becomes active when no core
is; without one, or with a core active, nothing changes. -/
def Obligations.WatchdogsAndTakeover : Prop :=
  ∀ (s : State) (c : Fin 2), Live s →
    ((coreGet s c.val).kickAt.isSome = true → ∃ t, exec (.watchdogKick c) s = .next t ∧
      coreGet t c.val = { coreGet s c.val with kickAt := some s.now } ∧ t = { s with boot := { s.boot with cores := t.boot.cores } }) ∧
    ((coreGet s c.val).kickAt = none → exec (.watchdogKick c) s = .next s ∧ exec (.watchdogExpiry c) s = .next s) ∧
    (∀ a, (coreGet s c.val).kickAt = some a →
      (s.now < a + 100000000 → exec (.watchdogExpiry c) s = .next s) ∧
      (a + 100000000 ≤ s.now →
        (s.boot.active = some c.val → ∃ t, exec (.watchdogExpiry c) s = .next t ∧ t.boot.active = none ∧ coreGet t c.val = coreInRom ∧
          rd t (curPage c.val) fROLE = 3 ∧ (∀ r, rd t (xPage 0 0) (fRSTATE r) = 0 ∧ rd t (xPage 0 0) (fRCAUSE r) = 2) ∧
          t.power.wdogAlert = true ∧ (rd t pwrPage fALERT).testBit 0 = true ∧ SameMemory s t) ∧
        (s.boot.active ≠ some c.val → ∃ t, exec (.watchdogExpiry c) s = .next t ∧ t.boot.active = s.boot.active ∧
          coreGet t c.val = coreInRom ∧ rd t (curPage c.val) fROLE = 3 ∧ t.boot.update = none ∧
          (rd t (activePage s) fEVTRAW).testBit 9 = true ∧ SameMemory s t))) ∧
    (s.boot.active.isSome = true → exec .takeover s = .next s) ∧
    (s.boot.active = none → rd s (curPage c.val) fROLE = 2 → rd s (curPage c.val) fSYNCED = 1 →
      ¬ (rd s (curPage (otherCore c.val)) fROLE = 2 ∧ rd s (curPage (otherCore c.val)) fSYNCED = 1) →
      ∃ t, exec .takeover s = .next t ∧ t.boot.active = some c.val ∧ rd t (curPage c.val) fROLE = 1 ∧
        (rd t (curPage c.val) fEVTRAW).testBit 8 = true ∧ t.boot.update = none ∧ SameMemory s t) ∧
    ((∀ d : Fin 2, ¬ (rd s (curPage d.val) fROLE = 2 ∧ rd s (curPage d.val) fSYNCED = 1)) → exec .takeover s = .next s)

/-- Boot (R500, R502, R506). A core's self-test is recorded once; with no core chosen, core 0 leads where it passed, else core 1, and where both
failed the alert is raised. The core that leads, holding the flash, runs a slot that passes every check and becomes active; the other core
then runs it as standby. A slot that fails sends the core that leads into recovery. The flash passes to the other core 2 s after its grant. A
standby that has its state shows so. -/
def Obligations.CoresBoot : Prop :=
  ∀ (s : State) (c : Fin 2), Live s →
    (∀ pass, (coreGet s c.val).tested = none → (coreGet s c.val).image = [] → ∃ t, exec (.romSelfTestComplete c pass) s = .next t ∧
      (coreGet t c.val).tested = some pass ∧ (coreGet t c.val).failed = !pass ∧ SameMemory s t ∧
      (s.boot.active = none → s.boot.lead = none →
        ((coreGet t 0).tested = some true → t.boot.lead = some 0 ∧ t.boot.flashHolder = some 0) ∧
        ((coreGet t 0).tested = some false → (coreGet t 1).tested = some true → t.boot.lead = some 1 ∧ t.boot.flashHolder = some 1) ∧
        ((coreGet t 0).tested = some false → (coreGet t 1).tested = some false → (rd t pwrPage fALERT).testBit 5 = true))) ∧
    (∀ pass, (coreGet s c.val).tested.isSome = true → exec (.romSelfTestComplete c pass) s = .next s) ∧
    ((coreGet s c.val).tested ≠ some true ∨ (coreGet s c.val).image ≠ [] ∨ (coreGet s c.val).recovering = true →
      exec (.imageLoaded c) s = .next s) ∧
    ((coreGet s c.val).tested = some true → (coreGet s c.val).image = [] → (coreGet s c.val).recovering = false →
      (s.boot.active = none → s.boot.lead = some c.val → s.boot.flashHolder = some c.val →
        (imageError s s.boot.slot = none → ∃ t, exec (.imageLoaded c) s = .next t ∧ t.boot.active = some c.val ∧
          (coreGet t c.val).image = s.boot.slot.take (512 + bodyLen s.boot.slot) ∧ (coreGet t c.val).kickAt = some s.now ∧
          t.boot.flashHolder = none ∧ SameMemory s t) ∧
        (∀ e, imageError s s.boot.slot = some e → ∃ t, exec (.imageLoaded c) s = .next t ∧ (coreGet t c.val).recovering = true ∧
          rd t (bootPage c.val) fBOOTERR = e ∧ rd t (bootPage c.val) fSLOTVALID = 0 ∧ t.boot.active = none ∧
          (portUp s c.val 0 = true → Out.recovery (portOf c.val 0) 0 512 ∈ t.out) ∧ SameMemory s t)) ∧
      (s.boot.active = some (otherCore c.val) → s.boot.flashHolder = none ∨ s.boot.flashHolder = some c.val →
        imageError s s.boot.slot = none → ∃ t, exec (.imageLoaded c) s = .next t ∧ t.boot.active = s.boot.active ∧
          (coreGet t c.val).image = s.boot.slot.take (512 + bodyLen s.boot.slot) ∧ rd t (curPage c.val) fROLE = 2 ∧
          rd t (bootPage c.val) fSLOTVALID = 1 ∧ rd t (bootPage c.val) fBOOTERR = 0 ∧ SameMemory s t) ∧
      (s.boot.active = some (otherCore c.val) → s.boot.flashHolder = none ∨ s.boot.flashHolder = some c.val →
        ∀ e, imageError s s.boot.slot = some e → ∃ t, exec (.imageLoaded c) s = .next t ∧ rd t (bootPage c.val) fBOOTERR = e ∧
          rd t (bootPage c.val) fSLOTVALID = 0 ∧ t = { s with regs := t.regs })) ∧
    (s.boot.flashHolder = some c.val →
      (s.boot.grantAt + 2000000000 ≤ s.now →
        exec .flashGrantTimeout s = .next { s with boot := { s.boot with flashHolder := some (1 - c.val), grantAt := s.now } }) ∧
      (s.now < s.boot.grantAt + 2000000000 → exec .flashGrantTimeout s = .next s)) ∧
    (s.boot.flashHolder = none → exec .flashGrantTimeout s = .next s) ∧
    (rd s (curPage c.val) fROLE = 2 → (coreGet s c.val).image ≠ [] → rd s (curPage (otherCore c.val)) fROLE ≠ 2 →
      ∃ t, exec .standbySynced s = .next t ∧ rd t (curPage c.val) fSYNCED = 1 ∧ t = { s with regs := t.regs }) ∧
    ((∀ d : Fin 2, rd s (curPage d.val) fROLE ≠ 2) → exec .standbySynced s = .next s)

/-- Recovery and live update (R504, R508, R509). With a core in recovery, its host port up: bytes are kept until the header is whole, and then every
range is asked for; a header or an image that fails a check starts over with its code; a whole image that passes runs, and is the slot. The retry
timer asks again for every gap each 100 ms, and after 60 s recovery moves to the other core if it passed its test. At a quiet point with a synced
standby the roles change, the former active core runs the new image, the slot is written and the request is answered DONE; without one within 10 s
the standby goes back and the answer is STATE. -/
def Obligations.RecoveryAndUpdate : Prop :=
  ∀ (s : State), Live s →
    (recoveringCore s = none → (∀ o bs, exec (.rcvData o bs) s = .next s) ∧ exec .recoveryRetryTimer s = .next s ∧
      exec .recoveryRoleTimeout s = .next s) ∧
    (∀ (c : Nat) (o : Word32) (bs : List Byte) (y : CurCore), recoveringCore s = some c →
      y = { coreGet s c with sram := putBytes (coreGet s c).sram o.toNat bs,
                             have_ := addRange (coreGet s c).have_ o.toNat (o.toNat + bs.length) } →
      (bs = [] ∨ 8192 < bs.length ∨ 0x3000000 < o.toNat + bs.length ∨ portUp s c 0 = false → exec (.rcvData o bs) s = .next s) ∧
      (bs ≠ [] → bs.length ≤ 8192 → o.toNat + bs.length ≤ 0x3000000 → portUp s c 0 = true →
        (covered y.have_ 0 512 = false → exec (.rcvData o bs) s = .next (corePut s c y)) ∧
        (∀ e, covered y.have_ 0 512 = true → headerError s (takeBytes y.sram 0 512) = some e → ∃ t, exec (.rcvData o bs) s = .next t ∧
          rd t (bootPage c) fBOOTERR = e ∧ (coreGet t c).sram = [] ∧ (coreGet t c).have_ = [] ∧ Out.recovery (portOf c 0) 0 512 ∈ t.out ∧
          SameMemory s t) ∧
        (covered y.have_ 0 512 = true → headerError s (takeBytes y.sram 0 512) = none →
          (∀ img, covered y.have_ 0 (512 + bodyLen (takeBytes y.sram 0 512)) = true →
            img = takeBytes y.sram 0 (512 + bodyLen (takeBytes y.sram 0 512)) →
            (∀ e, bodyError s img = some e → ∃ t, exec (.rcvData o bs) s = .next t ∧ rd t (bootPage c) fBOOTERR = e ∧ (coreGet t c).sram = [] ∧
              Out.recovery (portOf c 0) 0 512 ∈ t.out ∧ SameMemory s t) ∧
            (bodyError s img = none → ∃ t, exec (.rcvData o bs) s = .next t ∧ t.boot.active = some c ∧ t.boot.slot = img ∧
              (coreGet t c).image = img ∧ (coreGet t c).recovering = false ∧ SameMemory s t)) ∧
          (covered y.have_ 0 (512 + bodyLen (takeBytes y.sram 0 512)) = false →
            (covered (coreGet s c).have_ 0 512 = true → exec (.rcvData o bs) s = .next (corePut s c y)) ∧
            (covered (coreGet s c).have_ 0 512 = false → ∃ t, exec (.rcvData o bs) s = .next t ∧ (coreGet t c).have_ = y.have_ ∧
              ∀ r ∈ recoveryGaps y, Out.recovery (portOf c 0) r.1 (r.2 - r.1) ∈ t.out))))) ∧
    (∀ c, recoveringCore s = some c →
      (s.now < (coreGet s c).askedAt + 100000000 → exec .recoveryRetryTimer s = .next s) ∧
      ((coreGet s c).askedAt + 100000000 ≤ s.now → ∃ t, exec .recoveryRetryTimer s = .next t ∧
        coreGet t c = { coreGet s c with askedAt := s.now } ∧ SameMemory s t ∧
        (portUp s c 0 = true → ∀ r ∈ recoveryGaps (coreGet s c), Out.recovery (portOf c 0) r.1 (r.2 - r.1) ∈ t.out)) ∧
      ((coreGet s (otherCore c)).tested ≠ some true ∨ s.now < (coreGet s c).since + 60000000000 → exec .recoveryRoleTimeout s = .next s) ∧
      ((coreGet s (otherCore c)).tested = some true → (coreGet s c).since + 60000000000 ≤ s.now →
        ∃ t, exec .recoveryRoleTimeout s = .next t ∧ t.boot.lead = some (otherCore c) ∧
          t.boot.flashHolder = some (otherCore c) ∧ (coreGet t (otherCore c)).recovering = true ∧ (coreGet t c).recovering = false ∧
          (portUp s (otherCore c) 0 = true → Out.recovery (portOf (otherCore c) 0) 0 512 ∈ t.out) ∧ SameMemory s t)) ∧
    (s.boot.update = none ∨ s.boot.active = none → exec .quietPoint s = .next s ∧ exec .updateQuietTimeout s = .next s) ∧
    ∀ (u : Update) (a : Fin 2), s.boot.update = some u → s.boot.active = some a.val →
      (quietNow s u = false ∨ rd s (curPage (otherCore a.val)) fSYNCED = 0 → exec .quietPoint s = .next s) ∧
      (quietNow s u = true → rd s (curPage (otherCore a.val)) fSYNCED = 1 → ∃ t, exec .quietPoint s = .next t ∧
        t.boot.active = some (otherCore a.val) ∧ t.boot.slot = u.image ∧ t.boot.update = none ∧ (coreGet t a.val).image = u.image ∧
        rd t (curPage (otherCore a.val)) fROLE = 1 ∧ rd t (curPage a.val) fROLE = 2 ∧ rd t (curPage a.val) fSYNCED = 0 ∧
        (∀ d : Fin 2, rd t (curPage d.val) fUPDATES = (rd s (curPage (otherCore a.val)) fUPDATES + 1) % 2 ^ 16 ∧
          rd t (curPage d.val) fPAUSE ≤ 50000 ∧ rd t (curPage d.val) fUPDSTATE = 0) ∧
        (mbxGet t u.session u.slot).result = mDONE ∧ (mbxGet t u.session u.slot).state = 2 ∧ SameMemory s t) ∧
      (s.now < u.since + 10000000000 → exec .updateQuietTimeout s = .next s) ∧
      (u.since + 10000000000 ≤ s.now → ∃ t, exec .updateQuietTimeout s = .next t ∧ t.boot.active = s.boot.active ∧ t.boot.update = none ∧
        (coreGet t (otherCore a.val)).image = u.previous ∧ rd t (curPage (otherCore a.val)) fROLE = 2 ∧
        (mbxGet t u.session u.slot).result = mSTATE ∧ (mbxGet t u.session u.slot).state = 2 ∧ SameMemory s t)


/-- The thirteen mailbox requests (R512). -/
def Sys2Proof.Claims.mailRows : List (Nat × (Half → Fin 16 → Instr)) :=
  [(1, .authSet), (2, .authDel), (3, .sessOpen), (4, .sessClose), (5, .vecSet), (6, .mcastSet), (7, .mcastDel), (8, .curwrite), (9, .mailboxReset),
    (10, .update), (11, .attest), (12, .svnAdvance), (13, .keyRevoke)]

/-- A request in a slot is the one to execute now, with an operation code and no reserved value in its first four bytes (R511). -/
abbrev Sys2Proof.Claims.Mails (s : State) (i : Half) (k : Fin 16) (op : Nat) (b : List Byte) : Prop :=
  Live s ∧ mailReady s i.toNat k.val = true ∧ b = (mbxGet s i.toNat k.val).request ∧ leAt b 0 1 = op ∧ leAt b 1 1 = 0 ∧
    mailVectorOk s i.toNat (leAt b 2 2) = true

/-- A request is answered with a result and data (R511). -/
abbrev Sys2Proof.Claims.Replies (t : State) (i : Half) (k : Fin 16) (result : Nat) (data : List Byte) : Prop :=
  (mbxGet t i.toNat k.val).result = result ∧ (mbxGet t i.toNat k.val).state = 2 ∧ (mbxGet t i.toNat k.val).data = data

/-- A mailbox request runs in its turn and is answered (R511, R512). A row whose slot is not the one to execute now, or holds another
request, changes nothing. An undefined operation, a reserved byte set, or a vector the session may not name answers ENCODING. SESS_CLOSE
closes the session; VEC_SET sets a vector's owner while its page is STOPPED (R55); MCAST_SET and MCAST_DEL enter and delete a group;
CURWRITE writes a register as the Curator and answers its status. -/
def Obligations.MailboxRequestsAnswer : Prop :=
  (∀ (s : State) (i : Half) (k : Fin 16), Live s → ∀ row ∈ mailRows,
    (mailReady s i.toNat k.val = false → exec (row.2 i k) s = .next s) ∧
    (∀ op, Mails s i k op (mbxGet s i.toNat k.val).request → op ≠ row.1 →
      (1 ≤ op ∧ op ≤ 13 → exec (row.2 i k) s = .next s) ∧
      (op = 0 ∨ 14 ≤ op → ∃ t, exec (row.2 i k) s = .next t ∧ Replies t i k mENCODING [] ∧ SameMemory s t)) ∧
    (mailReady s i.toNat k.val = true → leAt (mbxGet s i.toNat k.val).request 0 1 = row.1 →
      leAt (mbxGet s i.toNat k.val).request 1 1 ≠ 0 ∨ mailVectorOk s i.toNat (leAt (mbxGet s i.toNat k.val).request 2 2) = false →
      ∃ t, exec (row.2 i k) s = .next t ∧ Replies t i k mENCODING [] ∧ SameMemory s t)) ∧
  ∀ (s : State) (i : Half) (k : Fin 16) (b : List Byte),
    (Mails s i k 3 b → leAt b 8 1 < xdieCount s.code → leAt b 9 1 < 8 → leAt b 11 1 < 64 → ∀ role, roleOf (leAt b 10 1) = some role →
      (∀ u, sendInit s (leAt b 8 1) (leAt b 9 1) (leAt b 10 1) (leAt b 11 1) (padTo 16 ((b.drop 16).take 16)) (i.toNat, k.val) = some u →
        exec (.sessOpen i k) s = .next (journalOpen (mbxPut u i.toNat k.val { mbxGet u i.toNat k.val with started := true }) 4)) ∧
      (freeSlot s (leAt b 8 1) = none → ∃ t, exec (.sessOpen i k) s = .next t ∧ Replies t i k mRESOURCE [] ∧ SameMemory s t)) ∧
    (Mails s i k 4 b → (∃ t, exec (.sessClose i k) s = .next t ∧ sessGet t (leAt b 8 2) = none ∧
      Replies t i k (if (sessGet s (leAt b 8 2)).isSome = true then mDONE else mSTATE) [])) ∧
    (Mails s i k 5 b → leAt b 8 2 < 4096 → leAt b 10 1 < 64 →
      (blkState s (vecAddr (leAt b 8 2) / 4096) = stStopped → ∃ t, exec (.vecSet i k) s = .next t ∧ Replies t i k mDONE [] ∧
        bits (regGet t (vecAddr (leAt b 8 2))) 40 6 = leAt b 10 1 ∧ bits (regGet t (vecAddr (leAt b 8 2))) 46 1 = leAt b 11 1 % 2 ∧
        SameMemory s t) ∧
      (blkState s (vecAddr (leAt b 8 2) / 4096) ≠ stStopped → ∃ t, exec (.vecSet i k) s = .next t ∧ Replies t i k mSTATE [] ∧
        SameMemory s t)) ∧
    (∀ e u, Mails s i k 6 b → leAt b 8 1 < xdieCount s.code → e = padTo 64 ((b.drop 16).take 64) → groupEntryOk e = true →
      mcastPut s (leAt b 8 1) e = some u → ∃ t, exec (.mcastSet i k) s = .next t ∧ Replies t i k mDONE [] ∧ t.mcast = u.mcast ∧
        (leAt b 8 1, leAt e 0 2, e) ∈ t.boot.rcd.groups ∧ SameMemory s t) ∧
    (Mails s i k 7 b → ∃ t, exec (.mcastDel i k) s = .next t ∧
      Replies t i k (if (mcFind s (leAt b 8 1) (leAt b 16 2)).isSome = true then mDONE else mSTATE) [] ∧
      mcFind t (leAt b 8 1) (leAt b 16 2) = none ∧ SameMemory s t) ∧
    (Mails s i k 8 b → ∃ t, exec (.curwrite i k) s = .next t ∧
      (leAt b 8 8 < 2 ^ 24 → curwriteDenied s (leAt b 8 8) (leAt b 24 8) = true → Replies t i k mDENIED [] ∧ SameMemory s t) ∧
      (curwriteDenied s (leAt b 8 8) (leAt b 24 8) = false →
        Replies t i k mDONE (leBytes 1 (doWrite s .curator (leAt b 8 8) (leAt b 16 8) (leAt b 24 8)).2.1)))

/-- The mailbox requests about trust, resets and images (R501, R508, R512, R515, R516). AUTH_SET enters an authorisation and AUTH_DEL deletes
every one of a key. RESET asks for the reset, or answers STATE while one is under way. UPDATE runs an image that passes on the standby; one that
fails answers VERIFY, or ROLLBACK for its SVN. ATTEST answers the report. SVN_ADVANCE raises the fused SVN to the running image's where every
image is ready. KEY_REVOKE revokes a key that is not the running image's. -/
def Obligations.TrustRequestsAnswer : Prop :=
  ∀ (s : State) (i : Half) (k : Fin 16) (b : List Byte),
    (Mails s i k 1 b → 1 ≤ leAt b 8 1 → leAt b 8 1 ≤ 3 → leAt b 9 1 < 64 → ∃ t, exec (.authSet i k) s = .next t ∧ Replies t i k mDONE [] ∧
      ⟨leAt b 8 1, if leAt b 8 1 = 1 then 0 else leAt b 9 1, padTo 57 ((b.drop 16).take 57)⟩ ∈ t.boot.rcd.auth ∧
      (∀ e ∈ s.boot.rcd.auth, e ∈ t.boot.rcd.auth) ∧ SameMemory s t) ∧
    (Mails s i k 2 b → ∃ t, exec (.authDel i k) s = .next t ∧ Replies t i k mDONE [] ∧
      t.boot.rcd.auth = s.boot.rcd.auth.filter (fun e => e.key != padTo 57 ((b.drop 16).take 57)) ∧ SameMemory s t) ∧
    (Mails s i k 9 b → 1 ≤ leAt b 8 1 → leAt b 8 1 ≤ 3 → leAt b 9 2 < 256 →
      (rd s pwrPage fRBUSY = 1 → ∃ t, exec (.mailboxReset i k) s = .next t ∧ Replies t i k mSTATE [] ∧ SameMemory s t) ∧
      (rd s pwrPage fRBUSY = 0 → ∃ t, exec (.mailboxReset i k) s = .next t ∧ rd t pwrPage fRKIND = leAt b 8 1 ∧
        rd t pwrPage fRTARGET = leAt b 9 2 ∧ rd t pwrPage fRBUSY = 1 ∧ t.power.rstReq = leAt b 8 1 + leAt b 9 2 * 2 ^ 8 ∧ (mbxGet t i.toNat k.val).started = true ∧ SameMemory s t)) ∧
    (∀ (a : Fin 2) (img : List Byte), Mails s i k 10 b → s.boot.active = some a.val → s.boot.update = none →
      (coreGet s (otherCore a.val)).image ≠ [] → rd s (curPage (otherCore a.val)) fROLE = 2 →
      img = takeBytes (tget [] s.boot.staging i.toNat) 0 (leAt b 8 4) → leAt b 8 4 = 512 + bodyLen img → leAt b 8 4 ≤ 0x3000000 →
      (imageError s img = none → ∃ t, exec (.update i k) s = .next t ∧
        t.boot.update = some ⟨i.toNat, k.val, img, (coreGet s (otherCore a.val)).image, s.now⟩ ∧ (coreGet t (otherCore a.val)).image = img ∧
        t.boot.active = s.boot.active ∧ (∀ d : Fin 2, rd t (curPage d.val) fUPDSTATE = 2) ∧ (mbxGet t i.toNat k.val).started = true ∧
        SameMemory s t) ∧
      (∀ e, imageError s img = some e → ∃ t, exec (.update i k) s = .next t ∧ Replies t i k (if e = 5 then mROLLBACK else mVERIFY) [] ∧
        t.boot.update = none ∧ SameMemory s t)) ∧
    (∀ a, Mails s i k 11 b → s.boot.active = some a → ∃ t, exec (.attest i k) s = .next t ∧
      Replies t i k mDONE (reportOf s a ((b.drop 8).take 32)) ∧ SameMemory s t) ∧
    (∀ a, Mails s i k 12 b → s.boot.active = some a →
      (svnReady s a = true → ∃ t, exec (.svnAdvance i k) s = .next t ∧ t.fuses.svn = max s.fuses.svn (min 64 (rd s (bootPage a) fBOOTSVN)) ∧
        Replies t i k mDONE (leBytes 4 t.fuses.svn) ∧ SameMemory s t) ∧
      (svnReady s a = false → ∃ t, exec (.svnAdvance i k) s = .next t ∧ t.fuses = s.fuses ∧ Replies t i k mSTATE [])) ∧
    (Mails s i k 13 b → ∃ t, exec (.keyRevoke i k) s = .next t ∧ SameMemory s t ∧
      (4 ≤ leAt b 8 1 → Replies t i k mENCODING [] ∧ t.fuses = s.fuses) ∧
      (leAt b 8 1 < 4 → leAt b 8 1 = runningSlot s → Replies t i k mSTATE [] ∧ t.fuses = s.fuses) ∧
      (leAt b 8 1 < 4 → leAt b 8 1 ≠ runningSlot s → Replies t i k mDONE [] ∧
        t.fuses = { s.fuses with keysRevoked := s.fuses.keysRevoked ||| 2 ^ leAt b 8 1 }))

/-- Counters, samples and provenance (R522, R531-R539). A counter carried past 2^48 wraps, with its overflow flag and bit 3
(the count of EVENT packets may count the packet of that event itself). A sample whose time
has come is written and its stream moves on by whole periods, its number one up; while the dump engine is stopped it is skipped, and a
write that fails switches the stream off. A tagged micro-operation of a partition that samples has its record written in the next place. -/
def Obligations.LedgerRowsTakeEffect : Prop :=
  ∀ s : State, Live s →
    (∀ (pg : BitVec 12) (i : Fin 248) (w : BitVec 48) (info : PageInfo), pageAt s pg.toNat = some info → i.val < (ledgerShape info.type).1 →
      (ledger s pg.toNat i.val + w.toNat < 2 ^ 48 → exec (.counterOverflow pg i w) s = .next s) ∧
      (2 ^ 48 ≤ ledger s pg.toNat i.val + w.toNat → ∃ t, exec (.counterOverflow pg i w) s = .next t ∧
        (ledger t pg.toNat i.val = ledger s pg.toNat i.val + w.toNat - 2 ^ 48 ∨ ∃ x, pg.toNat = ztPage x ∧ i.val = typeIndex 0x08) ∧
        bit (regGet t (pg.toNat * 4096 + 0x840 + 8 * i.val)) 63 = true ∧ (rd t pg.toNat fEVTRAW).testBit 3 = true ∧ OnlyRegs s t)) ∧
    (∀ (j : Fin 16), tfind s.obs.streams j.val = none → exec (.dumpSample j) s = .next s) ∧
    (∀ (j : Fin 16) (x : Stream) (period late : Nat), tfind s.obs.streams j.val = some x → period = rd s dumpPage (fLPERIOD j.val) * 1000 →
      late = (s.now - x.next) / period →
      (s.now < x.next ∨ period = 0 → exec (.dumpSample j) s = .next s) ∧
      (x.next ≤ s.now → 0 < period →
        (∀ u, running s dumpPage = true → writeSample s j.val x = (u, none) → ∃ t y, exec (.dumpSample j) s = .next t ∧
          tfind t.obs.streams j.val = some y ∧ y.next = x.next + (late + 1) * period ∧ y.seq = x.seq + 1 ∧ y.skipped = late ∧
          rd t dumpPage (fLSEQ j.val) = (x.seq + 1) % 2 ^ 32 ∧ SameMemory u t) ∧
        (∀ u va e, running s dumpPage = true → writeSample s j.val x = (u, some (va, e)) →
          exec (.dumpSample j) s = .next (streamFail u j.val va e)) ∧
        (running s dumpPage = false → ∃ t y, exec (.dumpSample j) s = .next t ∧ tfind t.obs.streams j.val = some y ∧
          y.next = x.next + (late + 1) * period ∧ y.seq = x.seq ∧ y.skipped = x.skipped + late + 1 ∧ SameMemory s t))) ∧
    (∀ (op : MicroOp) (p : Nat), pageOwner s (galPage op.gallery.val) = some p →
      (rd s dumpPage (fPRVEN p) = 0 ∨ opTagged s p op = false → exec (.provenanceRecord op) s = .next s) ∧
      ∀ u, rd s dumpPage (fPRVEN p) = 1 → opTagged s p op = true →
        vstore (tally s (galPage op.gallery.val + 3) 7 1) p
          (rd s dumpPage (fPRVBASE p) + rd s dumpPage (fPRVSEQ p) % 2 ^ rd s dumpPage (fPRVLOG2 p) * 64)
          (opRecord op (rd s dumpPage (fPRVSEQ p))) = (u, none) →
        ∃ t, exec (.provenanceRecord op) s = .next t ∧ rd t dumpPage (fPRVSEQ p) = (rd s dumpPage (fPRVSEQ p) + 1) % 2 ^ 32 ∧ SameMemory u t) ∧
    (∀ op : MicroOp, pageOwner s (galPage op.gallery.val) = none → exec (.provenanceRecord op) s = .next s)

/-- The observation pins (R544, R545, R547). A pin that may send sends its next frame, numbered modulo 16; one that may not changes nothing. A
rising TRIG_IN is timed, and where it stops the pins each of them has POST frames left. When none may send any more they are stopped. A pulse on
TRIG_OUT ends after 100 ns. -/
def Sys2Proof.Claims.PinsSendAndStop : Prop :=
  ∀ s : State, Live s →
    (∀ n : Fin 16, pinSends s n.val = false → exec (.observationFrame n) s = .next s) ∧
    (∀ n : Fin 16, pinSends s n.val = true → ∃ t, exec (.observationFrame n) s = .next t ∧
      t.out = .obsFrame n.val (0xA7000000 + n.val * 2 ^ 20 + tget 0 s.obs.frameNo n.val * 2 ^ 16 + pinSample s n.val) :: s.out ∧
      tget 0 t.obs.frameNo n.val = (tget 0 s.obs.frameNo n.val + 1) % 16 ∧
      t.obs.post = s.obs.post.map (fun l => setAt l n.val (l.getD n.val 0 - 1)) ∧ SameMemory s t) ∧
    (∃ t, exec .trigIn s = .next t ∧ rd t muxPage fTTIME = s.now % 2 ^ 64 ∧ rd t muxPage fTINSEEN = 1 ∧
      t.obs.post = (if rd s muxPage fTINSTOP = 1 ∧ s.obs.post = none ∧ rd s muxPage fTSTOPPED = 0
        then some (List.replicate 16 (rd s muxPage fTPOST)) else s.obs.post) ∧ SameMemory s t) ∧
    (s.obs.post = none ∨ (∃ n : Fin 16, pinSends s n.val = true) → exec .trigPostStop s = .next s) ∧
    (s.obs.post.isSome = true → (∀ n : Fin 16, pinSends s n.val = false) → ∃ t, exec .trigPostStop s = .next t ∧ rd t muxPage fTSTOPPED = 1 ∧
      t.obs.post = none ∧ SameMemory s t) ∧
    (∀ a, s.obs.pulse = some a →
      (s.now < a + 100 → exec .trigOutPulseEnd s = .next s) ∧
      (a + 100 ≤ s.now → exec .trigOutPulseEnd s = .next { s with obs := { s.obs with pulse := none } })) ∧
    (s.obs.pulse = none → exec .trigOutPulseEnd s = .next s)

/-- The JTAG port (R549, R560), in reset or not: TRST_N selects IDCODE. With VCORE_X0 good, an instruction selects its register and shifts it
out, the IDCODE of the stepping for IDCODE and 0 for BYPASS; SAMPLE/PRELOAD sets the cells only while RESET_N is asserted. Without it the
port does nothing. -/
def Sys2Proof.Claims.TestPortAnswers : Prop :=
  ∀ s : State,
    exec .trstNAssert s = .next { s with obs := { s.obs with ir := 2 } } ∧
    (debugPowered s = false → exec .extest s = .next s ∧ exec .idcode s = .next s ∧ exec .bypass s = .next s ∧
      ∀ c, exec (.samplePreload c) s = .next s) ∧
    (debugPowered s = true →
      (∃ t, exec .idcode s = .next t ∧ t.obs = { s.obs with ir := 2 } ∧ t.out = .jtag 2 (idcodeOf s.stepping) :: s.out) ∧
      (∃ t, exec .bypass s = .next t ∧ t.obs = { s.obs with ir := 0xFF } ∧ t.out = .jtag 0xFF 0 :: s.out) ∧
      (∃ t v, exec .extest s = .next t ∧ t.obs = { s.obs with ir := 0 } ∧ t.out = .jtag 0 v :: s.out) ∧
      ∀ c : BitVec 26, ∃ t v, exec (.samplePreload c) s = .next t ∧ t.out = .jtag 1 v :: s.out ∧
        t.obs = (if s.power.resetN = false then { s.obs with ir := 1, cells := c.toNat } else { s.obs with ir := 1 }))

/-- While the module is without power or in reset, its blocks do nothing: a packet, a command of a queue, a timer and a pin's frame change
nothing (R471, R485, R487). -/
def Obligations.NothingActsInReset : Prop :=
  ∀ s : State, s.power.phase ≠ .on ∨ s.power.mReset = true →
    (∀ row ∈ vectorRows, ∀ g q, exec (row.2 g q) s = .next s) ∧ (∀ row ∈ plainRows, ∀ g q, exec (row.2 g q) s = .next s) ∧
    (∀ row ∈ mailRows, ∀ i k, exec (row.2 i k) s = .next s) ∧ (∀ row ∈ resRows, ∀ p, exec (row.2 p) s = .next s) ∧
    (∀ src addr m, exec (.read src addr m) s = .next s) ∧ (∀ src addr data m, exec (.write src addr data m) s = .next s) ∧
    (∀ k, exec (.ack k) s = .next s) ∧ (∀ i, exec (.idleTimeout i) s = .next s) ∧ (∀ g q n, exec (.commandCompletion g q n) s = .next s) ∧
    (∀ n, exec (.observationFrame n) s = .next s) ∧ (∀ c, exec (.watchdogExpiry c) s = .next s)

/-- The observation pins and the JTAG port. -/
def Obligations.PinsAndTestPort : Prop := PinsSendAndStop ∧ TestPortAnswers

/-- The address of a register operation (R37, R38). Bits 23 to 21 are the die and bits 20 to 12 its page: dies 0 to 3 are C-dies, and the pages
of the others are an X-die's, as R23 has it. An operation with a bit above 23 set is refused ADDR, and one whose offset is no multiple of 8 ALIGN,
with nothing changed; a register is one word of 64 bits, and a READ answers the whole of it. -/
def Obligations.AddressesNameWholeRegisters : Prop :=
  (∀ (code : OrderCode) (die page : Nat) (i : PageInfo), die < 8 → page < 512 → pageInfo code (die * 512 + page) = some i →
    i.xdie = if die < 4 then 6 else if page < 256 then die - 4 else die - 2) ∧
  ∀ (s u : State) (src : Source) (who : Princ) (addr data mask : Word64) (pos : MsgPos) (m : MsgProgress), InTurn s u src who pos m →
    Executes pos m →
    (2 ^ 24 ≤ addr.toNat →
      (pos.op = 0 → exec (.read src addr pos) s = .next (opDone src pos m u (rADDR, 0))) ∧
      (pos.op = 1 → exec (.write src addr data pos) s = .next (opDone src pos m u (rADDR, 0))) ∧
      (pos.op = 2 → exec (.writeMasked src addr data mask pos) s = .next (opDone src pos m u (rADDR, 0)))) ∧
    (addr.toNat < 2 ^ 24 → addr.toNat % 8 ≠ 0 →
      (pos.op = 0 → exec (.read src addr pos) s = .next (opDone src pos m u (rALIGN, 0))) ∧
      (pos.op = 1 → exec (.write src addr data pos) s = .next (opDone src pos m u (rALIGN, 0))) ∧
      (pos.op = 2 → exec (.writeMasked src addr data mask pos) s = .next (opDone src pos m u (rALIGN, 0)))) ∧
    ∀ i, Reached u who addr.toNat i → u.regBad.contains addr.toNat = false → runWord u addr.toNat = none → pos.op = 0 →
      exec (.read src addr pos) s = .next (opDone src pos m u
        (rDONE, BitVec.ofNat 64 (regRead u (addr.toNat / 4096) i (addr.toNat % 4096))))

/-- BLK_EPOCH (R54): bits 31 to 0 of every page, stop-only, 0 after reset; the rest is reserved. A write of it by another principal than the
Curator is refused DENIED. The Curator's takes effect on a STOPPED page, and on another is refused STATE; a refusal leaves it. -/
def Obligations.EpochBelongsToCurator : Prop :=
  ∀ (s b : State) (src : Source) (who : Princ) (pg : Nat) (addr data : Word64) (pos : MsgPos) (m : MsgProgress) (i : PageInfo),
    InTurn s b src who pos m → Executes pos m → pos.op = 1 →
    pg < 4096 → addr.toNat = pg * 4096 + 0x048 → Reached b who addr.toNat i →
    (∃ f, regFields i 0x048 = some [f] ∧ f.lo = 0 ∧ f.width = 32 ∧ f.acc = .so) ∧ resetOf b.code b.fuses (pg * 4096 + 0x048) = 0 ∧
    (who ≠ .curator → data.toNat % 2 ^ 32 ≠ rd b pg fEPOCH → ∃ t, rd t pg fEPOCH = rd b pg fEPOCH ∧ OnlyRegs b t ∧
      exec (.write src addr data pos) s = .next (opDone src pos m t (rDENIED, 0))) ∧
    (who = .curator → blkState b pg = stStopped ∨ data.toNat % 2 ^ 32 = rd b pg fEPOCH →
      ∃ t st, (st = rDONE ∨ st = rPARTIAL) ∧ exec (.write src addr data pos) s = .next (opDone src pos m t (st, 0)) ∧
        rd t pg fEPOCH = data.toNat % 2 ^ 32 ∧ rd t pg ⟨0x048, 32, 32⟩ = rd b pg ⟨0x048, 32, 32⟩ ∧ WordKept b t (pg * 4096 + 0x048)) ∧
    (who = .curator → blkState b pg ≠ stStopped → data.toNat % 2 ^ 32 ≠ rd b pg fEPOCH → ∃ t, rd t pg fEPOCH = rd b pg fEPOCH ∧ OnlyRegs b t ∧
      exec (.write src addr data pos) s = .next (opDone src pos m t (rSTATE, 0)))

/-- A write of TAIL by a principal that reaches the queue (R307), all arithmetic modulo 2^32: a new value within 2^LOG2 of DONE that does not
fall behind the old one as seen from HEAD is accepted; any other is refused ENCODING, TAIL stays, and where no error stood before, block code
0x80 is recorded with the queue's number. A write of the value that stands changes no field. -/
def Obligations.TailWritesAreChecked : Prop :=
  ∀ (s b : State) (src : Source) (who : Princ) (g : Fin 256) (q : Fin 4) (tail : Word32) (i : PageInfo) (pg : Nat), b = heard s src →
    pg = galPage g.val → Opens s src who → Reached b who (pg * 4096 + (0x210 + 0x40 * q.val)) i → i.type = .galleryControl → i.spare = false →
    i.num = g.val →
    ((tail.toNat + 2 ^ 32 - rd b pg (fQDONE q.val)) % 2 ^ 32 ≤ 2 ^ rd b pg (fQLOG2 q.val) →
      (rd b pg (fQTAIL q.val) + 2 ^ 32 - rd b pg (fQHEAD q.val)) % 2 ^ 32 ≤ (tail.toNat + 2 ^ 32 - rd b pg (fQHEAD q.val)) % 2 ^ 32 →
      ∃ t, Done (.tailWrite src g q tail) s src t ∧ rd t pg (fQTAIL q.val) = tail.toNat) ∧
    (tail.toNat = rd b pg (fQTAIL q.val) → ∃ t, Done (.tailWrite src g q tail) s src t ∧ rd t pg (fQTAIL q.val) = tail.toNat) ∧
    (tail.toNat ≠ rd b pg (fQTAIL q.val) →
      2 ^ rd b pg (fQLOG2 q.val) < (tail.toNat + 2 ^ 32 - rd b pg (fQDONE q.val)) % 2 ^ 32 ∨
        (tail.toNat + 2 ^ 32 - rd b pg (fQHEAD q.val)) % 2 ^ 32 < (rd b pg (fQTAIL q.val) + 2 ^ 32 - rd b pg (fQHEAD q.val)) % 2 ^ 32 →
      ∃ t, exec (.tailWrite src g q tail) s = .next (told s src t (rENCODING, 0)) ∧ rd t pg (fQTAIL q.val) = rd b pg (fQTAIL q.val) ∧
        OnlyRegs b t ∧ (rd b pg fERRVALID = 0 → rd t pg ⟨0x038, 0, 8⟩ = 0x80 ∧ rd t pg ⟨0x038, 32, 2⟩ = q.val))

/-- The firmware key slots (R501). No command ever takes a revocation back, or changes which keys are present and what they hash to; a KEY_REVOKE
of a slot of the four that did not sign the running image revokes it, and one of the slot that did is refused STATE. -/
def Obligations.RevocationIsPermanent : Prop :=
  (∀ (c : Instr) (s t : State), exec c s = .next t →
    (∀ k, s.fuses.keysRevoked.testBit k = true → t.fuses.keysRevoked.testBit k = true) ∧
    t.fuses.keysPresent = s.fuses.keysPresent ∧ t.fuses.keyHash = s.fuses.keyHash) ∧
  ∀ (s : State) (i : Half) (k : Fin 16) (b : List Byte), Mails s i k 13 b → leAt b 8 1 < 4 →
    (leAt b 8 1 ≠ runningSlot s → ∃ t, exec (.keyRevoke i k) s = .next t ∧ Replies t i k mDONE [] ∧
      t.fuses = { s.fuses with keysRevoked := s.fuses.keysRevoked ||| 2 ^ leAt b 8 1 }) ∧
    (leAt b 8 1 = runningSlot s → ∃ t, exec (.keyRevoke i k) s = .next t ∧ Replies t i k mSTATE [] ∧ t.fuses = s.fuses)
end

