-- ==== Sys2Proof/Laws/Bits.lean ====
section
/-! SUPPORT. The laws of bit fields: a field reads as it was written, other fields stand, and a word stays a word. -/

namespace Sys2Proof.Machine

theorem bits_lt (v lo w : Nat) : bits v lo w < 2 ^ w := Nat.mod_lt _ (Nat.two_pow_pos w)

theorem testBit_bits (v lo w i : Nat) : (bits v lo w).testBit i = (decide (i < w) && v.testBit (lo + i)) := by
  simp only [bits, Nat.testBit_mod_two_pow, Nat.testBit_shiftRight]

theorem setBits_eq (v lo w x : Nat) : setBits v lo w x = (v / 2 ^ (lo + w)) * 2 ^ (lo + w) + (x % 2 ^ w) * 2 ^ lo + v % 2 ^ lo := by
  have h1 : v = v / 2 ^ lo * 2 ^ lo + v % 2 ^ lo := (Nat.div_add_mod' v (2 ^ lo)).symm
  have h2 : v / 2 ^ lo = v / 2 ^ lo / 2 ^ w * 2 ^ w + v / 2 ^ lo % 2 ^ w := (Nat.div_add_mod' _ (2 ^ w)).symm
  have h3 : v / 2 ^ (lo + w) = v / 2 ^ lo / 2 ^ w := by rw [Nat.pow_add, Nat.div_div_eq_div_mul]
  unfold setBits bits
  rw [Nat.shiftRight_eq_div_pow, h3]
  have h4 : v = v / 2 ^ lo / 2 ^ w * 2 ^ (lo + w) + v / 2 ^ lo % 2 ^ w * 2 ^ lo + v % 2 ^ lo := by
    conv => lhs; rw [h1, h2]
    rw [Nat.add_mul, Nat.mul_assoc, Nat.pow_add, Nat.mul_comm (2 ^ w) (2 ^ lo)]
  omega

theorem testBit_setBits (v lo w x i : Nat) :
    (setBits v lo w x).testBit i = if lo ≤ i ∧ i < lo + w then x.testBit (i - lo) else v.testBit i := by
  have h1 : v % 2 ^ lo < 2 ^ lo := Nat.mod_lt _ (Nat.two_pow_pos lo)
  have h2 : x % 2 ^ w < 2 ^ w := Nat.mod_lt _ (Nat.two_pow_pos w)
  have h3 : setBits v lo w x = 2 ^ lo * (2 ^ w * (v / 2 ^ (lo + w)) + x % 2 ^ w) + v % 2 ^ lo := by
    rw [setBits_eq, Nat.mul_add, ← Nat.mul_assoc, ← Nat.pow_add, Nat.mul_comm (2 ^ (lo + w)), Nat.mul_comm (2 ^ lo) (x % 2 ^ w)]
  rw [h3, Nat.testBit_two_pow_mul_add _ h1]
  split
  · next h =>
    rw [if_neg (by omega), Nat.testBit_mod_two_pow]
    simp [h]
  · next h =>
    rw [Nat.testBit_two_pow_mul_add _ h2]
    split
    · next h5 => rw [if_pos (by omega), Nat.testBit_mod_two_pow]; simp [h5]
    · next h5 =>
      rw [if_neg (by omega), Nat.testBit_div_two_pow]
      congr 1
      omega

/-- A field reads as it was written. -/
theorem bits_setBits_same (v lo w x : Nat) : bits (setBits v lo w x) lo w = x % 2 ^ w := by
  apply Nat.eq_of_testBit_eq
  intro i
  rw [testBit_bits, testBit_setBits, Nat.testBit_mod_two_pow]
  by_cases h : i < w
  · simp [h]
  · simp [h]

/-- A field that does not overlap the written one stands. -/
theorem bits_setBits_ne (v lo w x lo' w' : Nat) (h : lo' + w' ≤ lo ∨ lo + w ≤ lo') : bits (setBits v lo w x) lo' w' = bits v lo' w' := by
  apply Nat.eq_of_testBit_eq
  intro i
  rw [testBit_bits, testBit_bits, testBit_setBits]
  by_cases h1 : i < w'
  · rw [if_neg (by omega)]
  · simp [h1]

/-- A word with a field of it replaced is a word. -/
theorem setBits_lt (v lo w x n : Nat) (hv : v < 2 ^ n) (hw : lo + w ≤ n) : setBits v lo w x < 2 ^ n := by
  apply Nat.lt_pow_two_of_testBit
  intro i hi
  rw [testBit_setBits, if_neg (by omega)]
  exact Nat.testBit_lt_two_pow (Nat.lt_of_lt_of_le hv (Nat.pow_le_pow_right (by omega) hi))

theorem leBytes_length (k n : Nat) : (leBytes k n).length = k := by
  induction k generalizing n with
  | zero => rfl
  | succ k ih => simp [leBytes, ih]

/-- A number read back from its bytes (R11). -/
theorem leNat_leBytes (k n : Nat) : leNat (leBytes k n) = n % 2 ^ (8 * k) := by
  induction k generalizing n with
  | zero => simp [leBytes, leNat, Nat.mod_one]
  | succ k ih =>
    have h : 2 ^ (8 * (k + 1)) = 256 * 2 ^ (8 * k) := by rw [Nat.mul_add, Nat.pow_add]; omega
    rw [leBytes, leNat, ih, h, Nat.mod_mul, BitVec.toNat_ofNat]

end Sys2Proof.Machine
end

