-- ==== Sys2Proof/Laws/Tab.lean ====
section
/-! SUPPORT. The laws of sparse tables: a read after a write, and the canonical form kept by every operation. -/

namespace Sys2Proof.Machine

variable {α : Type}

theorem tfind_tins_same (t : List (Nat × α)) (k : Nat) (v : α) : tfind (tins t k v) k = some v := by
  induction t with
  | nil => simp [tins, tfind]
  | cons e r ih =>
    obtain ⟨j, w⟩ := e
    simp only [tins]
    split
    · simp [tfind]
    · split
      · simp [tfind]
      · next h => simp [tfind, Ne.symm h, ih]

theorem tfind_tins_ne (t : List (Nat × α)) {k j : Nat} (v : α) (h : j ≠ k) : tfind (tins t k v) j = tfind t j := by
  induction t with
  | nil => simp [tins, tfind, Ne.symm h]
  | cons e r ih =>
    obtain ⟨i, w⟩ := e
    simp only [tins]
    split
    · simp [tfind, Ne.symm h]
    · split
      · next h1 => subst h1; simp [tfind, Ne.symm h]
      · simp [tfind, ih]

theorem tfind_tdel_same (t : List (Nat × α)) (k : Nat) : tfind (tdel t k) k = none := by
  induction t with
  | nil => rfl
  | cons e r ih =>
    obtain ⟨i, w⟩ := e
    by_cases h : i = k
    · simpa [tdel, h] using ih
    · simp only [tdel, List.filter_cons, bne_iff_ne, ne_eq, h, not_false_eq_true, if_true] at ih ⊢
      simpa [tfind, h] using ih

theorem tfind_tdel_ne (t : List (Nat × α)) {k j : Nat} (h : j ≠ k) : tfind (tdel t k) j = tfind t j := by
  induction t with
  | nil => rfl
  | cons e r ih =>
    obtain ⟨i, w⟩ := e
    by_cases h1 : i = k
    · subst h1
      simp only [tdel, List.filter_cons, bne_self_eq_false, Bool.false_eq_true, if_false] at ih ⊢
      simpa [tfind, Ne.symm h] using ih
    · simp only [tdel, List.filter_cons, bne_iff_ne, ne_eq, h1, not_false_eq_true, if_true] at ih ⊢
      by_cases h2 : i = j
      · simp [tfind, h2]
      · simpa [tfind, h2] using ih

/-- A read of the key just written. -/
@[simp] theorem tget_tput_same [DecidableEq α] (d : α) (t : List (Nat × α)) (k : Nat) (v : α) : tget d (tput d t k v) k = v := by
  unfold tput tget
  split
  · next h => simp [tfind_tdel_same, h]
  · simp [tfind_tins_same]

/-- A read of any other key. -/
theorem tget_tput_ne [DecidableEq α] (d : α) (t : List (Nat × α)) {k j : Nat} (v : α) (h : j ≠ k) :
    tget d (tput d t k v) j = tget d t j := by
  unfold tput tget
  split
  · rw [tfind_tdel_ne t h]
  · rw [tfind_tins_ne t v h]

/-- The entry found after a write: none where the default was written. -/
theorem tfind_tput_same [DecidableEq α] (d : α) (t : List (Nat × α)) (k : Nat) (v : α) :
    tfind (tput d t k v) k = if v = d then none else some v := by
  unfold tput
  split
  · exact tfind_tdel_same t k
  · exact tfind_tins_same t k v

theorem tfind_tput_ne [DecidableEq α] (d : α) (t : List (Nat × α)) {k j : Nat} (v : α) (h : j ≠ k) :
    tfind (tput d t k v) j = tfind t j := by
  unfold tput
  split
  · exact tfind_tdel_ne t h
  · exact tfind_tins_ne t v h

theorem sortedFrom_mono {lo hi : Nat} (h : lo ≤ hi) (t : List (Nat × α)) (hs : sortedFrom hi t = true) : sortedFrom lo t = true := by
  cases t with
  | nil => rfl
  | cons e r =>
    obtain ⟨j, w⟩ := e
    simp only [sortedFrom, Bool.and_eq_true, decide_eq_true_eq] at hs ⊢
    exact ⟨Nat.le_trans h hs.1, hs.2⟩

theorem sortedFrom_tins {lo k : Nat} (t : List (Nat × α)) (v : α) (hk : lo ≤ k) (hs : sortedFrom lo t = true) :
    sortedFrom lo (tins t k v) = true := by
  induction t generalizing lo with
  | nil => simp [tins, sortedFrom, hk]
  | cons e r ih =>
    obtain ⟨j, w⟩ := e
    simp only [sortedFrom, Bool.and_eq_true, decide_eq_true_eq] at hs
    simp only [tins]
    split
    · next h =>
      simp only [sortedFrom, Bool.and_eq_true, decide_eq_true_eq]
      exact ⟨hk, by omega, hs.2⟩
    · split
      · next h => subst h; simp only [sortedFrom, Bool.and_eq_true, decide_eq_true_eq]; exact ⟨hk, hs.2⟩
      · next h1 h2 =>
        simp only [sortedFrom, Bool.and_eq_true, decide_eq_true_eq]
        exact ⟨hs.1, ih (by omega) hs.2⟩

theorem sortedFrom_filter {lo : Nat} (t : List (Nat × α)) (p : Nat × α → Bool) (hs : sortedFrom lo t = true) :
    sortedFrom lo (t.filter p) = true := by
  induction t generalizing lo with
  | nil => rfl
  | cons e r ih =>
    obtain ⟨j, w⟩ := e
    simp only [sortedFrom, Bool.and_eq_true, decide_eq_true_eq] at hs
    by_cases h : p (j, w) = true
    · simp only [List.filter_cons, h, if_true, sortedFrom, Bool.and_eq_true, decide_eq_true_eq]
      exact ⟨hs.1, ih hs.2⟩
    · simp only [List.filter_cons, h]
      exact ih (sortedFrom_mono (by omega) r hs.2)

theorem mem_of_mem_tins {t : List (Nat × α)} {k : Nat} {v : α} {e : Nat × α} (h : e ∈ tins t k v) : e = (k, v) ∨ e ∈ t := by
  induction t with
  | nil => simpa [tins] using h
  | cons x r ih =>
    obtain ⟨j, w⟩ := x
    simp only [tins] at h
    split at h
    · rcases List.mem_cons.1 h with h | h
      · exact .inl h
      · exact .inr h
    · split at h
      · rcases List.mem_cons.1 h with h | h
        · exact .inl h
        · exact .inr (List.mem_cons_of_mem _ h)
      · rcases List.mem_cons.1 h with h | h
        · exact .inr (h ▸ List.mem_cons_self)
        · rcases ih h with h | h
          · exact .inl h
          · exact .inr (List.mem_cons_of_mem _ h)

/-- Removing entries keeps the canonical form. -/
theorem twf_filter [DecidableEq α] (d : Nat → α) (t : List (Nat × α)) (p : Nat × α → Bool) (h : twf d t = true) :
    twf d (t.filter p) = true := by
  simp only [twf, Bool.and_eq_true, List.all_eq_true, decide_eq_true_eq] at h ⊢
  exact ⟨sortedFrom_filter t p h.1, fun e he => h.2 e (List.mem_filter.1 he).1⟩

/-- A write keeps the canonical form. -/
theorem twf_tput [DecidableEq α] (d : Nat → α) (t : List (Nat × α)) (k : Nat) (v : α) (h : twf d t = true) :
    twf d (tput (d k) t k v) = true := by
  unfold tput
  split
  · exact twf_filter d t _ h
  · next hv =>
    simp only [twf, Bool.and_eq_true, List.all_eq_true, decide_eq_true_eq] at h ⊢
    refine ⟨sortedFrom_tins t v (Nat.zero_le k) h.1, fun e he => ?_⟩
    rcases mem_of_mem_tins he with he | he
    · subst he; exact hv
    · exact h.2 e he

end Sys2Proof.Machine
end

