-- ==== Sys2Proof/Laws/State.lean ====
section
/-! SUPPORT. State under its updates: what each update leaves alone, field by field, and what a read finds after it. -/

namespace Sys2Proof.Machine

@[simp] theorem regPut_pending (s : State) (a v : Nat) : (regPut s a v).pending = s.pending := rfl
@[simp] theorem regPut_code (s : State) (a v : Nat) : (regPut s a v).code = s.code := rfl
@[simp] theorem regPut_stepping (s : State) (a v : Nat) : (regPut s a v).stepping = s.stepping := rfl
@[simp] theorem regPut_fuses (s : State) (a v : Nat) : (regPut s a v).fuses = s.fuses := rfl
@[simp] theorem regPut_now (s : State) (a v : Nat) : (regPut s a v).now = s.now := rfl
@[simp] theorem regPut_free (s : State) (a v : Nat) : (regPut s a v).free = s.free := rfl
@[simp] theorem regPut_regBad (s : State) (a v : Nat) : (regPut s a v).regBad = s.regBad := rfl
@[simp] theorem regPut_mem (s : State) (a v : Nat) : (regPut s a v).mem = s.mem := rfl
@[simp] theorem regPut_guard (s : State) (a v : Nat) : (regPut s a v).guard = s.guard := rfl
@[simp] theorem regPut_out (s : State) (a v : Nat) : (regPut s a v).out = s.out := rfl
@[simp] theorem regPut_msgs (s : State) (a v : Nat) : (regPut s a v).msgs = s.msgs := rfl
@[simp] theorem regPut_vecLast (s : State) (a v : Nat) : (regPut s a v).vecLast = s.vecLast := rfl
@[simp] theorem regPut_rose (s : State) (a v : Nat) : (regPut s a v).rose = s.rose := rfl
@[simp] theorem regPut_runs (s : State) (a v : Nat) : (regPut s a v).runs = s.runs := rfl
@[simp] theorem regPut_mirrored (s : State) (a v : Nat) : (regPut s a v).mirrored = s.mirrored := rfl
@[simp] theorem regPut_gals (s : State) (a v : Nat) : (regPut s a v).gals = s.gals := rfl
@[simp] theorem regPut_gone (s : State) (a v : Nat) : (regPut s a v).gone = s.gone := rfl
@[simp] theorem regPut_parts (s : State) (a v : Nat) : (regPut s a v).parts = s.parts := rfl
@[simp] theorem regPut_frameOwner (s : State) (a v : Nat) : (regPut s a v).frameOwner = s.frameOwner := rfl
@[simp] theorem regPut_flashOwner (s : State) (a v : Nat) : (regPut s a v).flashOwner = s.flashOwner := rfl
@[simp] theorem regPut_rowErrs (s : State) (a v : Nat) : (regPut s a v).rowErrs = s.rowErrs := rfl
@[simp] theorem regPut_badWords (s : State) (a v : Nat) : (regPut s a v).badWords = s.badWords := rfl
@[simp] theorem regPut_sess (s : State) (a v : Nat) : (regPut s a v).sess = s.sess := rfl
@[simp] theorem regPut_mcast (s : State) (a v : Nat) : (regPut s a v).mcast = s.mcast := rfl
@[simp] theorem regPut_ports (s : State) (a v : Nat) : (regPut s a v).ports = s.ports := rfl
@[simp] theorem regPut_ringSettled (s : State) (a v : Nat) : (regPut s a v).ringSettled = s.ringSettled := rfl
@[simp] theorem regPut_ringAt (s : State) (a v : Nat) : (regPut s a v).ringAt = s.ringAt := rfl
@[simp] theorem regPut_scrub (s : State) (a v : Nat) : (regPut s a v).scrub = s.scrub := rfl
@[simp] theorem regPut_power (s : State) (a v : Nat) : (regPut s a v).power = s.power := rfl
@[simp] theorem regPut_boot (s : State) (a v : Nat) : (regPut s a v).boot = s.boot := rfl
@[simp] theorem regPut_obs (s : State) (a v : Nat) : (regPut s a v).obs = s.obs := rfl

@[simp] theorem wr_pending (s : State) (pg : Nat) (f : FRef) (v : Nat) : (wr s pg f v).pending = s.pending := rfl
@[simp] theorem wr_code (s : State) (pg : Nat) (f : FRef) (v : Nat) : (wr s pg f v).code = s.code := rfl
@[simp] theorem wr_stepping (s : State) (pg : Nat) (f : FRef) (v : Nat) : (wr s pg f v).stepping = s.stepping := rfl
@[simp] theorem wr_fuses (s : State) (pg : Nat) (f : FRef) (v : Nat) : (wr s pg f v).fuses = s.fuses := rfl
@[simp] theorem wr_now (s : State) (pg : Nat) (f : FRef) (v : Nat) : (wr s pg f v).now = s.now := rfl
@[simp] theorem wr_free (s : State) (pg : Nat) (f : FRef) (v : Nat) : (wr s pg f v).free = s.free := rfl
@[simp] theorem wr_regBad (s : State) (pg : Nat) (f : FRef) (v : Nat) : (wr s pg f v).regBad = s.regBad := rfl
@[simp] theorem wr_mem (s : State) (pg : Nat) (f : FRef) (v : Nat) : (wr s pg f v).mem = s.mem := rfl
@[simp] theorem wr_guard (s : State) (pg : Nat) (f : FRef) (v : Nat) : (wr s pg f v).guard = s.guard := rfl
@[simp] theorem wr_out (s : State) (pg : Nat) (f : FRef) (v : Nat) : (wr s pg f v).out = s.out := rfl
@[simp] theorem wr_msgs (s : State) (pg : Nat) (f : FRef) (v : Nat) : (wr s pg f v).msgs = s.msgs := rfl
@[simp] theorem wr_vecLast (s : State) (pg : Nat) (f : FRef) (v : Nat) : (wr s pg f v).vecLast = s.vecLast := rfl
@[simp] theorem wr_rose (s : State) (pg : Nat) (f : FRef) (v : Nat) : (wr s pg f v).rose = s.rose := rfl
@[simp] theorem wr_runs (s : State) (pg : Nat) (f : FRef) (v : Nat) : (wr s pg f v).runs = s.runs := rfl
@[simp] theorem wr_mirrored (s : State) (pg : Nat) (f : FRef) (v : Nat) : (wr s pg f v).mirrored = s.mirrored := rfl
@[simp] theorem wr_gals (s : State) (pg : Nat) (f : FRef) (v : Nat) : (wr s pg f v).gals = s.gals := rfl
@[simp] theorem wr_gone (s : State) (pg : Nat) (f : FRef) (v : Nat) : (wr s pg f v).gone = s.gone := rfl
@[simp] theorem wr_parts (s : State) (pg : Nat) (f : FRef) (v : Nat) : (wr s pg f v).parts = s.parts := rfl
@[simp] theorem wr_frameOwner (s : State) (pg : Nat) (f : FRef) (v : Nat) : (wr s pg f v).frameOwner = s.frameOwner := rfl
@[simp] theorem wr_flashOwner (s : State) (pg : Nat) (f : FRef) (v : Nat) : (wr s pg f v).flashOwner = s.flashOwner := rfl
@[simp] theorem wr_rowErrs (s : State) (pg : Nat) (f : FRef) (v : Nat) : (wr s pg f v).rowErrs = s.rowErrs := rfl
@[simp] theorem wr_badWords (s : State) (pg : Nat) (f : FRef) (v : Nat) : (wr s pg f v).badWords = s.badWords := rfl
@[simp] theorem wr_sess (s : State) (pg : Nat) (f : FRef) (v : Nat) : (wr s pg f v).sess = s.sess := rfl
@[simp] theorem wr_mcast (s : State) (pg : Nat) (f : FRef) (v : Nat) : (wr s pg f v).mcast = s.mcast := rfl
@[simp] theorem wr_ports (s : State) (pg : Nat) (f : FRef) (v : Nat) : (wr s pg f v).ports = s.ports := rfl
@[simp] theorem wr_ringSettled (s : State) (pg : Nat) (f : FRef) (v : Nat) : (wr s pg f v).ringSettled = s.ringSettled := rfl
@[simp] theorem wr_ringAt (s : State) (pg : Nat) (f : FRef) (v : Nat) : (wr s pg f v).ringAt = s.ringAt := rfl
@[simp] theorem wr_scrub (s : State) (pg : Nat) (f : FRef) (v : Nat) : (wr s pg f v).scrub = s.scrub := rfl
@[simp] theorem wr_power (s : State) (pg : Nat) (f : FRef) (v : Nat) : (wr s pg f v).power = s.power := rfl
@[simp] theorem wr_boot (s : State) (pg : Nat) (f : FRef) (v : Nat) : (wr s pg f v).boot = s.boot := rfl
@[simp] theorem wr_obs (s : State) (pg : Nat) (f : FRef) (v : Nat) : (wr s pg f v).obs = s.obs := rfl

@[simp] theorem bump_pending (s : State) (pg : Nat) (f : FRef) (n : Nat) : (bump s pg f n).pending = s.pending := rfl
@[simp] theorem bump_code (s : State) (pg : Nat) (f : FRef) (n : Nat) : (bump s pg f n).code = s.code := rfl
@[simp] theorem bump_stepping (s : State) (pg : Nat) (f : FRef) (n : Nat) : (bump s pg f n).stepping = s.stepping := rfl
@[simp] theorem bump_fuses (s : State) (pg : Nat) (f : FRef) (n : Nat) : (bump s pg f n).fuses = s.fuses := rfl
@[simp] theorem bump_now (s : State) (pg : Nat) (f : FRef) (n : Nat) : (bump s pg f n).now = s.now := rfl
@[simp] theorem bump_free (s : State) (pg : Nat) (f : FRef) (n : Nat) : (bump s pg f n).free = s.free := rfl
@[simp] theorem bump_regBad (s : State) (pg : Nat) (f : FRef) (n : Nat) : (bump s pg f n).regBad = s.regBad := rfl
@[simp] theorem bump_mem (s : State) (pg : Nat) (f : FRef) (n : Nat) : (bump s pg f n).mem = s.mem := rfl
@[simp] theorem bump_guard (s : State) (pg : Nat) (f : FRef) (n : Nat) : (bump s pg f n).guard = s.guard := rfl
@[simp] theorem bump_out (s : State) (pg : Nat) (f : FRef) (n : Nat) : (bump s pg f n).out = s.out := rfl
@[simp] theorem bump_msgs (s : State) (pg : Nat) (f : FRef) (n : Nat) : (bump s pg f n).msgs = s.msgs := rfl
@[simp] theorem bump_vecLast (s : State) (pg : Nat) (f : FRef) (n : Nat) : (bump s pg f n).vecLast = s.vecLast := rfl
@[simp] theorem bump_rose (s : State) (pg : Nat) (f : FRef) (n : Nat) : (bump s pg f n).rose = s.rose := rfl
@[simp] theorem bump_runs (s : State) (pg : Nat) (f : FRef) (n : Nat) : (bump s pg f n).runs = s.runs := rfl
@[simp] theorem bump_mirrored (s : State) (pg : Nat) (f : FRef) (n : Nat) : (bump s pg f n).mirrored = s.mirrored := rfl
@[simp] theorem bump_gals (s : State) (pg : Nat) (f : FRef) (n : Nat) : (bump s pg f n).gals = s.gals := rfl
@[simp] theorem bump_gone (s : State) (pg : Nat) (f : FRef) (n : Nat) : (bump s pg f n).gone = s.gone := rfl
@[simp] theorem bump_parts (s : State) (pg : Nat) (f : FRef) (n : Nat) : (bump s pg f n).parts = s.parts := rfl
@[simp] theorem bump_frameOwner (s : State) (pg : Nat) (f : FRef) (n : Nat) : (bump s pg f n).frameOwner = s.frameOwner := rfl
@[simp] theorem bump_flashOwner (s : State) (pg : Nat) (f : FRef) (n : Nat) : (bump s pg f n).flashOwner = s.flashOwner := rfl
@[simp] theorem bump_rowErrs (s : State) (pg : Nat) (f : FRef) (n : Nat) : (bump s pg f n).rowErrs = s.rowErrs := rfl
@[simp] theorem bump_badWords (s : State) (pg : Nat) (f : FRef) (n : Nat) : (bump s pg f n).badWords = s.badWords := rfl
@[simp] theorem bump_sess (s : State) (pg : Nat) (f : FRef) (n : Nat) : (bump s pg f n).sess = s.sess := rfl
@[simp] theorem bump_mcast (s : State) (pg : Nat) (f : FRef) (n : Nat) : (bump s pg f n).mcast = s.mcast := rfl
@[simp] theorem bump_ports (s : State) (pg : Nat) (f : FRef) (n : Nat) : (bump s pg f n).ports = s.ports := rfl
@[simp] theorem bump_ringSettled (s : State) (pg : Nat) (f : FRef) (n : Nat) : (bump s pg f n).ringSettled = s.ringSettled := rfl
@[simp] theorem bump_ringAt (s : State) (pg : Nat) (f : FRef) (n : Nat) : (bump s pg f n).ringAt = s.ringAt := rfl
@[simp] theorem bump_scrub (s : State) (pg : Nat) (f : FRef) (n : Nat) : (bump s pg f n).scrub = s.scrub := rfl
@[simp] theorem bump_power (s : State) (pg : Nat) (f : FRef) (n : Nat) : (bump s pg f n).power = s.power := rfl
@[simp] theorem bump_boot (s : State) (pg : Nat) (f : FRef) (n : Nat) : (bump s pg f n).boot = s.boot := rfl
@[simp] theorem bump_obs (s : State) (pg : Nat) (f : FRef) (n : Nat) : (bump s pg f n).obs = s.obs := rfl

@[simp] theorem galPut_pending (s : State) (pg : Nat) (x : Gallery) : (galPut s pg x).pending = s.pending := rfl
@[simp] theorem galPut_code (s : State) (pg : Nat) (x : Gallery) : (galPut s pg x).code = s.code := rfl
@[simp] theorem galPut_stepping (s : State) (pg : Nat) (x : Gallery) : (galPut s pg x).stepping = s.stepping := rfl
@[simp] theorem galPut_fuses (s : State) (pg : Nat) (x : Gallery) : (galPut s pg x).fuses = s.fuses := rfl
@[simp] theorem galPut_now (s : State) (pg : Nat) (x : Gallery) : (galPut s pg x).now = s.now := rfl
@[simp] theorem galPut_free (s : State) (pg : Nat) (x : Gallery) : (galPut s pg x).free = s.free := rfl
@[simp] theorem galPut_regs (s : State) (pg : Nat) (x : Gallery) : (galPut s pg x).regs = s.regs := rfl
@[simp] theorem galPut_regBad (s : State) (pg : Nat) (x : Gallery) : (galPut s pg x).regBad = s.regBad := rfl
@[simp] theorem galPut_mem (s : State) (pg : Nat) (x : Gallery) : (galPut s pg x).mem = s.mem := rfl
@[simp] theorem galPut_guard (s : State) (pg : Nat) (x : Gallery) : (galPut s pg x).guard = s.guard := rfl
@[simp] theorem galPut_out (s : State) (pg : Nat) (x : Gallery) : (galPut s pg x).out = s.out := rfl
@[simp] theorem galPut_msgs (s : State) (pg : Nat) (x : Gallery) : (galPut s pg x).msgs = s.msgs := rfl
@[simp] theorem galPut_vecLast (s : State) (pg : Nat) (x : Gallery) : (galPut s pg x).vecLast = s.vecLast := rfl
@[simp] theorem galPut_rose (s : State) (pg : Nat) (x : Gallery) : (galPut s pg x).rose = s.rose := rfl
@[simp] theorem galPut_runs (s : State) (pg : Nat) (x : Gallery) : (galPut s pg x).runs = s.runs := rfl
@[simp] theorem galPut_mirrored (s : State) (pg : Nat) (x : Gallery) : (galPut s pg x).mirrored = s.mirrored := rfl
@[simp] theorem galPut_gone (s : State) (pg : Nat) (x : Gallery) : (galPut s pg x).gone = s.gone := rfl
@[simp] theorem galPut_parts (s : State) (pg : Nat) (x : Gallery) : (galPut s pg x).parts = s.parts := rfl
@[simp] theorem galPut_frameOwner (s : State) (pg : Nat) (x : Gallery) : (galPut s pg x).frameOwner = s.frameOwner := rfl
@[simp] theorem galPut_flashOwner (s : State) (pg : Nat) (x : Gallery) : (galPut s pg x).flashOwner = s.flashOwner := rfl
@[simp] theorem galPut_rowErrs (s : State) (pg : Nat) (x : Gallery) : (galPut s pg x).rowErrs = s.rowErrs := rfl
@[simp] theorem galPut_badWords (s : State) (pg : Nat) (x : Gallery) : (galPut s pg x).badWords = s.badWords := rfl
@[simp] theorem galPut_sess (s : State) (pg : Nat) (x : Gallery) : (galPut s pg x).sess = s.sess := rfl
@[simp] theorem galPut_mcast (s : State) (pg : Nat) (x : Gallery) : (galPut s pg x).mcast = s.mcast := rfl
@[simp] theorem galPut_ports (s : State) (pg : Nat) (x : Gallery) : (galPut s pg x).ports = s.ports := rfl
@[simp] theorem galPut_ringSettled (s : State) (pg : Nat) (x : Gallery) : (galPut s pg x).ringSettled = s.ringSettled := rfl
@[simp] theorem galPut_ringAt (s : State) (pg : Nat) (x : Gallery) : (galPut s pg x).ringAt = s.ringAt := rfl
@[simp] theorem galPut_scrub (s : State) (pg : Nat) (x : Gallery) : (galPut s pg x).scrub = s.scrub := rfl
@[simp] theorem galPut_power (s : State) (pg : Nat) (x : Gallery) : (galPut s pg x).power = s.power := rfl
@[simp] theorem galPut_boot (s : State) (pg : Nat) (x : Gallery) : (galPut s pg x).boot = s.boot := rfl
@[simp] theorem galPut_obs (s : State) (pg : Nat) (x : Gallery) : (galPut s pg x).obs = s.obs := rfl

@[simp] theorem partPut_pending (s : State) (p : Nat) (x : Part) : (partPut s p x).pending = s.pending := rfl
@[simp] theorem partPut_code (s : State) (p : Nat) (x : Part) : (partPut s p x).code = s.code := rfl
@[simp] theorem partPut_stepping (s : State) (p : Nat) (x : Part) : (partPut s p x).stepping = s.stepping := rfl
@[simp] theorem partPut_fuses (s : State) (p : Nat) (x : Part) : (partPut s p x).fuses = s.fuses := rfl
@[simp] theorem partPut_now (s : State) (p : Nat) (x : Part) : (partPut s p x).now = s.now := rfl
@[simp] theorem partPut_free (s : State) (p : Nat) (x : Part) : (partPut s p x).free = s.free := rfl
@[simp] theorem partPut_regs (s : State) (p : Nat) (x : Part) : (partPut s p x).regs = s.regs := rfl
@[simp] theorem partPut_regBad (s : State) (p : Nat) (x : Part) : (partPut s p x).regBad = s.regBad := rfl
@[simp] theorem partPut_mem (s : State) (p : Nat) (x : Part) : (partPut s p x).mem = s.mem := rfl
@[simp] theorem partPut_guard (s : State) (p : Nat) (x : Part) : (partPut s p x).guard = s.guard := rfl
@[simp] theorem partPut_out (s : State) (p : Nat) (x : Part) : (partPut s p x).out = s.out := rfl
@[simp] theorem partPut_msgs (s : State) (p : Nat) (x : Part) : (partPut s p x).msgs = s.msgs := rfl
@[simp] theorem partPut_vecLast (s : State) (p : Nat) (x : Part) : (partPut s p x).vecLast = s.vecLast := rfl
@[simp] theorem partPut_rose (s : State) (p : Nat) (x : Part) : (partPut s p x).rose = s.rose := rfl
@[simp] theorem partPut_runs (s : State) (p : Nat) (x : Part) : (partPut s p x).runs = s.runs := rfl
@[simp] theorem partPut_mirrored (s : State) (p : Nat) (x : Part) : (partPut s p x).mirrored = s.mirrored := rfl
@[simp] theorem partPut_gals (s : State) (p : Nat) (x : Part) : (partPut s p x).gals = s.gals := rfl
@[simp] theorem partPut_gone (s : State) (p : Nat) (x : Part) : (partPut s p x).gone = s.gone := rfl
@[simp] theorem partPut_frameOwner (s : State) (p : Nat) (x : Part) : (partPut s p x).frameOwner = s.frameOwner := rfl
@[simp] theorem partPut_flashOwner (s : State) (p : Nat) (x : Part) : (partPut s p x).flashOwner = s.flashOwner := rfl
@[simp] theorem partPut_rowErrs (s : State) (p : Nat) (x : Part) : (partPut s p x).rowErrs = s.rowErrs := rfl
@[simp] theorem partPut_badWords (s : State) (p : Nat) (x : Part) : (partPut s p x).badWords = s.badWords := rfl
@[simp] theorem partPut_sess (s : State) (p : Nat) (x : Part) : (partPut s p x).sess = s.sess := rfl
@[simp] theorem partPut_mcast (s : State) (p : Nat) (x : Part) : (partPut s p x).mcast = s.mcast := rfl
@[simp] theorem partPut_ports (s : State) (p : Nat) (x : Part) : (partPut s p x).ports = s.ports := rfl
@[simp] theorem partPut_ringSettled (s : State) (p : Nat) (x : Part) : (partPut s p x).ringSettled = s.ringSettled := rfl
@[simp] theorem partPut_ringAt (s : State) (p : Nat) (x : Part) : (partPut s p x).ringAt = s.ringAt := rfl
@[simp] theorem partPut_scrub (s : State) (p : Nat) (x : Part) : (partPut s p x).scrub = s.scrub := rfl
@[simp] theorem partPut_power (s : State) (p : Nat) (x : Part) : (partPut s p x).power = s.power := rfl
@[simp] theorem partPut_boot (s : State) (p : Nat) (x : Part) : (partPut s p x).boot = s.boot := rfl
@[simp] theorem partPut_obs (s : State) (p : Nat) (x : Part) : (partPut s p x).obs = s.obs := rfl

@[simp] theorem sessPut_pending (s : State) (i : Nat) (x : Sess) : (sessPut s i x).pending = s.pending := rfl
@[simp] theorem sessPut_code (s : State) (i : Nat) (x : Sess) : (sessPut s i x).code = s.code := rfl
@[simp] theorem sessPut_stepping (s : State) (i : Nat) (x : Sess) : (sessPut s i x).stepping = s.stepping := rfl
@[simp] theorem sessPut_fuses (s : State) (i : Nat) (x : Sess) : (sessPut s i x).fuses = s.fuses := rfl
@[simp] theorem sessPut_now (s : State) (i : Nat) (x : Sess) : (sessPut s i x).now = s.now := rfl
@[simp] theorem sessPut_free (s : State) (i : Nat) (x : Sess) : (sessPut s i x).free = s.free := rfl
@[simp] theorem sessPut_regs (s : State) (i : Nat) (x : Sess) : (sessPut s i x).regs = s.regs := rfl
@[simp] theorem sessPut_regBad (s : State) (i : Nat) (x : Sess) : (sessPut s i x).regBad = s.regBad := rfl
@[simp] theorem sessPut_mem (s : State) (i : Nat) (x : Sess) : (sessPut s i x).mem = s.mem := rfl
@[simp] theorem sessPut_guard (s : State) (i : Nat) (x : Sess) : (sessPut s i x).guard = s.guard := rfl
@[simp] theorem sessPut_out (s : State) (i : Nat) (x : Sess) : (sessPut s i x).out = s.out := rfl
@[simp] theorem sessPut_msgs (s : State) (i : Nat) (x : Sess) : (sessPut s i x).msgs = s.msgs := rfl
@[simp] theorem sessPut_vecLast (s : State) (i : Nat) (x : Sess) : (sessPut s i x).vecLast = s.vecLast := rfl
@[simp] theorem sessPut_rose (s : State) (i : Nat) (x : Sess) : (sessPut s i x).rose = s.rose := rfl
@[simp] theorem sessPut_runs (s : State) (i : Nat) (x : Sess) : (sessPut s i x).runs = s.runs := rfl
@[simp] theorem sessPut_mirrored (s : State) (i : Nat) (x : Sess) : (sessPut s i x).mirrored = s.mirrored := rfl
@[simp] theorem sessPut_gals (s : State) (i : Nat) (x : Sess) : (sessPut s i x).gals = s.gals := rfl
@[simp] theorem sessPut_gone (s : State) (i : Nat) (x : Sess) : (sessPut s i x).gone = s.gone := rfl
@[simp] theorem sessPut_parts (s : State) (i : Nat) (x : Sess) : (sessPut s i x).parts = s.parts := rfl
@[simp] theorem sessPut_frameOwner (s : State) (i : Nat) (x : Sess) : (sessPut s i x).frameOwner = s.frameOwner := rfl
@[simp] theorem sessPut_flashOwner (s : State) (i : Nat) (x : Sess) : (sessPut s i x).flashOwner = s.flashOwner := rfl
@[simp] theorem sessPut_rowErrs (s : State) (i : Nat) (x : Sess) : (sessPut s i x).rowErrs = s.rowErrs := rfl
@[simp] theorem sessPut_badWords (s : State) (i : Nat) (x : Sess) : (sessPut s i x).badWords = s.badWords := rfl
@[simp] theorem sessPut_mcast (s : State) (i : Nat) (x : Sess) : (sessPut s i x).mcast = s.mcast := rfl
@[simp] theorem sessPut_ports (s : State) (i : Nat) (x : Sess) : (sessPut s i x).ports = s.ports := rfl
@[simp] theorem sessPut_ringSettled (s : State) (i : Nat) (x : Sess) : (sessPut s i x).ringSettled = s.ringSettled := rfl
@[simp] theorem sessPut_ringAt (s : State) (i : Nat) (x : Sess) : (sessPut s i x).ringAt = s.ringAt := rfl
@[simp] theorem sessPut_scrub (s : State) (i : Nat) (x : Sess) : (sessPut s i x).scrub = s.scrub := rfl
@[simp] theorem sessPut_power (s : State) (i : Nat) (x : Sess) : (sessPut s i x).power = s.power := rfl
@[simp] theorem sessPut_boot (s : State) (i : Nat) (x : Sess) : (sessPut s i x).boot = s.boot := rfl
@[simp] theorem sessPut_obs (s : State) (i : Nat) (x : Sess) : (sessPut s i x).obs = s.obs := rfl

@[simp] theorem portPut_pending (s : State) (x p : Nat) (v : Port) : (portPut s x p v).pending = s.pending := rfl
@[simp] theorem portPut_code (s : State) (x p : Nat) (v : Port) : (portPut s x p v).code = s.code := rfl
@[simp] theorem portPut_stepping (s : State) (x p : Nat) (v : Port) : (portPut s x p v).stepping = s.stepping := rfl
@[simp] theorem portPut_fuses (s : State) (x p : Nat) (v : Port) : (portPut s x p v).fuses = s.fuses := rfl
@[simp] theorem portPut_now (s : State) (x p : Nat) (v : Port) : (portPut s x p v).now = s.now := rfl
@[simp] theorem portPut_free (s : State) (x p : Nat) (v : Port) : (portPut s x p v).free = s.free := rfl
@[simp] theorem portPut_regs (s : State) (x p : Nat) (v : Port) : (portPut s x p v).regs = s.regs := rfl
@[simp] theorem portPut_regBad (s : State) (x p : Nat) (v : Port) : (portPut s x p v).regBad = s.regBad := rfl
@[simp] theorem portPut_mem (s : State) (x p : Nat) (v : Port) : (portPut s x p v).mem = s.mem := rfl
@[simp] theorem portPut_guard (s : State) (x p : Nat) (v : Port) : (portPut s x p v).guard = s.guard := rfl
@[simp] theorem portPut_out (s : State) (x p : Nat) (v : Port) : (portPut s x p v).out = s.out := rfl
@[simp] theorem portPut_msgs (s : State) (x p : Nat) (v : Port) : (portPut s x p v).msgs = s.msgs := rfl
@[simp] theorem portPut_vecLast (s : State) (x p : Nat) (v : Port) : (portPut s x p v).vecLast = s.vecLast := rfl
@[simp] theorem portPut_rose (s : State) (x p : Nat) (v : Port) : (portPut s x p v).rose = s.rose := rfl
@[simp] theorem portPut_runs (s : State) (x p : Nat) (v : Port) : (portPut s x p v).runs = s.runs := rfl
@[simp] theorem portPut_mirrored (s : State) (x p : Nat) (v : Port) : (portPut s x p v).mirrored = s.mirrored := rfl
@[simp] theorem portPut_gals (s : State) (x p : Nat) (v : Port) : (portPut s x p v).gals = s.gals := rfl
@[simp] theorem portPut_gone (s : State) (x p : Nat) (v : Port) : (portPut s x p v).gone = s.gone := rfl
@[simp] theorem portPut_parts (s : State) (x p : Nat) (v : Port) : (portPut s x p v).parts = s.parts := rfl
@[simp] theorem portPut_frameOwner (s : State) (x p : Nat) (v : Port) : (portPut s x p v).frameOwner = s.frameOwner := rfl
@[simp] theorem portPut_flashOwner (s : State) (x p : Nat) (v : Port) : (portPut s x p v).flashOwner = s.flashOwner := rfl
@[simp] theorem portPut_rowErrs (s : State) (x p : Nat) (v : Port) : (portPut s x p v).rowErrs = s.rowErrs := rfl
@[simp] theorem portPut_badWords (s : State) (x p : Nat) (v : Port) : (portPut s x p v).badWords = s.badWords := rfl
@[simp] theorem portPut_sess (s : State) (x p : Nat) (v : Port) : (portPut s x p v).sess = s.sess := rfl
@[simp] theorem portPut_mcast (s : State) (x p : Nat) (v : Port) : (portPut s x p v).mcast = s.mcast := rfl
@[simp] theorem portPut_ringSettled (s : State) (x p : Nat) (v : Port) : (portPut s x p v).ringSettled = s.ringSettled := rfl
@[simp] theorem portPut_ringAt (s : State) (x p : Nat) (v : Port) : (portPut s x p v).ringAt = s.ringAt := rfl
@[simp] theorem portPut_scrub (s : State) (x p : Nat) (v : Port) : (portPut s x p v).scrub = s.scrub := rfl
@[simp] theorem portPut_power (s : State) (x p : Nat) (v : Port) : (portPut s x p v).power = s.power := rfl
@[simp] theorem portPut_boot (s : State) (x p : Nat) (v : Port) : (portPut s x p v).boot = s.boot := rfl
@[simp] theorem portPut_obs (s : State) (x p : Nat) (v : Port) : (portPut s x p v).obs = s.obs := rfl

@[simp] theorem emit_pending (s : State) (o : Out) : (emit s o).pending = s.pending := rfl
@[simp] theorem emit_code (s : State) (o : Out) : (emit s o).code = s.code := rfl
@[simp] theorem emit_stepping (s : State) (o : Out) : (emit s o).stepping = s.stepping := rfl
@[simp] theorem emit_fuses (s : State) (o : Out) : (emit s o).fuses = s.fuses := rfl
@[simp] theorem emit_now (s : State) (o : Out) : (emit s o).now = s.now := rfl
@[simp] theorem emit_free (s : State) (o : Out) : (emit s o).free = s.free := rfl
@[simp] theorem emit_regs (s : State) (o : Out) : (emit s o).regs = s.regs := rfl
@[simp] theorem emit_regBad (s : State) (o : Out) : (emit s o).regBad = s.regBad := rfl
@[simp] theorem emit_mem (s : State) (o : Out) : (emit s o).mem = s.mem := rfl
@[simp] theorem emit_guard (s : State) (o : Out) : (emit s o).guard = s.guard := rfl
@[simp] theorem emit_msgs (s : State) (o : Out) : (emit s o).msgs = s.msgs := rfl
@[simp] theorem emit_vecLast (s : State) (o : Out) : (emit s o).vecLast = s.vecLast := rfl
@[simp] theorem emit_rose (s : State) (o : Out) : (emit s o).rose = s.rose := rfl
@[simp] theorem emit_runs (s : State) (o : Out) : (emit s o).runs = s.runs := rfl
@[simp] theorem emit_mirrored (s : State) (o : Out) : (emit s o).mirrored = s.mirrored := rfl
@[simp] theorem emit_gals (s : State) (o : Out) : (emit s o).gals = s.gals := rfl
@[simp] theorem emit_gone (s : State) (o : Out) : (emit s o).gone = s.gone := rfl
@[simp] theorem emit_parts (s : State) (o : Out) : (emit s o).parts = s.parts := rfl
@[simp] theorem emit_frameOwner (s : State) (o : Out) : (emit s o).frameOwner = s.frameOwner := rfl
@[simp] theorem emit_flashOwner (s : State) (o : Out) : (emit s o).flashOwner = s.flashOwner := rfl
@[simp] theorem emit_rowErrs (s : State) (o : Out) : (emit s o).rowErrs = s.rowErrs := rfl
@[simp] theorem emit_badWords (s : State) (o : Out) : (emit s o).badWords = s.badWords := rfl
@[simp] theorem emit_sess (s : State) (o : Out) : (emit s o).sess = s.sess := rfl
@[simp] theorem emit_mcast (s : State) (o : Out) : (emit s o).mcast = s.mcast := rfl
@[simp] theorem emit_ports (s : State) (o : Out) : (emit s o).ports = s.ports := rfl
@[simp] theorem emit_ringSettled (s : State) (o : Out) : (emit s o).ringSettled = s.ringSettled := rfl
@[simp] theorem emit_ringAt (s : State) (o : Out) : (emit s o).ringAt = s.ringAt := rfl
@[simp] theorem emit_scrub (s : State) (o : Out) : (emit s o).scrub = s.scrub := rfl
@[simp] theorem emit_power (s : State) (o : Out) : (emit s o).power = s.power := rfl
@[simp] theorem emit_boot (s : State) (o : Out) : (emit s o).boot = s.boot := rfl
@[simp] theorem emit_obs (s : State) (o : Out) : (emit s o).obs = s.obs := rfl

theorem resetOf_lt (code : OrderCode) (fu : Fuses) (a : Nat) : resetOf code fu a < 2 ^ 64 := Nat.mod_lt _ (Nat.two_pow_pos 64)

theorem regGet_lt (s : State) (a : Nat) : regGet s a < 2 ^ 64 := by
  unfold regGet
  split
  · exact BitVec.isLt _
  · exact resetOf_lt _ _ _

/-- A register reads the word just put there. -/
theorem regGet_regPut_same (s : State) (a v : Nat) : regGet (regPut s a v) a = v % 2 ^ 64 := by
  unfold regGet regPut
  simp only [tfind_tput_same]
  split
  · next h =>
    split at h
    · cases h
    · injection h with h; subst h; exact BitVec.toNat_ofNat v 64
  · next h =>
    split at h
    · next e =>
      have h1 := congrArg BitVec.toNat e
      rw [BitVec.toNat_ofNat, BitVec.toNat_ofNat, Nat.mod_eq_of_lt (resetOf_lt _ _ _)] at h1
      exact h1.symm
    · cases h

/-- Every other register stands. -/
theorem regGet_regPut_ne (s : State) {a b : Nat} (v : Nat) (h : b ≠ a) : regGet (regPut s a v) b = regGet s b := by
  simp only [regGet, regPut, tfind_tput_ne _ _ _ h]

/-- The word of a register after a field of its page is written. -/
theorem regGet_wr (s : State) (pg : Nat) (f : FRef) (v b : Nat) :
    regGet (wr s pg f v) b = if b = pg * 4096 + f.off then setBits (regGet s b) f.lo f.w v % 2 ^ 64 else regGet s b := by
  unfold wr
  split
  · next h => subst h; exact regGet_regPut_same _ _ _
  · next h => exact regGet_regPut_ne _ _ h

/-- A field reads as it was written. -/
theorem rd_wr_same (s : State) (pg : Nat) (f : FRef) (v : Nat) (h : f.lo + f.w ≤ 64) : rd (wr s pg f v) pg f = v % 2 ^ f.w := by
  rw [rd, regGet_wr, if_pos rfl, Nat.mod_eq_of_lt (setBits_lt _ _ _ _ _ (regGet_lt _ _) h), bits_setBits_same]

/-- A field of another register, or of other bits, stands. -/
theorem rd_wr_ne (s : State) (pg : Nat) (f : FRef) (v pg' : Nat) (f' : FRef) (h : f.lo + f.w ≤ 64)
    (hd : pg' * 4096 + f'.off ≠ pg * 4096 + f.off ∨ f'.lo + f'.w ≤ f.lo ∨ f.lo + f.w ≤ f'.lo) :
    rd (wr s pg f v) pg' f' = rd s pg' f' := by
  simp only [rd, regGet_wr]
  split
  · next e =>
    rcases hd with hd | hd
    · exact absurd e hd
    · rw [Nat.mod_eq_of_lt (setBits_lt _ _ _ _ _ (regGet_lt _ _) h), bits_setBits_ne _ _ _ _ _ _ hd]
  · rfl

theorem rd_lt (s : State) (pg : Nat) (f : FRef) : rd s pg f < 2 ^ f.w := bits_lt _ _ _

@[simp] theorem galGet_galPut_same (s : State) (pg : Nat) (x : Gallery) : galGet (galPut s pg x) pg = x := tget_tput_same _ _ _ _
theorem galGet_galPut_ne (s : State) {pg pg' : Nat} (x : Gallery) (h : pg' ≠ pg) : galGet (galPut s pg x) pg' = galGet s pg' :=
  tget_tput_ne _ _ _ h
@[simp] theorem partGet_partPut_same (s : State) (p : Nat) (x : Part) : partGet (partPut s p x) p = x := tget_tput_same _ _ _ _
theorem partGet_partPut_ne (s : State) {p p' : Nat} (x : Part) (h : p' ≠ p) : partGet (partPut s p x) p' = partGet s p' :=
  tget_tput_ne _ _ _ h
@[simp] theorem sessGet_sessPut_same (s : State) (i : Nat) (x : Sess) : sessGet (sessPut s i x) i = some x := tfind_tins_same _ _ _
theorem sessGet_sessPut_ne (s : State) {i j : Nat} (x : Sess) (h : j ≠ i) : sessGet (sessPut s i x) j = sessGet s j :=
  tfind_tins_ne _ _ h
@[simp] theorem portGet_portPut_same (s : State) (x p : Nat) (v : Port) : portGet (portPut s x p v) x p = v := tget_tput_same _ _ _ _
@[simp] theorem regGet_galPut (s : State) (pg : Nat) (x : Gallery) (a : Nat) : regGet (galPut s pg x) a = regGet s a := rfl
@[simp] theorem regGet_partPut (s : State) (p : Nat) (x : Part) (a : Nat) : regGet (partPut s p x) a = regGet s a := rfl
@[simp] theorem regGet_sessPut (s : State) (i : Nat) (x : Sess) (a : Nat) : regGet (sessPut s i x) a = regGet s a := rfl
@[simp] theorem regGet_portPut (s : State) (x p : Nat) (v : Port) (a : Nat) : regGet (portPut s x p v) a = regGet s a := rfl
@[simp] theorem regGet_emit (s : State) (o : Out) (a : Nat) : regGet (emit s o) a = regGet s a := rfl
@[simp] theorem rd_galPut (s : State) (pg : Nat) (x : Gallery) (p : Nat) (f : FRef) : rd (galPut s pg x) p f = rd s p f := rfl
@[simp] theorem rd_partPut (s : State) (p : Nat) (x : Part) (pg : Nat) (f : FRef) : rd (partPut s p x) pg f = rd s pg f := rfl
@[simp] theorem rd_sessPut (s : State) (i : Nat) (x : Sess) (pg : Nat) (f : FRef) : rd (sessPut s i x) pg f = rd s pg f := rfl
@[simp] theorem rd_portPut (s : State) (x p : Nat) (v : Port) (pg : Nat) (f : FRef) : rd (portPut s x p v) pg f = rd s pg f := rfl
@[simp] theorem rd_emit (s : State) (o : Out) (pg : Nat) (f : FRef) : rd (emit s o) pg f = rd s pg f := rfl

end Sys2Proof.Machine
end

