-- ==== Sys2Proof/Laws/Blocks.lean ====
section
/-! SUPPORT. Events, Ledger counters and error records: everything they can change, said once. -/

namespace Sys2Proof.Machine

/-- A state that differs from another only where an event can: registers, what each vector carries next, the messages sent, when bits rose,
and, where an EVENT packet leaves, its session and its port (R70-R75, R359). -/
def EventOnly (s t : State) : Prop :=
  t = { s with
    regs := t.regs
    vecLast := t.vecLast
    out := t.out
    rose := t.rose
    sess := t.sess
    ports := t.ports }

theorem EventOnly.refl (s : State) : EventOnly s s := rfl

theorem EventOnly.trans {s t u : State} (h1 : EventOnly s t) (h2 : EventOnly t u) : EventOnly s u := by
  unfold EventOnly at *
  rw [h2, h1]

theorem eventOnly_regPut (s : State) (a v : Nat) : EventOnly s (regPut s a v) := rfl

theorem eventOnly_wr (s : State) (pg : Nat) (f : FRef) (v : Nat) : EventOnly s (wr s pg f v) := rfl

theorem eventOnly_emit (s : State) (o : Out) : EventOnly s (emit s o) := rfl

theorem eventOnly_vecLast (s : State) (l : Tab VecLast) : EventOnly s { s with vecLast := l } := rfl

theorem eventOnly_transmit (s : State) (i : Nat) (x : Sess) (o : Out) (seq msg : Word32) (ends : Bool × Bool) (retx : Bool) :
    EventOnly s (transmit s i x o seq msg ends retx) := by
  unfold transmit
  extract_lets h bytes s1 s2
  have h1 : EventOnly s s1 := rfl
  refine EventOnly.trans (EventOnly.trans h1 ?_) (eventOnly_emit _ _)
  simp only [s2]
  split
  · rfl
  · rfl

variable {count : State → Nat → State}

theorem eventOnly_vecSend (hc : ∀ t x, EventOnly t (count t x)) (s : State) (v : Nat) (m : Out) : EventOnly s (vecSend count s v m) := by
  unfold vecSend
  dsimp only
  repeat' split
  · exact eventOnly_emit _ _
  · exact EventOnly.trans (eventOnly_transmit _ _ _ _ _ _ _ _) (hc _ _)
  · exact EventOnly.refl s

theorem eventOnly_vecDeliverBy (hc : ∀ t x, EventOnly t (count t x)) (s : State) (v : Nat) : EventOnly s (vecDeliverBy count s v) := by
  unfold vecDeliverBy
  dsimp only
  repeat' split
  · exact EventOnly.refl s
  · exact EventOnly.trans (eventOnly_regPut _ _ _) (eventOnly_vecSend hc _ _ _)
  · exact EventOnly.refl s
  · exact eventOnly_regPut _ _ _

theorem eventOnly_vecTryBy (hc : ∀ t x, EventOnly t (count t x)) (s : State) (v : Nat) : EventOnly s (vecTryBy count s v) := by
  unfold vecTryBy
  split
  · exact eventOnly_vecDeliverBy hc s v
  · exact EventOnly.refl s

theorem eventOnly_vecRaiseBy (hc : ∀ t x, EventOnly t (count t x)) (s : State) (v pg : Nat) : EventOnly s (vecRaiseBy count s v pg) := by
  unfold vecRaiseBy
  dsimp only
  split
  · exact EventOnly.trans (EventOnly.trans (eventOnly_vecLast s _) (eventOnly_regPut _ _ _)) (eventOnly_vecTryBy hc _ v)
  · exact eventOnly_regPut _ _ _

theorem eventOnly_markEvent (s : State) (pg b : Nat) (zero : Bool) : EventOnly s (markEvent s pg b zero) := rfl

theorem eventOnly_raiseOnBy (hc : ∀ t x, EventOnly t (count t x)) (s : State) (pg b v : Nat) : EventOnly s (raiseOnBy count s pg b v) := by
  unfold raiseOnBy
  split
  · exact EventOnly.trans (eventOnly_markEvent _ _ _ _) (eventOnly_vecRaiseBy hc _ _ _)
  · exact eventOnly_markEvent _ _ _ _

theorem eventOnly_tallyBy {after : State → State} (ho : ∀ t, EventOnly t (after t)) (s : State) (pg i w : Nat) :
    EventOnly s (tallyBy after s pg i w) := by
  unfold tallyBy
  dsimp only
  split
  · exact eventOnly_regPut _ _ _
  · exact EventOnly.trans (eventOnly_regPut _ _ _) (ho _)

theorem eventOnly_countEventOnce (s : State) (x : Nat) : EventOnly s (countEventOnce s x) := eventOnly_tallyBy EventOnly.refl _ _ _ _

theorem eventOnly_countEvent (s : State) (x : Nat) : EventOnly s (countEvent s x) :=
  eventOnly_tallyBy (fun _ => eventOnly_raiseOnBy eventOnly_countEventOnce _ _ _ _) _ _ _ _

theorem eventOnly_vecDeliver (s : State) (v : Nat) : EventOnly s (vecDeliver s v) := eventOnly_vecDeliverBy eventOnly_countEvent s v

theorem eventOnly_vecTry (s : State) (v : Nat) : EventOnly s (vecTry s v) := eventOnly_vecTryBy eventOnly_countEvent s v

theorem eventOnly_vecRaise (s : State) (v pg : Nat) : EventOnly s (vecRaise s v pg) := eventOnly_vecRaiseBy eventOnly_countEvent s v pg

theorem eventOnly_raiseOn (s : State) (pg b v : Nat) : EventOnly s (raiseOn s pg b v) := eventOnly_raiseOnBy eventOnly_countEvent s pg b v

theorem eventOnly_raise (s : State) (pg b : Nat) : EventOnly s (raise s pg b) := eventOnly_raiseOn _ _ _ _

theorem eventOnly_raiseZero (s : State) (pg b : Nat) : EventOnly s (raiseZero s pg b) :=
  EventOnly.trans (eventOnly_markEvent _ _ _ _) (eventOnly_vecRaise _ _ _)

theorem eventOnly_tally (s : State) (pg i w : Nat) : EventOnly s (tally s pg i w) := eventOnly_tallyBy (fun _ => eventOnly_raise _ _ _) _ _ _ _

theorem eventOnly_recordErr (s : State) (pg code : Nat) (part : Option Nat) (addr : Nat) (phys : Bool) (detail : Nat) :
    EventOnly s (recordErr s pg code part addr phys detail) := by
  unfold recordErr
  dsimp only
  split
  · exact eventOnly_wr _ _ _ _
  · exact EventOnly.trans (eventOnly_regPut _ _ _) (eventOnly_regPut _ _ _)

/-- An error record changes registers alone (R52). -/
theorem recordErr_regsOnly (s : State) (pg code : Nat) (part : Option Nat) (addr : Nat) (phys : Bool) (detail : Nat) :
    recordErr s pg code part addr phys detail = { s with regs := (recordErr s pg code part addr phys detail).regs } := by
  have h1 : ∀ (u : State) (p : Nat) (f : FRef) (v : Nat), wr u p f v = { u with regs := (wr u p f v).regs } := fun _ _ _ _ => rfl
  have h2 : ∀ (u : State) (a v b w : Nat), regPut (regPut u a v) b w = { u with regs := (regPut (regPut u a v) b w).regs } :=
    fun _ _ _ _ _ => rfl
  unfold recordErr
  dsimp only
  split
  · exact h1 _ _ _ _
  · exact h2 _ _ _ _ _

/-- VEC_STATUS of an entry of the event-vector table (R71, R72). -/
def inVectors (a : Nat) : Prop := ∃ v < 4096, a = vecAddr v + 8

/-- A register that an event can change beside EVT_RAW of its own page: VEC_STATUS of a vector, or, where an EVENT packet leaves an X-die, the
packet's Ledger counter there or EVT_RAW of its page (R70-R75, R529). -/
def eventWord (a : Nat) : Prop :=
  inVectors a ∨ ∃ x, a = ztPage x * 4096 + 0x20 ∨ a = ztPage x * 4096 + 0x840 + 8 * typeIndex 0x08

theorem vecAddr_off (v : Nat) : 0x100 ≤ vecAddr v % 4096 ∧ vecAddr v % 4096 < 0x4F1 := by
  simp only [vecAddr]
  omega

/-- A header register other than EVT_RAW is none that an event of another page changes. -/
theorem header_not_eventWord {pg off : Nat} (h : off < 0x100) (hr : off ≠ 0x20) : ¬ eventWord (pg * 4096 + off) := by
  rintro (⟨v, _, e⟩ | ⟨x, e | e⟩)
  · have := vecAddr_off v
    omega
  · omega
  · have : typeIndex 0x08 = 7 := rfl
    omega

theorem rawAddr_ne_vec (pg v : Nat) : pg * 4096 + 0x20 ≠ vecAddr v + 8 := by
  have := vecAddr_off v
  omega

theorem regGet_vecLast (s : State) (l : Tab VecLast) (a : Nat) : regGet { s with vecLast := l } a = regGet s a := rfl

@[simp] theorem regGet_transmit (s : State) (i : Nat) (x : Sess) (o : Out) (seq msg : Word32) (ends : Bool × Bool) (retx : Bool) (a : Nat) :
    regGet (transmit s i x o seq msg ends retx) a = regGet s a := by
  unfold transmit
  extract_lets h bytes s1 s2
  rw [regGet_emit]
  simp only [s2]
  split
  · rfl
  · rfl

theorem regGet_vecSend {a : Nat} (hc : ∀ t x, regGet (count t x) a = regGet t a) (s : State) (v : Nat) (m : Out) :
    regGet (vecSend count s v m) a = regGet s a := by
  unfold vecSend
  dsimp only
  repeat' split
  · rfl
  · rw [hc, regGet_transmit]
  · rfl

theorem regGet_vecDeliverBy {a : Nat} (hc : ∀ t x, regGet (count t x) a = regGet t a) (s : State) (v : Nat) (h : a ≠ vecAddr v + 8) :
    regGet (vecDeliverBy count s v) a = regGet s a := by
  unfold vecDeliverBy
  dsimp only
  repeat' split
  · rfl
  · rw [regGet_vecSend hc, regGet_regPut_ne _ _ h]
  · rfl
  · rw [regGet_regPut_ne _ _ h]

theorem regGet_vecTryBy {a : Nat} (hc : ∀ t x, regGet (count t x) a = regGet t a) (s : State) (v : Nat) (h : a ≠ vecAddr v + 8) :
    regGet (vecTryBy count s v) a = regGet s a := by
  unfold vecTryBy
  split
  · exact regGet_vecDeliverBy hc s v h
  · rfl

theorem regGet_vecRaiseBy {a : Nat} (hc : ∀ t x, regGet (count t x) a = regGet t a) (s : State) (v pg : Nat) (h : a ≠ vecAddr v + 8) :
    regGet (vecRaiseBy count s v pg) a = regGet s a := by
  unfold vecRaiseBy
  dsimp only
  split
  · rw [regGet_vecTryBy hc _ _ h, regGet_regPut_ne _ _ h]; rfl
  · rw [regGet_regPut_ne _ _ h]

theorem regGet_markEvent (s : State) (pg b a : Nat) (zero : Bool) :
    regGet (markEvent s pg b zero) a = regGet (wr s pg fEVTRAW (rd s pg fEVTRAW ||| (1 <<< b))) a := rfl

theorem regGet_markEvent_ne (s : State) (pg b : Nat) {a : Nat} (zero : Bool) (h : a ≠ pg * 4096 + 0x20) :
    regGet (markEvent s pg b zero) a = regGet s a := by
  rw [regGet_markEvent, regGet_wr, if_neg (show ¬ a = pg * 4096 + fEVTRAW.off from h)]

theorem regGet_raiseOnBy {a : Nat} (hc : ∀ t x, regGet (count t x) a = regGet t a) (s : State) (pg b v : Nat) (h : a ≠ pg * 4096 + 0x20)
    (hv : a ≠ vecAddr v + 8) : regGet (raiseOnBy count s pg b v) a = regGet s a := by
  unfold raiseOnBy
  split
  · rw [regGet_vecRaiseBy hc _ _ _ hv, regGet_markEvent_ne _ _ _ _ h]
  · rw [regGet_markEvent_ne _ _ _ _ h]

theorem regGet_tallyBy {after : State → State} {a : Nat} (ho : ∀ t, regGet (after t) a = regGet t a) (s : State) (pg i w : Nat)
    (h : a ≠ pg * 4096 + 0x840 + 8 * i) : regGet (tallyBy after s pg i w) a = regGet s a := by
  unfold tallyBy
  dsimp only
  split
  · exact regGet_regPut_ne _ _ h
  · rw [ho, regGet_regPut_ne _ _ h]

theorem not_vecAddr {a v : Nat} (hv : v < 4096) (ha : ¬ eventWord a) : a ≠ vecAddr v + 8 := fun e => ha (.inl ⟨v, hv, e⟩)

theorem regGet_countEvent {a : Nat} (ha : ¬ eventWord a) (s : State) (x : Nat) : regGet (countEvent s x) a = regGet s a := by
  have h1 : ∀ y, a ≠ ztPage y * 4096 + 0x20 := fun y e => ha (.inr ⟨y, .inl e⟩)
  have h2 : ∀ y, a ≠ ztPage y * 4096 + 0x840 + 8 * typeIndex 0x08 := fun y e => ha (.inr ⟨y, .inr e⟩)
  have h3 : ∀ t y, regGet (countEventOnce t y) a = regGet t a := fun t y => regGet_tallyBy (fun _ => rfl) _ _ _ _ (h2 y)
  exact regGet_tallyBy (fun t => regGet_raiseOnBy h3 _ _ _ _ (h1 x) (not_vecAddr (rd_lt _ _ _) ha)) _ _ _ _ (h2 x)

theorem regGet_vecDeliver (s : State) (v a : Nat) (hv : v < 4096) (ha : ¬ eventWord a) : regGet (vecDeliver s v) a = regGet s a :=
  regGet_vecDeliverBy (regGet_countEvent ha) s v (not_vecAddr hv ha)

theorem regGet_vecTry (s : State) (v a : Nat) (hv : v < 4096) (ha : ¬ eventWord a) : regGet (vecTry s v) a = regGet s a :=
  regGet_vecTryBy (regGet_countEvent ha) s v (not_vecAddr hv ha)

theorem regGet_vecRaise (s : State) (v pg a : Nat) (hv : v < 4096) (ha : ¬ eventWord a) : regGet (vecRaise s v pg) a = regGet s a :=
  regGet_vecRaiseBy (regGet_countEvent ha) s v pg (not_vecAddr hv ha)

/-- An event changes EVT_RAW of its page and the words of `eventWord` alone. -/
theorem regGet_raiseOn (s : State) (pg b v a : Nat) (hv : v < 4096) (h : a ≠ pg * 4096 + 0x20) (ha : ¬ eventWord a) :
    regGet (raiseOn s pg b v) a = regGet s a := regGet_raiseOnBy (regGet_countEvent ha) s pg b v h (not_vecAddr hv ha)

theorem regGet_raise (s : State) (pg b a : Nat) (h : a ≠ pg * 4096 + 0x20) (ha : ¬ eventWord a) :
    regGet (raise s pg b) a = regGet s a := regGet_raiseOn _ _ _ _ _ (rd_lt _ _ _) h ha

theorem regGet_raiseZero (s : State) (pg b a : Nat) (h : a ≠ pg * 4096 + 0x20) (ha : ¬ eventWord a) :
    regGet (raiseZero s pg b) a = regGet s a := by
  unfold raiseZero
  rw [regGet_vecRaise _ _ _ _ (by decide) ha, regGet_markEvent_ne _ _ _ _ h]

/-- The event bit is set afterwards, on any page but those that EVENT packets themselves touch. -/
theorem rd_raiseOn_raw (s : State) (pg b v : Nat) (hv : v < 4096) (hp : ¬ eventWord (pg * 4096 + 0x20)) :
    rd (raiseOn s pg b v) pg fEVTRAW = (rd s pg fEVTRAW ||| (1 <<< b)) % 2 ^ 64 := by
  unfold raiseOn raiseOnBy
  split
  · rw [rd, regGet_vecRaiseBy (a := pg * 4096 + fEVTRAW.off) (regGet_countEvent hp) _ _ _ (not_vecAddr hv hp), regGet_markEvent]
    exact rd_wr_same _ _ _ _ (by decide)
  · rw [rd, regGet_markEvent]
    exact rd_wr_same _ _ _ _ (by decide)

theorem rd_raise_raw (s : State) (pg b : Nat) (hp : ¬ eventWord (pg * 4096 + 0x20)) :
    rd (raise s pg b) pg fEVTRAW = (rd s pg fEVTRAW ||| (1 <<< b)) % 2 ^ 64 := rd_raiseOn_raw _ _ _ _ (rd_lt _ _ _) hp

/-- What an event does to EVT_RAW of any page: bits that stand there stay. -/
def RawGrows (s t : State) : Prop := ∀ pg b, (rd s pg fEVTRAW).testBit b = true → (rd t pg fEVTRAW).testBit b = true

theorem RawGrows.of_eq {s t : State} (h : ∀ pg, regGet t (pg * 4096 + 0x20) = regGet s (pg * 4096 + 0x20)) : RawGrows s t := by
  intro pg b hb
  rw [rd, show pg * 4096 + fEVTRAW.off = pg * 4096 + 0x20 from rfl, h pg]
  exact hb

theorem RawGrows.trans {s t u : State} (h1 : RawGrows s t) (h2 : RawGrows t u) : RawGrows s u := fun pg b h => h2 pg b (h1 pg b h)

theorem rd_markEvent (s : State) (pg b : Nat) (zero : Bool) :
    rd (markEvent s pg b zero) pg fEVTRAW = (rd s pg fEVTRAW ||| 1 <<< b) % 2 ^ 64 := rd_wr_same _ _ _ _ (by decide)

theorem rawGrows_markEvent (s : State) (pg b : Nat) (zero : Bool) : RawGrows s (markEvent s pg b zero) := by
  intro pg' b' h
  by_cases e : pg' = pg
  · subst e
    rw [rd_markEvent, Nat.testBit_mod_two_pow, Nat.testBit_or, h]
    have h64 : rd s pg' fEVTRAW < 2 ^ 64 := rd_lt s pg' fEVTRAW
    have hb : b' < 64 := by
      rcases Nat.lt_or_ge b' 64 with hb | hb
      · exact hb
      · rw [Nat.testBit_lt_two_pow (Nat.lt_of_lt_of_le h64 (Nat.pow_le_pow_right (by decide) hb))] at h
        cases h
    simp [hb]
  · rw [rd, regGet_markEvent_ne _ _ _ _ (show pg' * 4096 + fEVTRAW.off ≠ pg * 4096 + 0x20 from fun e' => e (by
      have : fEVTRAW.off = 0x20 := rfl
      omega))]
    exact h

theorem rawGrows_vecStatus (s : State) (v w : Nat) : RawGrows s (regPut s (vecAddr v + 8) w) :=
  .of_eq (fun p => regGet_regPut_ne _ _ (rawAddr_ne_vec p v))

theorem rawGrows_vecSend (hc : ∀ t x, RawGrows t (count t x)) (s : State) (v : Nat) (m : Out) : RawGrows s (vecSend count s v m) := by
  unfold vecSend
  dsimp only
  repeat' split
  · exact fun _ _ h => h
  · exact RawGrows.trans (.of_eq (fun _ => regGet_transmit _ _ _ _ _ _ _ _ _)) (hc _ _)
  · exact fun _ _ h => h

theorem rawGrows_vecDeliverBy (hc : ∀ t x, RawGrows t (count t x)) (s : State) (v : Nat) : RawGrows s (vecDeliverBy count s v) := by
  unfold vecDeliverBy
  dsimp only
  repeat' split
  · exact fun _ _ h => h
  · exact (rawGrows_vecStatus _ _ _).trans (rawGrows_vecSend hc _ _ _)
  · exact fun _ _ h => h
  · exact rawGrows_vecStatus _ _ _

theorem rawGrows_vecTryBy (hc : ∀ t x, RawGrows t (count t x)) (s : State) (v : Nat) : RawGrows s (vecTryBy count s v) := by
  unfold vecTryBy
  split
  · exact rawGrows_vecDeliverBy hc _ _
  · exact fun _ _ h => h

theorem rawGrows_vecLast (s : State) (l : Tab VecLast) : RawGrows s { s with vecLast := l } := fun _ _ h => h

theorem rawGrows_vecRaiseBy (hc : ∀ t x, RawGrows t (count t x)) (s : State) (v pg : Nat) : RawGrows s (vecRaiseBy count s v pg) := by
  unfold vecRaiseBy
  dsimp only
  split
  · exact ((rawGrows_vecLast s _).trans (rawGrows_vecStatus _ _ _)).trans (rawGrows_vecTryBy hc _ _)
  · exact rawGrows_vecStatus _ _ _

theorem rawGrows_raiseOnBy (hc : ∀ t x, RawGrows t (count t x)) (s : State) (pg b v : Nat) : RawGrows s (raiseOnBy count s pg b v) := by
  unfold raiseOnBy
  split
  · exact (rawGrows_markEvent _ _ _ _).trans (rawGrows_vecRaiseBy hc _ _ _)
  · exact rawGrows_markEvent _ _ _ _

theorem rawGrows_tallyBy {after : State → State} (ho : ∀ t, RawGrows t (after t)) (s : State) (pg i w : Nat) (hi : i < 248) :
    RawGrows s (tallyBy after s pg i w) := by
  have put : ∀ (t : State) (x : Nat), RawGrows t (regPut t (pg * 4096 + 0x840 + 8 * i) x) := fun t x =>
    .of_eq (fun p => regGet_regPut_ne _ _ (by omega))
  unfold tallyBy
  dsimp only
  split
  · exact put _ _
  · exact (put _ _).trans (ho _)

theorem rawGrows_countEvent (s : State) (x : Nat) : RawGrows s (countEvent s x) :=
  rawGrows_tallyBy (fun _ => rawGrows_raiseOnBy (fun _ _ => rawGrows_tallyBy (fun _ _ _ h => h) _ _ _ _ (by decide)) _ _ _ _)
    _ _ _ _ (by decide)

/-- An event, and a Ledger counter raised, clear no bit of EVT_RAW anywhere (R69, R70, R522). -/
theorem rawGrows_raiseOn (s : State) (pg b v : Nat) : RawGrows s (raiseOn s pg b v) := rawGrows_raiseOnBy rawGrows_countEvent _ _ _ _

theorem rawGrows_raise (s : State) (pg b : Nat) : RawGrows s (raise s pg b) := rawGrows_raiseOn _ _ _ _

theorem rawGrows_tally (s : State) (pg i w : Nat) (hi : i < 248) : RawGrows s (tally s pg i w) :=
  rawGrows_tallyBy (fun _ => rawGrows_raise _ _ _) _ _ _ _ hi

/-- The bit of an event stands after it (R70). -/
theorem raiseOn_testBit (s : State) (pg b v : Nat) (hb : b < 64) : (rd (raiseOn s pg b v) pg fEVTRAW).testBit b = true := by
  have h : (rd (markEvent s pg b false) pg fEVTRAW).testBit b = true := by
    rw [rd_markEvent, Nat.testBit_mod_two_pow, Nat.testBit_or, Nat.testBit_shiftLeft]
    simp [hb]
  unfold raiseOn raiseOnBy
  split
  · exact rawGrows_vecRaiseBy rawGrows_countEvent _ _ _ _ _ h
  · exact h

theorem raise_testBit (s : State) (pg b : Nat) (hb : b < 64) : (rd (raise s pg b) pg fEVTRAW).testBit b = true :=
  raiseOn_testBit _ _ _ _ hb

/-- A Ledger counter raised changes itself, and, when it wraps, EVT_RAW and the words of `eventWord`. -/
theorem regGet_tally (s : State) (pg i w a : Nat) (h1 : a ≠ pg * 4096 + 0x840 + 8 * i) (h2 : a ≠ pg * 4096 + 0x20) (ha : ¬ eventWord a) :
    regGet (tally s pg i w) a = regGet s a := regGet_tallyBy (fun _ => regGet_raise _ _ _ _ h2 ha) _ _ _ _ h1

/-- An error record changes ERR_INFO and ERR_ADDR of its page alone (R52). -/
theorem regGet_recordErr (s : State) (pg code : Nat) (part : Option Nat) (addr : Nat) (phys : Bool) (detail a : Nat)
    (h1 : a ≠ pg * 4096 + 0x38) (h2 : a ≠ pg * 4096 + 0x40) : regGet (recordErr s pg code part addr phys detail) a = regGet s a := by
  unfold recordErr
  dsimp only
  split
  · rw [regGet_wr, if_neg (show ¬ a = pg * 4096 + fERROVF.off from h1)]
  · rw [regGet_regPut_ne _ _ h2, regGet_regPut_ne _ _ h1]

@[simp] theorem raiseOn_pending (s : State) (pg b v : Nat) :
    (raiseOn s pg b v).pending = s.pending := by rw [eventOnly_raiseOn s pg b v]
@[simp] theorem raiseOn_code (s : State) (pg b v : Nat) :
    (raiseOn s pg b v).code = s.code := by rw [eventOnly_raiseOn s pg b v]
@[simp] theorem raiseOn_stepping (s : State) (pg b v : Nat) :
    (raiseOn s pg b v).stepping = s.stepping := by rw [eventOnly_raiseOn s pg b v]
@[simp] theorem raiseOn_fuses (s : State) (pg b v : Nat) :
    (raiseOn s pg b v).fuses = s.fuses := by rw [eventOnly_raiseOn s pg b v]
@[simp] theorem raiseOn_now (s : State) (pg b v : Nat) :
    (raiseOn s pg b v).now = s.now := by rw [eventOnly_raiseOn s pg b v]
@[simp] theorem raiseOn_free (s : State) (pg b v : Nat) :
    (raiseOn s pg b v).free = s.free := by rw [eventOnly_raiseOn s pg b v]
@[simp] theorem raiseOn_regBad (s : State) (pg b v : Nat) :
    (raiseOn s pg b v).regBad = s.regBad := by rw [eventOnly_raiseOn s pg b v]
@[simp] theorem raiseOn_mem (s : State) (pg b v : Nat) :
    (raiseOn s pg b v).mem = s.mem := by rw [eventOnly_raiseOn s pg b v]
@[simp] theorem raiseOn_guard (s : State) (pg b v : Nat) :
    (raiseOn s pg b v).guard = s.guard := by rw [eventOnly_raiseOn s pg b v]
@[simp] theorem raiseOn_msgs (s : State) (pg b v : Nat) :
    (raiseOn s pg b v).msgs = s.msgs := by rw [eventOnly_raiseOn s pg b v]
@[simp] theorem raiseOn_runs (s : State) (pg b v : Nat) :
    (raiseOn s pg b v).runs = s.runs := by rw [eventOnly_raiseOn s pg b v]
@[simp] theorem raiseOn_mirrored (s : State) (pg b v : Nat) :
    (raiseOn s pg b v).mirrored = s.mirrored := by rw [eventOnly_raiseOn s pg b v]
@[simp] theorem raiseOn_gals (s : State) (pg b v : Nat) :
    (raiseOn s pg b v).gals = s.gals := by rw [eventOnly_raiseOn s pg b v]
@[simp] theorem raiseOn_gone (s : State) (pg b v : Nat) :
    (raiseOn s pg b v).gone = s.gone := by rw [eventOnly_raiseOn s pg b v]
@[simp] theorem raiseOn_parts (s : State) (pg b v : Nat) :
    (raiseOn s pg b v).parts = s.parts := by rw [eventOnly_raiseOn s pg b v]
@[simp] theorem raiseOn_frameOwner (s : State) (pg b v : Nat) :
    (raiseOn s pg b v).frameOwner = s.frameOwner := by rw [eventOnly_raiseOn s pg b v]
@[simp] theorem raiseOn_flashOwner (s : State) (pg b v : Nat) :
    (raiseOn s pg b v).flashOwner = s.flashOwner := by rw [eventOnly_raiseOn s pg b v]
@[simp] theorem raiseOn_rowErrs (s : State) (pg b v : Nat) :
    (raiseOn s pg b v).rowErrs = s.rowErrs := by rw [eventOnly_raiseOn s pg b v]
@[simp] theorem raiseOn_badWords (s : State) (pg b v : Nat) :
    (raiseOn s pg b v).badWords = s.badWords := by rw [eventOnly_raiseOn s pg b v]
@[simp] theorem raiseOn_mcast (s : State) (pg b v : Nat) :
    (raiseOn s pg b v).mcast = s.mcast := by rw [eventOnly_raiseOn s pg b v]
@[simp] theorem raiseOn_ringSettled (s : State) (pg b v : Nat) :
    (raiseOn s pg b v).ringSettled = s.ringSettled := by rw [eventOnly_raiseOn s pg b v]
@[simp] theorem raiseOn_ringAt (s : State) (pg b v : Nat) :
    (raiseOn s pg b v).ringAt = s.ringAt := by rw [eventOnly_raiseOn s pg b v]
@[simp] theorem raiseOn_scrub (s : State) (pg b v : Nat) :
    (raiseOn s pg b v).scrub = s.scrub := by rw [eventOnly_raiseOn s pg b v]
@[simp] theorem raiseOn_power (s : State) (pg b v : Nat) :
    (raiseOn s pg b v).power = s.power := by rw [eventOnly_raiseOn s pg b v]
@[simp] theorem raiseOn_boot (s : State) (pg b v : Nat) :
    (raiseOn s pg b v).boot = s.boot := by rw [eventOnly_raiseOn s pg b v]
@[simp] theorem raiseOn_obs (s : State) (pg b v : Nat) :
    (raiseOn s pg b v).obs = s.obs := by rw [eventOnly_raiseOn s pg b v]

@[simp] theorem raise_pending (s : State) (pg b : Nat) :
    (raise s pg b).pending = s.pending := by rw [eventOnly_raise s pg b]
@[simp] theorem raise_code (s : State) (pg b : Nat) :
    (raise s pg b).code = s.code := by rw [eventOnly_raise s pg b]
@[simp] theorem raise_stepping (s : State) (pg b : Nat) :
    (raise s pg b).stepping = s.stepping := by rw [eventOnly_raise s pg b]
@[simp] theorem raise_fuses (s : State) (pg b : Nat) :
    (raise s pg b).fuses = s.fuses := by rw [eventOnly_raise s pg b]
@[simp] theorem raise_now (s : State) (pg b : Nat) :
    (raise s pg b).now = s.now := by rw [eventOnly_raise s pg b]
@[simp] theorem raise_free (s : State) (pg b : Nat) :
    (raise s pg b).free = s.free := by rw [eventOnly_raise s pg b]
@[simp] theorem raise_regBad (s : State) (pg b : Nat) :
    (raise s pg b).regBad = s.regBad := by rw [eventOnly_raise s pg b]
@[simp] theorem raise_mem (s : State) (pg b : Nat) :
    (raise s pg b).mem = s.mem := by rw [eventOnly_raise s pg b]
@[simp] theorem raise_guard (s : State) (pg b : Nat) :
    (raise s pg b).guard = s.guard := by rw [eventOnly_raise s pg b]
@[simp] theorem raise_msgs (s : State) (pg b : Nat) :
    (raise s pg b).msgs = s.msgs := by rw [eventOnly_raise s pg b]
@[simp] theorem raise_runs (s : State) (pg b : Nat) :
    (raise s pg b).runs = s.runs := by rw [eventOnly_raise s pg b]
@[simp] theorem raise_mirrored (s : State) (pg b : Nat) :
    (raise s pg b).mirrored = s.mirrored := by rw [eventOnly_raise s pg b]
@[simp] theorem raise_gals (s : State) (pg b : Nat) :
    (raise s pg b).gals = s.gals := by rw [eventOnly_raise s pg b]
@[simp] theorem raise_gone (s : State) (pg b : Nat) :
    (raise s pg b).gone = s.gone := by rw [eventOnly_raise s pg b]
@[simp] theorem raise_parts (s : State) (pg b : Nat) :
    (raise s pg b).parts = s.parts := by rw [eventOnly_raise s pg b]
@[simp] theorem raise_frameOwner (s : State) (pg b : Nat) :
    (raise s pg b).frameOwner = s.frameOwner := by rw [eventOnly_raise s pg b]
@[simp] theorem raise_flashOwner (s : State) (pg b : Nat) :
    (raise s pg b).flashOwner = s.flashOwner := by rw [eventOnly_raise s pg b]
@[simp] theorem raise_rowErrs (s : State) (pg b : Nat) :
    (raise s pg b).rowErrs = s.rowErrs := by rw [eventOnly_raise s pg b]
@[simp] theorem raise_badWords (s : State) (pg b : Nat) :
    (raise s pg b).badWords = s.badWords := by rw [eventOnly_raise s pg b]
@[simp] theorem raise_mcast (s : State) (pg b : Nat) :
    (raise s pg b).mcast = s.mcast := by rw [eventOnly_raise s pg b]
@[simp] theorem raise_ringSettled (s : State) (pg b : Nat) :
    (raise s pg b).ringSettled = s.ringSettled := by rw [eventOnly_raise s pg b]
@[simp] theorem raise_ringAt (s : State) (pg b : Nat) :
    (raise s pg b).ringAt = s.ringAt := by rw [eventOnly_raise s pg b]
@[simp] theorem raise_scrub (s : State) (pg b : Nat) :
    (raise s pg b).scrub = s.scrub := by rw [eventOnly_raise s pg b]
@[simp] theorem raise_power (s : State) (pg b : Nat) :
    (raise s pg b).power = s.power := by rw [eventOnly_raise s pg b]
@[simp] theorem raise_boot (s : State) (pg b : Nat) :
    (raise s pg b).boot = s.boot := by rw [eventOnly_raise s pg b]
@[simp] theorem raise_obs (s : State) (pg b : Nat) :
    (raise s pg b).obs = s.obs := by rw [eventOnly_raise s pg b]

@[simp] theorem raiseZero_pending (s : State) (pg b : Nat) :
    (raiseZero s pg b).pending = s.pending := by rw [eventOnly_raiseZero s pg b]
@[simp] theorem raiseZero_code (s : State) (pg b : Nat) :
    (raiseZero s pg b).code = s.code := by rw [eventOnly_raiseZero s pg b]
@[simp] theorem raiseZero_stepping (s : State) (pg b : Nat) :
    (raiseZero s pg b).stepping = s.stepping := by rw [eventOnly_raiseZero s pg b]
@[simp] theorem raiseZero_fuses (s : State) (pg b : Nat) :
    (raiseZero s pg b).fuses = s.fuses := by rw [eventOnly_raiseZero s pg b]
@[simp] theorem raiseZero_now (s : State) (pg b : Nat) :
    (raiseZero s pg b).now = s.now := by rw [eventOnly_raiseZero s pg b]
@[simp] theorem raiseZero_free (s : State) (pg b : Nat) :
    (raiseZero s pg b).free = s.free := by rw [eventOnly_raiseZero s pg b]
@[simp] theorem raiseZero_regBad (s : State) (pg b : Nat) :
    (raiseZero s pg b).regBad = s.regBad := by rw [eventOnly_raiseZero s pg b]
@[simp] theorem raiseZero_mem (s : State) (pg b : Nat) :
    (raiseZero s pg b).mem = s.mem := by rw [eventOnly_raiseZero s pg b]
@[simp] theorem raiseZero_guard (s : State) (pg b : Nat) :
    (raiseZero s pg b).guard = s.guard := by rw [eventOnly_raiseZero s pg b]
@[simp] theorem raiseZero_msgs (s : State) (pg b : Nat) :
    (raiseZero s pg b).msgs = s.msgs := by rw [eventOnly_raiseZero s pg b]
@[simp] theorem raiseZero_runs (s : State) (pg b : Nat) :
    (raiseZero s pg b).runs = s.runs := by rw [eventOnly_raiseZero s pg b]
@[simp] theorem raiseZero_mirrored (s : State) (pg b : Nat) :
    (raiseZero s pg b).mirrored = s.mirrored := by rw [eventOnly_raiseZero s pg b]
@[simp] theorem raiseZero_gals (s : State) (pg b : Nat) :
    (raiseZero s pg b).gals = s.gals := by rw [eventOnly_raiseZero s pg b]
@[simp] theorem raiseZero_gone (s : State) (pg b : Nat) :
    (raiseZero s pg b).gone = s.gone := by rw [eventOnly_raiseZero s pg b]
@[simp] theorem raiseZero_parts (s : State) (pg b : Nat) :
    (raiseZero s pg b).parts = s.parts := by rw [eventOnly_raiseZero s pg b]
@[simp] theorem raiseZero_frameOwner (s : State) (pg b : Nat) :
    (raiseZero s pg b).frameOwner = s.frameOwner := by rw [eventOnly_raiseZero s pg b]
@[simp] theorem raiseZero_flashOwner (s : State) (pg b : Nat) :
    (raiseZero s pg b).flashOwner = s.flashOwner := by rw [eventOnly_raiseZero s pg b]
@[simp] theorem raiseZero_rowErrs (s : State) (pg b : Nat) :
    (raiseZero s pg b).rowErrs = s.rowErrs := by rw [eventOnly_raiseZero s pg b]
@[simp] theorem raiseZero_badWords (s : State) (pg b : Nat) :
    (raiseZero s pg b).badWords = s.badWords := by rw [eventOnly_raiseZero s pg b]
@[simp] theorem raiseZero_mcast (s : State) (pg b : Nat) :
    (raiseZero s pg b).mcast = s.mcast := by rw [eventOnly_raiseZero s pg b]
@[simp] theorem raiseZero_ringSettled (s : State) (pg b : Nat) :
    (raiseZero s pg b).ringSettled = s.ringSettled := by rw [eventOnly_raiseZero s pg b]
@[simp] theorem raiseZero_ringAt (s : State) (pg b : Nat) :
    (raiseZero s pg b).ringAt = s.ringAt := by rw [eventOnly_raiseZero s pg b]
@[simp] theorem raiseZero_scrub (s : State) (pg b : Nat) :
    (raiseZero s pg b).scrub = s.scrub := by rw [eventOnly_raiseZero s pg b]
@[simp] theorem raiseZero_power (s : State) (pg b : Nat) :
    (raiseZero s pg b).power = s.power := by rw [eventOnly_raiseZero s pg b]
@[simp] theorem raiseZero_boot (s : State) (pg b : Nat) :
    (raiseZero s pg b).boot = s.boot := by rw [eventOnly_raiseZero s pg b]
@[simp] theorem raiseZero_obs (s : State) (pg b : Nat) :
    (raiseZero s pg b).obs = s.obs := by rw [eventOnly_raiseZero s pg b]

@[simp] theorem tally_pending (s : State) (pg i w : Nat) :
    (tally s pg i w).pending = s.pending := by rw [eventOnly_tally s pg i w]
@[simp] theorem tally_code (s : State) (pg i w : Nat) :
    (tally s pg i w).code = s.code := by rw [eventOnly_tally s pg i w]
@[simp] theorem tally_stepping (s : State) (pg i w : Nat) :
    (tally s pg i w).stepping = s.stepping := by rw [eventOnly_tally s pg i w]
@[simp] theorem tally_fuses (s : State) (pg i w : Nat) :
    (tally s pg i w).fuses = s.fuses := by rw [eventOnly_tally s pg i w]
@[simp] theorem tally_now (s : State) (pg i w : Nat) :
    (tally s pg i w).now = s.now := by rw [eventOnly_tally s pg i w]
@[simp] theorem tally_free (s : State) (pg i w : Nat) :
    (tally s pg i w).free = s.free := by rw [eventOnly_tally s pg i w]
@[simp] theorem tally_regBad (s : State) (pg i w : Nat) :
    (tally s pg i w).regBad = s.regBad := by rw [eventOnly_tally s pg i w]
@[simp] theorem tally_mem (s : State) (pg i w : Nat) :
    (tally s pg i w).mem = s.mem := by rw [eventOnly_tally s pg i w]
@[simp] theorem tally_guard (s : State) (pg i w : Nat) :
    (tally s pg i w).guard = s.guard := by rw [eventOnly_tally s pg i w]
@[simp] theorem tally_msgs (s : State) (pg i w : Nat) :
    (tally s pg i w).msgs = s.msgs := by rw [eventOnly_tally s pg i w]
@[simp] theorem tally_runs (s : State) (pg i w : Nat) :
    (tally s pg i w).runs = s.runs := by rw [eventOnly_tally s pg i w]
@[simp] theorem tally_mirrored (s : State) (pg i w : Nat) :
    (tally s pg i w).mirrored = s.mirrored := by rw [eventOnly_tally s pg i w]
@[simp] theorem tally_gals (s : State) (pg i w : Nat) :
    (tally s pg i w).gals = s.gals := by rw [eventOnly_tally s pg i w]
@[simp] theorem tally_gone (s : State) (pg i w : Nat) :
    (tally s pg i w).gone = s.gone := by rw [eventOnly_tally s pg i w]
@[simp] theorem tally_parts (s : State) (pg i w : Nat) :
    (tally s pg i w).parts = s.parts := by rw [eventOnly_tally s pg i w]
@[simp] theorem tally_frameOwner (s : State) (pg i w : Nat) :
    (tally s pg i w).frameOwner = s.frameOwner := by rw [eventOnly_tally s pg i w]
@[simp] theorem tally_flashOwner (s : State) (pg i w : Nat) :
    (tally s pg i w).flashOwner = s.flashOwner := by rw [eventOnly_tally s pg i w]
@[simp] theorem tally_rowErrs (s : State) (pg i w : Nat) :
    (tally s pg i w).rowErrs = s.rowErrs := by rw [eventOnly_tally s pg i w]
@[simp] theorem tally_badWords (s : State) (pg i w : Nat) :
    (tally s pg i w).badWords = s.badWords := by rw [eventOnly_tally s pg i w]
@[simp] theorem tally_mcast (s : State) (pg i w : Nat) :
    (tally s pg i w).mcast = s.mcast := by rw [eventOnly_tally s pg i w]
@[simp] theorem tally_ringSettled (s : State) (pg i w : Nat) :
    (tally s pg i w).ringSettled = s.ringSettled := by rw [eventOnly_tally s pg i w]
@[simp] theorem tally_ringAt (s : State) (pg i w : Nat) :
    (tally s pg i w).ringAt = s.ringAt := by rw [eventOnly_tally s pg i w]
@[simp] theorem tally_scrub (s : State) (pg i w : Nat) :
    (tally s pg i w).scrub = s.scrub := by rw [eventOnly_tally s pg i w]
@[simp] theorem tally_power (s : State) (pg i w : Nat) :
    (tally s pg i w).power = s.power := by rw [eventOnly_tally s pg i w]
@[simp] theorem tally_boot (s : State) (pg i w : Nat) :
    (tally s pg i w).boot = s.boot := by rw [eventOnly_tally s pg i w]
@[simp] theorem tally_obs (s : State) (pg i w : Nat) :
    (tally s pg i w).obs = s.obs := by rw [eventOnly_tally s pg i w]

@[simp] theorem recordErr_pending (s : State) (pg code : Nat) (part : Option Nat) (addr : Nat) (phys : Bool) (detail : Nat) :
    (recordErr s pg code part addr phys detail).pending = s.pending := by rw [eventOnly_recordErr s pg code part addr phys detail]
@[simp] theorem recordErr_code (s : State) (pg code : Nat) (part : Option Nat) (addr : Nat) (phys : Bool) (detail : Nat) :
    (recordErr s pg code part addr phys detail).code = s.code := by rw [eventOnly_recordErr s pg code part addr phys detail]
@[simp] theorem recordErr_stepping (s : State) (pg code : Nat) (part : Option Nat) (addr : Nat) (phys : Bool) (detail : Nat) :
    (recordErr s pg code part addr phys detail).stepping = s.stepping := by rw [eventOnly_recordErr s pg code part addr phys detail]
@[simp] theorem recordErr_fuses (s : State) (pg code : Nat) (part : Option Nat) (addr : Nat) (phys : Bool) (detail : Nat) :
    (recordErr s pg code part addr phys detail).fuses = s.fuses := by rw [eventOnly_recordErr s pg code part addr phys detail]
@[simp] theorem recordErr_now (s : State) (pg code : Nat) (part : Option Nat) (addr : Nat) (phys : Bool) (detail : Nat) :
    (recordErr s pg code part addr phys detail).now = s.now := by rw [eventOnly_recordErr s pg code part addr phys detail]
@[simp] theorem recordErr_free (s : State) (pg code : Nat) (part : Option Nat) (addr : Nat) (phys : Bool) (detail : Nat) :
    (recordErr s pg code part addr phys detail).free = s.free := by rw [eventOnly_recordErr s pg code part addr phys detail]
@[simp] theorem recordErr_regBad (s : State) (pg code : Nat) (part : Option Nat) (addr : Nat) (phys : Bool) (detail : Nat) :
    (recordErr s pg code part addr phys detail).regBad = s.regBad := by rw [eventOnly_recordErr s pg code part addr phys detail]
@[simp] theorem recordErr_mem (s : State) (pg code : Nat) (part : Option Nat) (addr : Nat) (phys : Bool) (detail : Nat) :
    (recordErr s pg code part addr phys detail).mem = s.mem := by rw [eventOnly_recordErr s pg code part addr phys detail]
@[simp] theorem recordErr_guard (s : State) (pg code : Nat) (part : Option Nat) (addr : Nat) (phys : Bool) (detail : Nat) :
    (recordErr s pg code part addr phys detail).guard = s.guard := by rw [eventOnly_recordErr s pg code part addr phys detail]
@[simp] theorem recordErr_msgs (s : State) (pg code : Nat) (part : Option Nat) (addr : Nat) (phys : Bool) (detail : Nat) :
    (recordErr s pg code part addr phys detail).msgs = s.msgs := by rw [eventOnly_recordErr s pg code part addr phys detail]
@[simp] theorem recordErr_runs (s : State) (pg code : Nat) (part : Option Nat) (addr : Nat) (phys : Bool) (detail : Nat) :
    (recordErr s pg code part addr phys detail).runs = s.runs := by rw [eventOnly_recordErr s pg code part addr phys detail]
@[simp] theorem recordErr_mirrored (s : State) (pg code : Nat) (part : Option Nat) (addr : Nat) (phys : Bool) (detail : Nat) :
    (recordErr s pg code part addr phys detail).mirrored = s.mirrored := by rw [eventOnly_recordErr s pg code part addr phys detail]
@[simp] theorem recordErr_gals (s : State) (pg code : Nat) (part : Option Nat) (addr : Nat) (phys : Bool) (detail : Nat) :
    (recordErr s pg code part addr phys detail).gals = s.gals := by rw [eventOnly_recordErr s pg code part addr phys detail]
@[simp] theorem recordErr_gone (s : State) (pg code : Nat) (part : Option Nat) (addr : Nat) (phys : Bool) (detail : Nat) :
    (recordErr s pg code part addr phys detail).gone = s.gone := by rw [eventOnly_recordErr s pg code part addr phys detail]
@[simp] theorem recordErr_parts (s : State) (pg code : Nat) (part : Option Nat) (addr : Nat) (phys : Bool) (detail : Nat) :
    (recordErr s pg code part addr phys detail).parts = s.parts := by rw [eventOnly_recordErr s pg code part addr phys detail]
@[simp] theorem recordErr_frameOwner (s : State) (pg code : Nat) (part : Option Nat) (addr : Nat) (phys : Bool) (detail : Nat) :
    (recordErr s pg code part addr phys detail).frameOwner = s.frameOwner := by rw [eventOnly_recordErr s pg code part addr phys detail]
@[simp] theorem recordErr_flashOwner (s : State) (pg code : Nat) (part : Option Nat) (addr : Nat) (phys : Bool) (detail : Nat) :
    (recordErr s pg code part addr phys detail).flashOwner = s.flashOwner := by rw [eventOnly_recordErr s pg code part addr phys detail]
@[simp] theorem recordErr_rowErrs (s : State) (pg code : Nat) (part : Option Nat) (addr : Nat) (phys : Bool) (detail : Nat) :
    (recordErr s pg code part addr phys detail).rowErrs = s.rowErrs := by rw [eventOnly_recordErr s pg code part addr phys detail]
@[simp] theorem recordErr_badWords (s : State) (pg code : Nat) (part : Option Nat) (addr : Nat) (phys : Bool) (detail : Nat) :
    (recordErr s pg code part addr phys detail).badWords = s.badWords := by rw [eventOnly_recordErr s pg code part addr phys detail]
@[simp] theorem recordErr_mcast (s : State) (pg code : Nat) (part : Option Nat) (addr : Nat) (phys : Bool) (detail : Nat) :
    (recordErr s pg code part addr phys detail).mcast = s.mcast := by rw [eventOnly_recordErr s pg code part addr phys detail]
@[simp] theorem recordErr_ringSettled (s : State) (pg code : Nat) (part : Option Nat) (addr : Nat) (phys : Bool) (detail : Nat) :
    (recordErr s pg code part addr phys detail).ringSettled = s.ringSettled := by rw [eventOnly_recordErr s pg code part addr phys detail]
@[simp] theorem recordErr_ringAt (s : State) (pg code : Nat) (part : Option Nat) (addr : Nat) (phys : Bool) (detail : Nat) :
    (recordErr s pg code part addr phys detail).ringAt = s.ringAt := by rw [eventOnly_recordErr s pg code part addr phys detail]
@[simp] theorem recordErr_scrub (s : State) (pg code : Nat) (part : Option Nat) (addr : Nat) (phys : Bool) (detail : Nat) :
    (recordErr s pg code part addr phys detail).scrub = s.scrub := by rw [eventOnly_recordErr s pg code part addr phys detail]
@[simp] theorem recordErr_power (s : State) (pg code : Nat) (part : Option Nat) (addr : Nat) (phys : Bool) (detail : Nat) :
    (recordErr s pg code part addr phys detail).power = s.power := by rw [eventOnly_recordErr s pg code part addr phys detail]
@[simp] theorem recordErr_boot (s : State) (pg code : Nat) (part : Option Nat) (addr : Nat) (phys : Bool) (detail : Nat) :
    (recordErr s pg code part addr phys detail).boot = s.boot := by rw [eventOnly_recordErr s pg code part addr phys detail]
@[simp] theorem recordErr_obs (s : State) (pg code : Nat) (part : Option Nat) (addr : Nat) (phys : Bool) (detail : Nat) :
    (recordErr s pg code part addr phys detail).obs = s.obs := by rw [eventOnly_recordErr s pg code part addr phys detail]
@[simp] theorem recordErr_vecLast (s : State) (pg code : Nat) (part : Option Nat) (addr : Nat) (phys : Bool) (detail : Nat) :
    (recordErr s pg code part addr phys detail).vecLast = s.vecLast := by rw [recordErr_regsOnly]
@[simp] theorem recordErr_out (s : State) (pg code : Nat) (part : Option Nat) (addr : Nat) (phys : Bool) (detail : Nat) :
    (recordErr s pg code part addr phys detail).out = s.out := by rw [recordErr_regsOnly]
@[simp] theorem recordErr_rose (s : State) (pg code : Nat) (part : Option Nat) (addr : Nat) (phys : Bool) (detail : Nat) :
    (recordErr s pg code part addr phys detail).rose = s.rose := by rw [recordErr_regsOnly]
@[simp] theorem recordErr_sess (s : State) (pg code : Nat) (part : Option Nat) (addr : Nat) (phys : Bool) (detail : Nat) :
    (recordErr s pg code part addr phys detail).sess = s.sess := by rw [recordErr_regsOnly]
@[simp] theorem recordErr_ports (s : State) (pg code : Nat) (part : Option Nat) (addr : Nat) (phys : Bool) (detail : Nat) :
    (recordErr s pg code part addr phys detail).ports = s.ports := by rw [recordErr_regsOnly]

end Sys2Proof.Machine
end

