-- ==== Sys2Proof/Laws/Kept.lean ====
section
/-! SUPPORT. What every operation keeps: the ordering code, the stepping, the sparing fuses, the queue, and the canonical forms of
memory and of the register file; the fuses only advance. The rest of the family stands in KeptMachine, KeptEngines, KeptModule and KeptRows. -/

namespace Sys2Proof.Machine

theorem shaped_congr {s t : State} (hg : t.gals = s.gals) (h : Shaped s) : Shaped t := by
  intro pg
  have := h pg
  simpa only [galGet, hg] using this

/-- What no operation takes back in the fuses (R501, R516): only the fused SVN and the revocations change, and both only grow. -/
structure FusesAdvance (f g : Fuses) : Prop where
  same : { g with svn := f.svn, keysRevoked := f.keysRevoked } = f
  revoked : ∀ b, f.keysRevoked.testBit b = true → g.keysRevoked.testBit b = true
  svn : f.svn ≤ g.svn ∧ (f.svn ≤ 64 → g.svn ≤ 64)

theorem FusesAdvance.refl (f : Fuses) : FusesAdvance f f := ⟨rfl, fun _ => id, Nat.le_refl _, id⟩

theorem FusesAdvance.trans {f g h : Fuses} (a : FusesAdvance f g) (b : FusesAdvance g h) : FusesAdvance f h := by
  refine ⟨?_, fun n w => b.revoked n (a.revoked n w), Nat.le_trans a.svn.1 b.svn.1, fun w => b.svn.2 (a.svn.2 w)⟩
  have h1 := a.same
  have h2 := b.same
  cases f; cases g; cases h
  simp only [Fuses.mk.injEq] at h1 h2 ⊢
  simp_all

theorem FusesAdvance.spare {f g : Fuses} (a : FusesAdvance f g) : g.spareMap = f.spareMap := by
  have := a.same
  cases f; cases g
  simp only [Fuses.mk.injEq] at this ⊢
  exact this.2.1

theorem fuses_svn (f : Fuses) (n : Nat) : FusesAdvance f { f with svn := max f.svn (min 64 n) } :=
  ⟨rfl, fun _ => id, by simp only; omega, by simp only; omega⟩

theorem fuses_or (f : Fuses) (k : Nat) : FusesAdvance f { f with keysRevoked := f.keysRevoked ||| k } :=
  ⟨rfl, fun b h => by simp [Nat.testBit_or, h], Nat.le_refl _, id⟩

/-- s stands to k as a state that k has become by operations: what k is made of is the same, and the canonical forms stand. -/
structure Kept (k s : State) : Prop where
  code : s.code = k.code
  stepping : s.stepping = k.stepping
  fuse : FusesAdvance k.fuses s.fuses
  pending : s.pending = k.pending
  mem : Memory.wf k.mem = true → Memory.wf s.mem = true
  regs : Registers.wf k = true → Registers.wf s = true
  shape : Shaped k → Shaped s

theorem Kept.refl (k : State) : Kept k k := ⟨rfl, rfl, .refl _, rfl, id, id, id⟩

theorem resetOf_spare (c : OrderCode) (f g : Fuses) (h : f.spareMap = g.spareMap) (a : Nat) : resetOf c f a = resetOf c g a := by
  simp only [resetOf, h]

theorem registers_congr {s t : State} (hc : t.code = s.code) (hf : t.fuses.spareMap = s.fuses.spareMap) (hr : t.regs = s.regs) :
    Registers.wf t = Registers.wf s := by
  simp only [Registers.wf, hr, hc]
  congr 1
  funext a
  rw [resetOf_spare _ _ _ hf]

theorem Kept.same {k s t : State} (h : Kept k s) (hc : t.code = s.code) (hs : t.stepping = s.stepping)
    (hf : FusesAdvance s.fuses t.fuses) (hp : t.pending = s.pending) (hm : t.mem = s.mem) (hr : t.regs = s.regs)
    (hg : t.gals = s.gals) : Kept k t :=
  ⟨hc.trans h.code, hs.trans h.stepping, h.fuse.trans hf, hp.trans h.pending, fun w => hm ▸ h.mem w,
    fun w => (registers_congr hc hf.spare hr).trans (h.regs w), fun w => shaped_congr hg (h.shape w)⟩

variable {α β ε : Type} {k : State}

theorem Kept.fst {p : State × α} {t : State} {x : α} (h : Kept k p.1) (e : p = (t, x)) : Kept k t := by subst e; exact h
theorem Kept.osome {o : Option State} {t : State} (h : ∀ t, o = some t → Kept k t) (e : o = some t) : Kept k t := h t e
theorem Kept.opair {o : Option (State × α)} {t : State} {x : α} (h : ∀ t, o = some t → Kept k t.1) (e : o = some (t, x)) : Kept k t :=
  h (t, x) e
theorem Kept.esome {o : Except ε State} {t : State} (h : ∀ t, o = .ok t → Kept k t) (e : o = .ok t) : Kept k t := h t e
theorem Kept.epair {o : Except ε (State × α)} {t : State} {x : α} (h : ∀ t, o = .ok t → Kept k t.1) (e : o = .ok (t, x)) : Kept k t :=
  h (t, x) e

theorem Kept.upd {s : State} {now : Nat} {free : Nat} {regBad : List Nat} {guard : Tab (List (Nat × Byte))} {out : List Out} {msgs : Tab MsgProgress} {vecLast : Tab VecLast} {rose : Tab Rise} {runs : List RunStart} {mirrored : Bool} {gone : Tab Nat} {parts : Tab Part} {frameOwner : Tab Nat} {flashOwner : Tab Nat} {rowErrs : Tab Nat} {badWords : Tab (Nat × Nat)} {sess : Tab Sess} {mcast : Tab Mcast} {ports : Tab Port} {ringSettled : List Ring} {ringAt : Tab Nat} {scrub : Tab Nat} {power : Power} {boot : Boot} {obs : Obs} (h : Kept k s) :
    Kept k (State.mk s.pending s.code s.stepping s.fuses now free s.regs regBad s.mem guard out msgs vecLast rose runs mirrored s.gals gone parts frameOwner flashOwner rowErrs badWords sess mcast ports ringSettled ringAt scrub power boot obs) := ⟨h.code, h.stepping, h.fuse, h.pending, h.mem, h.regs, h.shape⟩

theorem Kept.updFuses {s : State} {fuses : Fuses} {now : Nat} {free : Nat} {regBad : List Nat} {guard : Tab (List (Nat × Byte))} {out : List Out} {msgs : Tab MsgProgress} {vecLast : Tab VecLast} {rose : Tab Rise} {runs : List RunStart} {mirrored : Bool} {gone : Tab Nat} {parts : Tab Part} {frameOwner : Tab Nat} {flashOwner : Tab Nat} {rowErrs : Tab Nat} {badWords : Tab (Nat × Nat)} {sess : Tab Sess} {mcast : Tab Mcast} {ports : Tab Port} {ringSettled : List Ring} {ringAt : Tab Nat} {scrub : Tab Nat} {power : Power} {boot : Boot} {obs : Obs} (hf : FusesAdvance s.fuses fuses) (h : Kept k s) :
    Kept k (State.mk s.pending s.code s.stepping fuses now free s.regs regBad s.mem guard out msgs vecLast rose runs mirrored s.gals gone parts frameOwner flashOwner rowErrs badWords sess mcast ports ringSettled ringAt scrub power boot obs) := ⟨h.code, h.stepping, h.fuse.trans hf, h.pending, h.mem, by
  intro w; rw [← h.regs w]; exact registers_congr rfl hf.spare rfl, h.shape⟩

theorem Kept.galsNone {s : State} {now : Nat} {free : Nat} {regBad : List Nat} {guard : Tab (List (Nat × Byte))} {out : List Out} {msgs : Tab MsgProgress} {vecLast : Tab VecLast} {rose : Tab Rise} {runs : List RunStart} {mirrored : Bool} {gone : Tab Nat} {parts : Tab Part} {frameOwner : Tab Nat} {flashOwner : Tab Nat} {rowErrs : Tab Nat} {badWords : Tab (Nat × Nat)} {sess : Tab Sess} {mcast : Tab Mcast} {ports : Tab Port} {ringSettled : List Ring} {ringAt : Tab Nat} {scrub : Tab Nat} {power : Power} {boot : Boot} {obs : Obs} {q : Host.Cell → Bool} (h : Kept k s) :
    Kept k (State.mk s.pending s.code s.stepping s.fuses now free s.regs regBad (s.mem.filter q) guard out msgs vecLast rose runs mirrored [] gone parts frameOwner flashOwner rowErrs badWords sess mcast ports ringSettled ringAt scrub power boot obs) :=
  ⟨h.code, h.stepping, h.fuse, h.pending, fun w => twf_filter _ _ _ (h.mem w), h.regs, fun _ _ => ⟨rfl, rfl, rfl⟩⟩

theorem Kept.memFilter {s : State} {q : Host.Cell → Bool} {now : Nat} {free : Nat} {regBad : List Nat} {guard : Tab (List (Nat × Byte))} {out : List Out} {msgs : Tab MsgProgress} {vecLast : Tab VecLast} {rose : Tab Rise} {runs : List RunStart} {mirrored : Bool} {gone : Tab Nat} {parts : Tab Part} {frameOwner : Tab Nat} {flashOwner : Tab Nat} {rowErrs : Tab Nat} {badWords : Tab (Nat × Nat)} {sess : Tab Sess} {mcast : Tab Mcast} {ports : Tab Port} {ringSettled : List Ring} {ringAt : Tab Nat} {scrub : Tab Nat} {power : Power} {boot : Boot} {obs : Obs} (h : Kept k s) :
    Kept k (State.mk s.pending s.code s.stepping s.fuses now free s.regs regBad (s.mem.filter q) guard out msgs vecLast rose runs mirrored s.gals gone parts frameOwner flashOwner rowErrs badWords sess mcast ports ringSettled ringAt scrub power boot obs) :=
  ⟨h.code, h.stepping, h.fuse, h.pending, fun w => twf_filter _ _ _ (h.mem w), h.regs, h.shape⟩

theorem Kept.ite {c : Prop} [Decidable c] {a b : State} (ha : Kept k a) (hb : Kept k b) : Kept k (if c then a else b) := by
  split <;> assumption
theorem Kept.itePair {c : Prop} [Decidable c] {a b : State × α} (ha : Kept k a.1) (hb : Kept k b.1) : Kept k (if c then a else b).1 := by
  split <;> assumption

theorem Kept.getD {o : Option State} {s : State} (ho : ∀ z, o = some z → Kept k z) (hs : Kept k s) : Kept k (o.getD s) := by
  cases o with
  | none => exact hs
  | some z => exact ho z rfl
theorem Kept.ident {s : State} (h : Kept k s) : Kept k (id s) := h

theorem Kept.regFilter {s : State} {q : Nat × Word64 → Bool} {now : Nat} {free : Nat} {regBad : List Nat} {guard : Tab (List (Nat × Byte))} {out : List Out} {msgs : Tab MsgProgress} {vecLast : Tab VecLast} {rose : Tab Rise} {runs : List RunStart} {mirrored : Bool} {gone : Tab Nat} {parts : Tab Part} {frameOwner : Tab Nat} {flashOwner : Tab Nat} {rowErrs : Tab Nat} {badWords : Tab (Nat × Nat)} {sess : Tab Sess} {mcast : Tab Mcast} {ports : Tab Port} {ringSettled : List Ring} {ringAt : Tab Nat} {scrub : Tab Nat} {power : Power} {boot : Boot} {obs : Obs} (h : Kept k s) :
    Kept k (State.mk s.pending s.code s.stepping s.fuses now free (s.regs.filter q) regBad s.mem guard out msgs vecLast rose runs mirrored s.gals gone parts frameOwner flashOwner rowErrs badWords sess mcast ports ringSettled ringAt scrub power boot obs) :=
  ⟨h.code, h.stepping, h.fuse, h.pending, h.mem, fun w => twf_filter _ _ _ (h.regs w), h.shape⟩

theorem kept_galPut (s : State) (pg : Nat) (x : Gallery) (hx : GalShaped (galGet s pg) → GalShaped x) (hs : Kept k s) :
    Kept k (galPut s pg x) := ⟨hs.code, hs.stepping, hs.fuse, hs.pending, hs.mem, hs.regs, by
  intro w p
  by_cases e : p = pg
  · subst e; rw [galGet_galPut_same]; exact hx (hs.shape w p)
  · rw [galGet_galPut_ne _ _ e]; exact hs.shape w p⟩

theorem kept_galPutFrom (s : State) (pg : Nat) (x : Gallery) (hx : Shaped k → GalShaped x) (hs : Kept k s) : Kept k (galPut s pg x) :=
  ⟨hs.code, hs.stepping, hs.fuse, hs.pending, hs.mem, hs.regs, by
  intro w p
  by_cases e : p = pg
  · subst e; rw [galGet_galPut_same]; exact hx w
  · rw [galGet_galPut_ne _ _ e]; exact hs.shape w p⟩

theorem galShaped_idle (f : Fill) : GalShaped { galIdle with fill := f } := ⟨rfl, rfl, rfl⟩

theorem kept_galMap (s : State) (f : Nat → Gallery → Gallery) (hf : ∀ n x, GalShaped x → GalShaped (f n x)) (hs : Kept k s) :
    Kept k { s with gals := s.gals.map (fun e => (e.1, f e.1 e.2)) } :=
  ⟨hs.code, hs.stepping, hs.fuse, hs.pending, hs.mem, hs.regs, by
    intro w p
    have h := hs.shape w p
    have hm : ∀ (l : Tab Gallery), GalShaped (tget galIdle l p) → GalShaped (tget galIdle (l.map (fun e => (e.1, f e.1 e.2))) p) := by
      intro l
      induction l with
      | nil => exact id
      | cons e r ih =>
        intro hl
        by_cases he : e.1 = p
        · simp only [tget, tfind, List.map_cons, if_pos he, Option.getD_some] at hl ⊢
          exact hf _ _ hl
        · simp only [tget, tfind, List.map_cons, if_neg he] at hl ⊢
          exact ih hl
    exact hm _ h⟩

theorem kept_foldl {f : State → β → State} {l : List β} {s : State} (hf : ∀ t x, Kept k t → Kept k (f t x)) (h : Kept k s) :
    Kept k (l.foldl f s) := by
  induction l generalizing s with
  | nil => exact h
  | cons x r ih => exact ih (hf s x h)

theorem kept_foldlPair {γ : Type} {f : State × γ → β → State × γ} {l : List β} {s : State × γ}
    (hf : ∀ t x, Kept k t.1 → Kept k (f t x).1) (h : Kept k s.1) : Kept k (l.foldl f s).1 := by
  induction l generalizing s with
  | nil => exact h
  | cons x r ih => exact ih (hf s x h)

theorem kept_regPut (s : State) (a v : Nat) (hs : Kept k s) : Kept k (regPut s a v) :=
  ⟨hs.code, hs.stepping, hs.fuse, hs.pending, hs.mem, fun w =>
    twf_tput (fun a => BitVec.ofNat 64 (resetOf s.code s.fuses a)) s.regs a _ (hs.regs w), hs.shape⟩

theorem kept_wr (s : State) (pg : Nat) (f : FRef) (v : Nat) (hs : Kept k s) : Kept k (wr s pg f v) := kept_regPut s _ _ hs

theorem kept_mem (s : State) (m : List Host.Cell) (hs : Kept k s) (hm : Memory.wf s.mem = true → Memory.wf m = true) :
    Kept k { s with mem := m } := ⟨hs.code, hs.stepping, hs.fuse, hs.pending, fun w => hm (hs.mem w), hs.regs, hs.shape⟩

theorem kept_regFile (s : State) (r : Tab Word64) (hs : Kept k s)
    (hr : Registers.wf s = true → twf (fun a => BitVec.ofNat 64 (resetOf s.code s.fuses a)) r = true) : Kept k { s with regs := r } :=
  ⟨hs.code, hs.stepping, hs.fuse, hs.pending, hs.mem, fun w => hr (hs.regs w), hs.shape⟩

theorem kept_memPut (s : State) (a : Nat) (b : Byte) (hs : Kept k s) : Kept k (memPut s a b) := by
  unfold memPut
  dsimp only
  apply kept_mem s _ hs
  intro w
  split
  · exact twf_tput (fun _ => 0) _ _ _ (twf_tput (fun _ => 0) _ _ _ w)
  · exact twf_tput (fun _ => 0) _ _ _ w

theorem kept_zeroFill (s : State) (a n : Nat) (hs : Kept k s) : Kept k (zeroFill s a n) :=
  (kept_mem s _ hs (fun w => twf_filter _ _ _ w)).same rfl rfl (.refl _) rfl rfl rfl rfl

theorem kept_zeroFrame (s : State) (f : Nat) (hs : Kept k s) : Kept k (zeroFrame s f) := by
  unfold zeroFrame
  split
  · exact kept_zeroFill s _ _ hs
  · exact (kept_mem s _ hs (fun w => twf_filter _ _ _ w)).same rfl rfl (.refl _) rfl rfl rfl rfl

theorem twf_resets {δ : Type} [DecidableEq δ] (d : Nat → δ) (f : Nat × δ → Option (Nat × δ)) (t : List (Nat × δ))
    (hf : ∀ e e', f e = some e' → e.2 ≠ d e.1 → e'.1 = e.1 ∧ e'.2 ≠ d e'.1) (h : twf d t = true) : twf d (t.filterMap f) = true := by
  simp only [twf, Bool.and_eq_true, List.all_eq_true, decide_eq_true_eq] at h ⊢
  obtain ⟨h1, h2⟩ := h
  constructor
  · generalize 0 = lo at h1
    induction t generalizing lo with
    | nil => rfl
    | cons e r ih =>
      simp only [sortedFrom, Bool.and_eq_true, decide_eq_true_eq] at h1
      have hr := ih (fun x hx => h2 x (List.mem_cons_of_mem _ hx)) _ h1.2
      simp only [List.filterMap_cons]
      split
      · exact sortedFrom_mono (Nat.le_succ_of_le h1.1) _ hr
      · next x hx =>
        have := hf e x hx (h2 e List.mem_cons_self)
        obtain ⟨j, w⟩ := x
        simp only [sortedFrom, Bool.and_eq_true, decide_eq_true_eq]
        simp only at this
        rw [this.1]
        exact ⟨h1.1, hr⟩
  · intro x hx
    obtain ⟨e, he, hfe⟩ := List.mem_filterMap.1 hx
    exact (hf e x hfe (h2 e he)).2

theorem kept_resetRegs (s : State) (kd : ResetKind) (sel : Nat → Bool) (hs : Kept k s) : Kept k (resetRegs s kd sel) := by
  unfold resetRegs
  refine kept_regFile { s with runs := s.runs.filter (fun r => !sel r.page) } _ (Kept.upd hs) ?_
  intro w
  apply twf_resets _ _ _ _ w
  intro e e' h he
  simp only at h
  split at h
  · split at h
    · cases h
    · next hne => injection h with h; subst h; exact ⟨rfl, hne⟩
  · injection h with h; subst h; exact ⟨rfl, he⟩

end Sys2Proof.Machine
end

