-- ==== Sys2Proof/Laws/KeptMachine.lean ====
section
/-! SUPPORT. What each operation keeps (Sys2Proof.Machine.Kept): the register blocks, memory, the queues, the partition steps, the wire and the movers. -/

namespace Sys2Proof.Machine

theorem kept_bump {K : State} (s : State) (pg : Nat) (f : FRef) (n : Nat) (hs : Kept K s) :
    Kept K (bump s pg f n) := by
  unfold bump
  try dsimp only
  repeat' (with_reducible first | assumption | apply kept_wr)

theorem kept_partPut {K : State} (s : State) (p : Nat) (x : Part) (hs : Kept K s) :
    Kept K (partPut s p x) := by
  unfold partPut
  try dsimp only
  repeat' (with_reducible first | assumption | ((conv => pattern (State.mk ..)); first | apply Kept.upd))

theorem kept_sessPut {K : State} (s : State) (i : Nat) (x : Sess) (hs : Kept K s) :
    Kept K (sessPut s i x) := by
  unfold sessPut
  try dsimp only
  repeat' (with_reducible first | assumption | ((conv => pattern (State.mk ..)); first | apply Kept.upd))

theorem kept_emit {K : State} (s : State) (o : Out) (hs : Kept K s) :
    Kept K (emit s o) := by
  unfold emit
  try dsimp only
  repeat' (with_reducible first | assumption | ((conv => pattern (State.mk ..)); first | apply Kept.upd))

theorem kept_nextFree {K : State} (s : State) (hs : Kept K s) :
    Kept K (nextFree s).1 := by
  unfold nextFree
  try dsimp only
  repeat' (with_reducible first | assumption | ((conv => pattern (State.mk ..)); first | apply Kept.upd))

theorem kept_portPut {K : State} (s : State) (x p : Nat) (v : Port) (hs : Kept K s) :
    Kept K (portPut s x p v) := by
  unfold portPut
  try dsimp only
  repeat' (with_reducible first | assumption | ((conv => pattern (State.mk ..)); first | apply Kept.upd))

theorem kept_portQueue {K : State} (s : State) (x p : Nat) (f : QFrame) (hs : Kept K s) :
    Kept K (portQueue s x p f) := by
  unfold portQueue
  try dsimp only
  repeat' (with_reducible first | assumption | apply kept_portPut)

theorem kept_transmit {K : State} (s : State) (i : Nat) (x : Sess) (o : Out) (seq msg : Word32) (ends : Bool × Bool) (retx : Bool) (hs : Kept K s) :
    Kept K (transmit s i x o seq msg ends retx) := by
  unfold transmit
  try dsimp only
  repeat' (with_reducible first | assumption | apply kept_sessPut | apply kept_portQueue | apply kept_emit | apply Kept.ite | apply Kept.itePair | split)

theorem kept_vecSend {K : State} (count : State → Nat → State) (s : State) (v : Nat) (m : Out) (hcount : ∀ x0 x1, Kept K x0 → Kept K (count x0 x1)) (hs : Kept K s) :
    Kept K (vecSend count s v m) := by
  unfold vecSend
  try dsimp only
  repeat' (with_reducible first | assumption | apply kept_emit | apply kept_transmit | apply hcount | intro _ | apply Kept.ite | apply Kept.itePair | split)

theorem kept_vecDeliverBy {K : State} (count : State → Nat → State) (s : State) (v : Nat) (hcount : ∀ x0 x1, Kept K x0 → Kept K (count x0 x1)) (hs : Kept K s) :
    Kept K (vecDeliverBy count s v) := by
  unfold vecDeliverBy
  try dsimp only
  repeat' (with_reducible first | assumption | apply kept_vecSend | apply kept_regPut | apply hcount | intro _ | apply Kept.ite | apply Kept.itePair | split)

theorem kept_vecTryBy {K : State} (count : State → Nat → State) (s : State) (v : Nat) (hcount : ∀ x0 x1, Kept K x0 → Kept K (count x0 x1)) (hs : Kept K s) :
    Kept K (vecTryBy count s v) := by
  unfold vecTryBy
  try dsimp only
  repeat' (with_reducible first | assumption | apply kept_vecDeliverBy | apply hcount | intro _ | apply Kept.ite | apply Kept.itePair | split)

theorem kept_vecRaiseBy {K : State} (count : State → Nat → State) (s : State) (v pg : Nat) (hcount : ∀ x0 x1, Kept K x0 → Kept K (count x0 x1)) (hs : Kept K s) :
    Kept K (vecRaiseBy count s v pg) := by
  unfold vecRaiseBy
  try dsimp only
  repeat' (with_reducible first | assumption | apply kept_regPut | apply kept_vecTryBy | apply hcount | intro _ | apply Kept.getD | apply Kept.ite | apply Kept.itePair | split | ((conv => pattern (State.mk ..)); first | apply Kept.upd))

theorem kept_markEvent {K : State} (s : State) (pg b : Nat) (zero : Bool) (hs : Kept K s) :
    Kept K (markEvent s pg b zero) := by
  unfold markEvent
  try dsimp only
  repeat' (with_reducible first | assumption | apply kept_wr | apply Kept.ite | apply Kept.itePair | split | ((conv => pattern (State.mk ..)); first | apply Kept.upd))

theorem kept_raiseOnBy {K : State} (count : State → Nat → State) (s : State) (pg b v : Nat) (hcount : ∀ x0 x1, Kept K x0 → Kept K (count x0 x1)) (hs : Kept K s) :
    Kept K (raiseOnBy count s pg b v) := by
  unfold raiseOnBy
  try dsimp only
  repeat' (with_reducible first | assumption | apply kept_vecRaiseBy | apply kept_markEvent | apply hcount | intro _ | apply Kept.ite | apply Kept.itePair | split)

theorem kept_tallyBy {K : State} (over_ : State → State) (s : State) (pg i w : Nat) (hover_ : ∀ x0, Kept K x0 → Kept K (over_ x0)) (hs : Kept K s) :
    Kept K (tallyBy over_ s pg i w) := by
  unfold tallyBy
  try dsimp only
  repeat' (with_reducible first | assumption | apply kept_regPut | apply hover_ | intro _ | apply Kept.ite | apply Kept.itePair | split)

theorem kept_countEventOnce {K : State} (s : State) (x : Nat) (hs : Kept K s) :
    Kept K (countEventOnce s x) := by
  unfold countEventOnce
  try dsimp only
  repeat' (with_reducible first | assumption | apply Kept.ident | apply kept_tallyBy | intro _)

theorem kept_countEvent {K : State} (s : State) (x : Nat) (hs : Kept K s) :
    Kept K (countEvent s x) := by
  unfold countEvent
  try dsimp only
  repeat' (with_reducible first | assumption | apply kept_tallyBy | apply kept_raiseOnBy | apply kept_countEventOnce | intro _)

theorem kept_vecDeliver {K : State} (s : State) (v : Nat) (hs : Kept K s) :
    Kept K (vecDeliver s v) := by
  unfold vecDeliver
  try dsimp only
  repeat' (with_reducible first | assumption | apply kept_vecDeliverBy | apply kept_countEvent | intro _)

theorem kept_vecTry {K : State} (s : State) (v : Nat) (hs : Kept K s) :
    Kept K (vecTry s v) := by
  unfold vecTry
  try dsimp only
  repeat' (with_reducible first | assumption | apply kept_vecTryBy | apply kept_countEvent | intro _)

theorem kept_vecRaise {K : State} (s : State) (v pg : Nat) (hs : Kept K s) :
    Kept K (vecRaise s v pg) := by
  unfold vecRaise
  try dsimp only
  repeat' (with_reducible first | assumption | apply kept_vecRaiseBy | apply kept_countEvent | intro _)

theorem kept_raiseOn {K : State} (s : State) (pg b v : Nat) (hs : Kept K s) :
    Kept K (raiseOn s pg b v) := by
  unfold raiseOn
  try dsimp only
  repeat' (with_reducible first | assumption | apply kept_raiseOnBy | apply kept_countEvent | intro _)

theorem kept_raise {K : State} (s : State) (pg b : Nat) (hs : Kept K s) :
    Kept K (raise s pg b) := by
  unfold raise
  try dsimp only
  repeat' (with_reducible first | assumption | apply kept_raiseOn)

theorem kept_raiseZero {K : State} (s : State) (pg b : Nat) (hs : Kept K s) :
    Kept K (raiseZero s pg b) := by
  unfold raiseZero
  try dsimp only
  repeat' (with_reducible first | assumption | apply kept_vecRaise | apply kept_markEvent)

theorem kept_tally {K : State} (s : State) (pg i w : Nat) (hs : Kept K s) :
    Kept K (tally s pg i w) := by
  unfold tally
  try dsimp only
  repeat' (with_reducible first | assumption | apply kept_tallyBy | apply kept_raise | intro _)

theorem kept_recordErr {K : State} (s : State) (pg code : Nat) (part : Option Nat) (addr : Nat) (phys : Bool) (detail : Nat) (hs : Kept K s) :
    Kept K (recordErr s pg code part addr phys detail) := by
  unfold recordErr
  try dsimp only
  repeat' (with_reducible first | assumption | apply kept_wr | apply kept_regPut | apply Kept.ite | apply Kept.itePair | split)

theorem kept_recordRefusal {K : State} (s : State) (pg code : Nat) (part : Option Nat) (addr : Nat) (hs : Kept K s) :
    Kept K (recordRefusal s pg code part addr) := by
  unfold recordRefusal
  try dsimp only
  repeat' (with_reducible first | assumption | apply kept_raise | apply kept_recordErr)

theorem kept_countChange {K : State} (s : State) (pg : Nat) (hs : Kept K s) :
    Kept K (countChange s pg) := by
  unfold countChange
  try dsimp only
  repeat' (with_reducible first | assumption | apply kept_wr)

theorem kept_blockStart {K : State} (s : State) (pg : Nat) (hs : Kept K s) :
    Kept K (blockStart s pg) := by
  unfold blockStart
  try dsimp only
  repeat' (with_reducible first | assumption | apply kept_wr)

theorem kept_blockStop {K : State} (s : State) (pg rank : Nat) (hs : Kept K s) :
    Kept K (blockStop s pg rank) := by
  unfold blockStop
  try dsimp only
  repeat' (with_reducible first | assumption | apply kept_wr)

theorem kept_blockFault {K : State} (s : State) (pg : Nat) (hs : Kept K s) :
    Kept K (blockFault s pg) := by
  unfold blockFault
  try dsimp only
  repeat' (with_reducible first | assumption | apply kept_raise | apply kept_wr | apply Kept.ite | apply Kept.itePair | split)

theorem kept_voidFrames {K : State} (s : State) (sel : Nat → Bool) (hs : Kept K s) :
    Kept K (voidFrames s sel) := by
  unfold voidFrames
  dsimp only
  have := kept_galMap s (fun n x => if sel n then
    { x with queues := x.queues.map (fun (k : QAux) => { k with frames := k.frames.map (fun f => { f with void := true }) }) } else x) (by
      intro n x h
      split
      · exact ⟨h.1, by simpa only [List.length_map] using h.2.1, h.2.2⟩
      · exact h) hs
  refine Eq.mp (congrArg (fun l => Kept K { s with gals := l }) ?_) this
  apply List.map_congr_left
  intro e _
  split <;> rfl

theorem kept_voidPart {K : State} (s : State) (pg : Nat) (hs : Kept K s) :
    Kept K (voidPart s pg) := by
  unfold voidPart
  try dsimp only
  repeat' (with_reducible first | assumption | apply kept_voidFrames | split)

theorem kept_pageFault {K : State} (s : State) (pg : Nat) (f : PageFault) (hs : Kept K s) :
    Kept K (pageFault s pg f) := by
  unfold pageFault
  try dsimp only
  repeat' (with_reducible first | assumption | apply kept_blockFault | apply kept_recordErr | apply kept_voidPart | apply Kept.ite | apply Kept.itePair | split)

theorem kept_blockPartStop {K : State} (s : State) (pg : Nat) (hs : Kept K s) :
    Kept K (blockPartStop s pg) := by
  unfold blockPartStop
  try dsimp only
  repeat' (with_reducible first | assumption | apply kept_wr | apply Kept.ite | apply Kept.itePair | split)

theorem kept_blockDrained {K : State} (s : State) (pg : Nat) (hs : Kept K s) :
    Kept K (blockDrained s pg) := by
  unfold blockDrained
  try dsimp only
  repeat' (with_reducible first | assumption | apply kept_raise | apply kept_wr | apply kept_countChange | apply Kept.ite | apply Kept.itePair | split)

theorem kept_blockClearFault {K : State} (s : State) (pg : Nat) (hs : Kept K s) :
    Kept K (blockClearFault s pg) := by
  unfold blockClearFault
  try dsimp only
  repeat' (with_reducible first | assumption | apply kept_raise | apply kept_countChange | apply kept_wr | apply Kept.ite | apply Kept.itePair | split)

theorem kept_blockWake {K : State} (s : State) (pg : Nat) (hs : Kept K s) :
    Kept K (blockWake s pg) := by
  unfold blockWake
  try dsimp only
  repeat' (with_reducible first | assumption | apply kept_raise | apply kept_countChange | apply kept_wr | apply Kept.ite | apply Kept.itePair | split)

theorem kept_beginRun {K : State} (s : State) (pg first k tag : Nat) (hs : Kept K s) :
    Kept K (beginRun s pg first k tag) := by
  unfold beginRun
  try dsimp only
  repeat' (with_reducible first | assumption | apply kept_regPut | apply kept_foldl | apply kept_foldlPair | intro _ | apply Kept.ite | apply Kept.itePair | split | ((conv => pattern (State.mk ..)); first | apply Kept.upd | apply Kept.regFilter | apply Kept.memFilter))

theorem kept_resetPage {K : State} (s : State) (k : ResetKind) (pg : Nat) (hs : Kept K s) :
    Kept K (resetPage s k pg) := by
  unfold resetPage
  try dsimp only
  repeat' (with_reducible first | assumption | apply kept_countChange | apply kept_resetRegs)

theorem kept_showJournal {K : State} (s : State) (hs : Kept K s) :
    Kept K (showJournal s) := by
  unfold showJournal
  try dsimp only
  repeat' (with_reducible first | assumption | apply kept_regPut)

theorem kept_journalled {K : State} (s : State) (what : Nat) (hs : Kept K s) :
    Kept K (journalled s what) := by
  unfold journalled
  try dsimp only
  repeat' (with_reducible first | assumption | apply kept_showJournal | ((conv => pattern (State.mk ..)); first | apply Kept.upd))

theorem kept_putRecord {K : State} (s : State) (r : CurRec) (hs : Kept K s) :
    Kept K (putRecord s r) := by
  unfold putRecord
  try dsimp only
  repeat' (with_reducible first | assumption | apply kept_journalled | ((conv => pattern (State.mk ..)); first | apply Kept.upd))

theorem kept_journalOpen {K : State} (s : State) (what : Nat) (hs : Kept K s) :
    Kept K (journalOpen s what) := by
  unfold journalOpen
  try dsimp only
  repeat' (with_reducible first | assumption | apply kept_showJournal | ((conv => pattern (State.mk ..)); first | apply Kept.upd))

theorem kept_journalClose {K : State} (s : State) (what : Nat) (hs : Kept K s) :
    Kept K (journalClose s what) := by
  unfold journalClose
  try dsimp only
  repeat' (with_reducible first | assumption | apply kept_showJournal | ((conv => pattern (State.mk ..)); first | apply Kept.upd))

theorem kept_mbxPut {K : State} (s : State) (i k : Nat) (m : Mbx) (hs : Kept K s) :
    Kept K (mbxPut s i k m) := by
  unfold mbxPut
  try dsimp only
  repeat' (with_reducible first | assumption | ((conv => pattern (State.mk ..)); first | apply Kept.upd))

theorem kept_mailDone {K : State} (s : State) (i k result : Nat) (data : List Byte) (hs : Kept K s) :
    Kept K (mailDone s i k result data) := by
  unfold mailDone
  try dsimp only
  repeat' (with_reducible first | assumption | apply kept_mbxPut | apply kept_journalClose | apply kept_journalled | apply kept_raise | apply kept_vecRaise | apply Kept.ite | apply Kept.itePair | split)

theorem kept_mboxRequest {K : State} (s : State) (i k len off : Nat) (bs : List Byte) (hs : Kept K s) :
    Kept K (mboxRequest s i k len off bs) := by
  unfold mboxRequest
  try dsimp only
  repeat' (with_reducible first | assumption | apply kept_mbxPut | apply kept_foldl | apply kept_foldlPair | intro _ | apply Kept.ite | apply Kept.itePair | split)

theorem kept_mboxWrite {K : State} (s : State) (i off len at_ : Nat) (bs : List Byte) (hs : Kept K s) :
    Kept K (mboxWrite s i off len at_ bs) := by
  unfold mboxWrite
  try dsimp only
  repeat' (with_reducible first | assumption | apply kept_mboxRequest | apply Kept.ite | apply Kept.itePair | split | ((conv => pattern (State.mk ..)); first | apply Kept.upd))

theorem kept_healGranule {K : State} (s : State) (g : Nat) (hs : Kept K s) :
    Kept K (healGranule s g) := by
  unfold healGranule
  try dsimp only
  repeat' (with_reducible first | assumption | split | ((conv => pattern (State.mk ..)); first | apply Kept.upd))

theorem kept_countRows {K : State} (s : State) (gs : List Nat) (hs : Kept K s) :
    Kept K (countRows s gs) := by
  unfold countRows
  try dsimp only
  repeat' (with_reducible first | assumption | apply kept_foldl | apply kept_foldlPair | intro _ | split | ((conv => pattern (State.mk ..)); first | apply Kept.upd | apply Kept.regFilter | apply Kept.memFilter))

theorem kept_touchStack {K : State} (s : State) (a : Nat) (hs : Kept K s) :
    Kept K (touchStack s a) := by
  unfold touchStack
  try dsimp only
  repeat' (with_reducible first | assumption | apply Kept.ite | apply Kept.itePair | split | ((conv => pattern (State.mk ..)); first | apply Kept.upd | apply Kept.regFilter | apply Kept.memFilter))

theorem kept_countWord {K : State} (s : State) (pg a : Nat) (hs : Kept K s) :
    Kept K (countWord s pg a) := by
  unfold countWord
  try dsimp only
  repeat' (with_reducible first | assumption | apply kept_tally | apply Kept.ite | apply Kept.itePair | split)

theorem kept_countWords {K : State} (s : State) (pg : Nat) (gs : List Nat) (hs : Kept K s) :
    Kept K (countWords s pg gs) := by
  unfold countWords
  try dsimp only
  repeat' (with_reducible first | assumption | apply kept_countWord | apply kept_countRows | apply kept_foldl | apply kept_foldlPair | intro _ | split)

theorem kept_healRange {K : State} (s0 : State) (a n : Nat) (hs0 : Kept K s0) :
    Kept K (healRange s0 a n) := by
  unfold healRange
  try dsimp only
  repeat' (with_reducible first | assumption | apply kept_touchStack | apply kept_healGranule | apply kept_countWords | apply kept_foldl | apply kept_foldlPair | intro _ | apply Kept.ite | apply Kept.itePair | split)

theorem kept_storeGranule {K : State} (s : State) (a : Nat) (bs : List Byte) (hs : Kept K s) :
    ∀ z, storeGranule s a bs = some z → Kept K z := by
  intro z ht
  unfold storeGranule at ht
  try dsimp only at ht
  repeat' (first | contradiction | (injection ht with ht; subst ht) | split at ht)
  all_goals (try dsimp only)
  all_goals (repeat' (with_reducible first | assumption | apply kept_memPut | apply kept_healGranule | apply kept_foldl | apply kept_foldlPair | intro _ | apply Kept.ite | apply Kept.itePair | split | ((conv => pattern (State.mk ..)); first | apply Kept.upd)))

theorem kept_storeFrom {K : State} (s : State) (fuel a : Nat) (bs : List Byte) (hs : Kept K s) :
    Kept K (storeFrom s fuel a bs).1 := by
  induction fuel generalizing s a bs with
  | zero =>
    unfold storeFrom
    try dsimp only
    all_goals (repeat' (with_reducible first | assumption | refine kept_storeGranule _ _ _ ?_ | refine Kept.osome ?_ ‹_› | intro _ | split))
  | succ n ih =>
    unfold storeFrom
    try dsimp only
    repeat' (with_reducible first | assumption | apply ih | refine kept_storeGranule _ _ _ ?_ | refine Kept.osome ?_ ‹_› | intro _ | split)

theorem kept_store {K : State} (s : State) (a : Nat) (bs : List Byte) (hs : Kept K s) :
    Kept K (store s a bs).1 := by
  unfold store
  try dsimp only
  repeat' (with_reducible first | assumption | apply kept_storeFrom | apply kept_touchStack | refine Kept.fst ?_ ‹_› | split)

theorem kept_vheal {K : State} (s : State) (p va n : Nat) (hs : Kept K s) :
    Kept K (vheal s p va n) := by
  unfold vheal
  try dsimp only
  repeat' (with_reducible first | assumption | apply kept_healRange | apply kept_foldl | apply kept_foldlPair | intro _ | split)

theorem kept_vfetch {K : State} (s : State) (p va n : Nat) (hs : Kept K s) :
    ∀ z, vfetch s p va n = .ok z → Kept K z.1 := by
  intro z ht
  unfold vfetch at ht
  try dsimp only at ht
  repeat' (first | contradiction | (injection ht with ht; subst ht) | split at ht)
  all_goals (try dsimp only)
  all_goals (repeat' (with_reducible first | assumption | apply kept_vheal | split))

theorem kept_vstoreFrom {K : State} (s : State) (p fuel va : Nat) (bs : List Byte) (hs : Kept K s) :
    Kept K (vstoreFrom s p fuel va bs).1 := by
  induction fuel generalizing s p va bs with
  | zero =>
    unfold vstoreFrom
    try dsimp only
    all_goals (repeat' (with_reducible first | assumption | apply kept_store | refine Kept.fst ?_ ‹_› | split))
  | succ n ih =>
    unfold vstoreFrom
    try dsimp only
    repeat' (with_reducible first | assumption | apply ih | apply kept_store | refine Kept.fst ?_ ‹_› | split)

theorem kept_vstore {K : State} (s : State) (p va : Nat) (bs : List Byte) (hs : Kept K s) :
    Kept K (vstore s p va bs).1 := by
  unfold vstore
  try dsimp only
  repeat' (with_reducible first | assumption | apply kept_vstoreFrom | refine Kept.fst ?_ ‹_› | split)

theorem kept_qauxPut {K : State} (s : State) (g q : Nat) (x : QAux) (hs : Kept K s) :
    Kept K (qauxPut s g q x) := by
  unfold qauxPut
  try dsimp only
  repeat' (with_reducible first | assumption | (intro hx; simp only [GalShaped, setAt, List.length_set, List.length_map] at hx ⊢; exact hx) | exact fun _ => galShaped_idle _ | apply kept_galPut)

theorem kept_degradeStack {K : State} (s : State) (k : Nat) (hs : Kept K s) :
    Kept K (degradeStack s k) := by
  unfold degradeStack
  try dsimp only
  repeat' (with_reducible first | assumption | apply kept_raise | apply kept_putRecord | apply Kept.ite | apply Kept.itePair | split)

theorem kept_badChannel {K : State} (s : State) (a : Nat) (hs : Kept K s) :
    Kept K (badChannel s a) := by
  unfold badChannel
  try dsimp only
  repeat' (with_reducible first | assumption | apply kept_tally | apply kept_degradeStack | apply Kept.ite | apply Kept.itePair | split | ((conv => pattern (State.mk ..)); first | apply Kept.upd))

theorem kept_countBad {K : State} (s : State) (pg a : Nat) (hs : Kept K s) :
    Kept K (countBad s pg a) := by
  unfold countBad
  try dsimp only
  repeat' (with_reducible first | assumption | apply kept_tally | apply kept_badChannel | apply Kept.ite | apply Kept.itePair | split)

theorem kept_recordBad {K : State} (s : State) (pg : Nat) (part : Option Nat) (a : Nat) (hs : Kept K s) :
    Kept K (recordBad s pg part a) := by
  unfold recordBad
  try dsimp only
  repeat' (with_reducible first | assumption | apply kept_countBad | apply kept_recordErr)

theorem kept_recordAccess {K : State} (s : State) (pg : Nat) (part : Option Nat) (va : Nat) (e : AccErr) (hs : Kept K s) :
    Kept K (recordAccess s pg part va e) := by
  unfold recordAccess
  try dsimp only
  repeat' (with_reducible first | assumption | apply kept_countBad | apply kept_recordErr | split)

theorem kept_noteLatency {K : State} (s : State) (g : Nat) (f : FrameRun) (hs : Kept K s) :
    Kept K (noteLatency s g f) := by
  unfold noteLatency
  try dsimp only
  repeat' (with_reducible first | assumption | apply kept_wr | apply kept_raise | apply kept_bump | apply Kept.ite | apply Kept.itePair | split)

theorem kept_noteEnder {K : State} (s : State) (g q index : Nat) (b : List Byte) (hs : Kept K s) :
    Kept K (noteEnder s g q index b) := by
  unfold noteEnder
  try dsimp only
  repeat' (with_reducible first | assumption | apply kept_qauxPut | intro _ | apply Kept.getD | apply Kept.ite | apply Kept.itePair | split)

theorem kept_frameEnd {K : State} (s : State) (g q index : Nat) (hs : Kept K s) :
    Kept K (frameEnd s g q index) := by
  unfold frameEnd
  try dsimp only
  repeat' (with_reducible first | assumption | apply kept_noteLatency | apply kept_qauxPut | apply kept_foldl | apply kept_foldlPair | intro _ | split)

theorem kept_haltQueue {K : State} (s : State) (g q index status : Nat) (hs : Kept K s) :
    Kept K (haltQueue s g q index status) := by
  unfold haltQueue
  try dsimp only
  repeat' (with_reducible first | assumption | apply kept_wr | apply Kept.ite | apply Kept.itePair | split)

theorem kept_writeRecord {K : State} (s : State) (g q index status attempts detail : Nat) (b : List Byte) (hs : Kept K s) :
    Kept K (writeRecord s g q index status attempts detail b).1 := by
  unfold writeRecord
  try dsimp only
  repeat' (with_reducible first | assumption | apply kept_vstore | apply kept_recordAccess | refine Kept.fst ?_ ‹_› | apply Kept.ite | apply Kept.itePair | split)

theorem kept_advanceDone {K : State} (s : State) (g q index : Nat) (hs : Kept K s) :
    Kept K (advanceDone s g q index) := by
  unfold advanceDone
  try dsimp only
  repeat' (with_reducible first | assumption | apply kept_wr | apply kept_qauxPut)

theorem kept_noteFailure {K : State} (s : State) (g status step : Nat) (hs : Kept K s) :
    Kept K (noteFailure s g status step) := by
  unfold noteFailure
  try dsimp only
  repeat' (with_reducible first | assumption | apply kept_partPut | apply Kept.ite | apply Kept.itePair | split)

theorem kept_completeCmd {K : State} (s : State) (g q index status attempts detail : Nat) (b : List Byte) (counts : Bool) (hs : Kept K s) :
    Kept K (completeCmd s g q index status attempts detail b counts) := by
  unfold completeCmd
  try dsimp only
  repeat' (with_reducible first | assumption | (intro hx; simp only [GalShaped, setAt, List.length_set, List.length_map] at hx ⊢; exact hx) | exact fun _ => galShaped_idle _ | apply kept_galPut | apply kept_writeRecord | apply kept_advanceDone | apply kept_haltQueue | apply kept_tally | apply kept_noteFailure | apply kept_frameEnd | apply kept_raiseOn | refine Kept.fst ?_ ‹_› | apply Kept.ite | apply Kept.itePair | split)

theorem kept_noteWatches {K : State} (s : State) (g : Nat) (b : List Byte) (hs : Kept K s) :
    Kept K (noteWatches s g b) := by
  unfold noteWatches
  try dsimp only
  repeat' (with_reducible first | assumption | apply kept_wr | apply kept_foldl | apply kept_foldlPair | intro _ | apply Kept.ite | apply Kept.itePair | split)

theorem kept_takeHead {K : State} (s : State) (g q index : Nat) (hs : Kept K s) :
    Kept K (takeHead s g q index) := by
  unfold takeHead
  try dsimp only
  repeat' (with_reducible first | assumption | apply kept_tally | apply kept_wr)

theorem kept_noteWait {K : State} (s : State) (g q index : Nat) (hs : Kept K s) :
    Kept K (noteWait s g q index) := by
  unfold noteWait
  try dsimp only
  repeat' (with_reducible first | assumption | apply kept_tally | apply kept_qauxPut | split)

theorem kept_failCheck {K : State} (s : State) (g q index : Nat) (b : List Byte) (c : Check) (hs : Kept K s) :
    Kept K (failCheck s g q index b c) := by
  unfold failCheck
  try dsimp only
  repeat' (with_reducible first | assumption | apply kept_completeCmd | apply kept_recordErr | apply kept_raise | apply kept_tally | apply kept_recordAccess | split)

theorem kept_slotHeal {K : State} (s : State) (g q index : Nat) (hs : Kept K s) :
    Kept K (slotHeal s g q index) := by
  unfold slotHeal
  try dsimp only
  repeat' (with_reducible first | assumption | apply kept_vheal | split)

theorem kept_acceptRow {K : State} (s : State) (g q : Nat) (mine : List Byte → Bool) (check : State → Nat → List Byte → Check) (start : State → Nat → List Byte → State) (hs : Kept K s) (hstart : ∀ x0 x1 x2, Kept K x0 → Kept K (start x0 x1 x2)) :
    Kept K (acceptRow s g q mine check start) := by
  unfold acceptRow
  try dsimp only
  repeat' (with_reducible first | assumption | apply kept_completeCmd | apply kept_recordAccess | apply kept_takeHead | apply kept_noteEnder | apply kept_slotHeal | apply kept_tally | apply kept_recordErr | apply kept_noteWatches | apply kept_noteWait | apply kept_failCheck | apply hstart | intro _ | apply Kept.ite | apply Kept.itePair | split)

theorem kept_addBegun {K : State} (s : State) (g : Nat) (c : Begun) (hs : Kept K s) :
    Kept K (addBegun s g c) := by
  unfold addBegun
  try dsimp only
  repeat' (with_reducible first | assumption | (intro hx; simp only [GalShaped, setAt, List.length_set, List.length_map] at hx ⊢; exact hx) | exact fun _ => galShaped_idle _ | apply kept_galPut)

theorem kept_begunPut {K : State} (s : State) (g : Nat) (c : Begun) (hs : Kept K s) :
    Kept K (begunPut s g c) := by
  unfold begunPut
  try dsimp only
  repeat' (with_reducible first | assumption | (intro hx; simp only [GalShaped, setAt, List.length_set, List.length_map] at hx ⊢; exact hx) | exact fun _ => galShaped_idle _ | apply kept_galPut | apply Kept.ite | apply Kept.itePair | split)

theorem kept_endBegun {K : State} (s : State) (g q index status detail : Nat) (hs : Kept K s) :
    Kept K (endBegun s g q index status detail) := by
  unfold endBegun
  try dsimp only
  repeat' (with_reducible first | assumption | apply kept_begunPut | split)

theorem kept_completeBegun {K : State} (s : State) (g q index : Nat) (hs : Kept K s) :
    Kept K (completeBegun s g q index) := by
  unfold completeBegun
  try dsimp only
  repeat' (with_reducible first | assumption | apply kept_completeCmd | split)

theorem kept_noteTail {K : State} (s : State) (g q tail : Nat) (hs : Kept K s) :
    Kept K (noteTail s g q tail) := by
  unfold noteTail
  try dsimp only
  repeat' (with_reducible first | assumption | apply kept_qauxPut)

theorem kept_queueResume {K : State} (s : State) (g q : Nat) (hs : Kept K s) :
    Kept K (queueResume s g q) := by
  unfold queueResume
  try dsimp only
  repeat' (with_reducible first | assumption | apply kept_wr)

theorem kept_cancelFrom {K : State} (s : State) (g q step n : Nat) (counts : Bool) (hs : Kept K s) :
    Kept K (cancelFrom s g q step n counts) := by
  induction n generalizing s g q step counts with
  | zero =>
    unfold cancelFrom
    try dsimp only
    all_goals (repeat' (with_reducible first | assumption | apply kept_noteEnder | apply kept_wr | apply kept_completeCmd | split))
  | succ n ih =>
    unfold cancelFrom
    try dsimp only
    repeat' (with_reducible first | assumption | apply ih | apply kept_noteEnder | apply kept_wr | apply kept_completeCmd | split)

theorem kept_queueFlush {K : State} (s : State) (g q : Nat) (hs : Kept K s) :
    Kept K (queueFlush s g q) := by
  unfold queueFlush
  try dsimp only
  repeat' (with_reducible first | assumption | apply kept_queueResume | apply kept_cancelFrom)

theorem kept_alive {K : State} (s : State) (f : State → State) (hs : Kept K s) (hf : ∀ x0, Kept K x0 → Kept K (f x0)) :
    Kept K (alive s f) := by
  unfold alive
  try dsimp only
  repeat' (with_reducible first | assumption | apply hf | intro _ | apply Kept.ite | apply Kept.itePair | split)

theorem kept_withAlert {K : State} (s : State) (f : State → State) (hs : Kept K s) (hf : ∀ x0, Kept K x0 → Kept K (f x0)) :
    Kept K (withAlert s f) := by
  unfold withAlert
  try dsimp only
  repeat' (with_reducible first | assumption | apply kept_tally | apply kept_raise | apply hf | intro _ | apply Kept.ite | apply Kept.itePair | split)

theorem kept_setAlert {K : State} (s : State) (b : Nat) (hs : Kept K s) :
    Kept K (setAlert s b) := by
  unfold setAlert
  try dsimp only
  repeat' (with_reducible first | assumption | apply kept_withAlert | apply kept_wr | intro _)

theorem kept_setBypassed {K : State} (s : State) (r : Ring) (v : Nat) (hs : Kept K s) :
    Kept K (setBypassed s r v) := by
  unfold setBypassed
  try dsimp only
  repeat' (with_reducible first | assumption | apply kept_wr | apply kept_foldl | apply kept_foldlPair | intro _ | split)

theorem kept_ringDrop {K : State} (s : State) (r : Ring) (cause : Nat) (hs : Kept K s) :
    Kept K (ringDrop s r cause) := by
  unfold ringDrop
  try dsimp only
  repeat' (with_reducible first | assumption | apply kept_setBypassed | apply kept_wr | apply kept_tally | apply kept_raise | apply Kept.ite | apply Kept.itePair | split | ((conv => pattern (State.mk ..)); first | apply Kept.upd | apply Kept.regFilter | apply Kept.memFilter))

theorem kept_ringsDrop {K : State} (s : State) (cause : Nat) (hs : Kept K s) :
    Kept K (ringsDrop s cause) := by
  unfold ringsDrop
  try dsimp only
  repeat' (with_reducible first | assumption | apply kept_ringDrop)

theorem kept_linkDrop {K : State} (s : State) (x p : Nat) (hs : Kept K s) :
    Kept K (linkDrop s x p) := by
  unfold linkDrop
  try dsimp only
  repeat' (with_reducible first | assumption | apply kept_portPut | apply kept_tally | apply kept_raise | apply kept_wr | apply Kept.ite | apply Kept.itePair | split | ((conv => pattern (State.mk ..)); first | apply Kept.upd))

theorem kept_zeroCabinet {K : State} (s : State) (pg : Nat) (hs : Kept K s) :
    Kept K (zeroCabinet s pg) := by
  unfold zeroCabinet
  try dsimp only
  repeat' (with_reducible first | assumption | apply kept_zeroFill)

theorem kept_leaveIdle {K : State} (s : State) (hs : Kept K s) :
    Kept K (leaveIdle s) := by
  unfold leaveIdle
  try dsimp only
  repeat' (with_reducible first | assumption | apply kept_tally | apply kept_raise | apply kept_wr | apply Kept.ite | apply Kept.itePair | split | ((conv => pattern (State.mk ..)); first | apply Kept.upd))

theorem kept_idleCheck {K : State} (s : State) (hs : Kept K s) :
    Kept K (idleCheck s) := by
  unfold idleCheck
  try dsimp only
  repeat' (with_reducible first | assumption | apply kept_leaveIdle | apply Kept.ite | apply Kept.itePair | split)

theorem kept_dropLead {K : State} (s : State) (pg : Nat) (hs : Kept K s) :
    Kept K (dropLead s pg) := by
  unfold dropLead
  try dsimp only
  repeat' (with_reducible first | assumption | apply kept_partPut | apply Kept.ite | apply Kept.itePair | split)

theorem kept_galleryReset {K : State} (s0 : State) (pg : Nat) (k : ResetKind) (hs0 : Kept K s0) :
    Kept K (galleryReset s0 pg k) := by
  unfold galleryReset
  have hs := kept_voidPart s0 pg hs0
  generalize voidPart s0 pg = s at hs
  dsimp only
  apply kept_idleCheck
  apply kept_galPutFrom
  · intro w
    have h := hs.shape w pg
    split
    · exact ⟨rfl, by simpa only [List.length_map] using h.2.1, rfl⟩
    · exact ⟨rfl, rfl, rfl⟩
  · apply kept_zeroCabinet
    apply kept_foldl
    · intro t p ht
      exact kept_resetPage _ _ _ ht
    · exact kept_dropLead _ _ hs

theorem kept_mapWaits {K : State} (s : State) (f : PeerWait → PeerWait) (hs : Kept K s) :
    Kept K (mapWaits s f) := by
  unfold mapWaits
  extract_lets job cur part
  have h := kept_galMap s (fun _ x => { x with movers := x.movers.map (fun m => { m with jobs := m.jobs.map job }) })
    (fun _ x h => ⟨h.1, h.2.1, by simpa only [List.length_map] using h.2.2⟩) hs
  exact Kept.upd h

theorem kept_commitWait {K : State} (s : State) (p k : Nat) (f : PeerWait → PeerWait) (hs : Kept K s) :
    Kept K (commitWait s p k f) := by
  unfold commitWait
  try dsimp only
  repeat' (with_reducible first | assumption | apply kept_partPut | apply Kept.ite | apply Kept.itePair | split)

theorem kept_readFailed {K : State} (s : State) (o : RdOwner) (hs : Kept K s) :
    Kept K (readFailed s o) := by
  unfold readFailed
  try dsimp only
  repeat' (with_reducible first | assumption | (intro hx; simp only [GalShaped, setAt, List.length_set, List.length_map] at hx ⊢; exact hx) | exact fun _ => galShaped_idle _ | apply kept_galPut | apply kept_commitWait | apply kept_partPut | split)

theorem kept_writeFailed {K : State} (s : State) (i : Nat) (msg : Word32) (hs : Kept K s) :
    Kept K (writeFailed s i msg) := by
  unfold writeFailed
  try dsimp only
  repeat' (with_reducible first | assumption | apply kept_mapWaits)

theorem kept_closeVectors {K : State} (s : State) (i : Nat) (hs : Kept K s) :
    Kept K (closeVectors s i) := by
  unfold closeVectors
  try dsimp only
  repeat' (with_reducible first | assumption | apply kept_regPut | apply kept_vecRaise | apply kept_markEvent | apply kept_recordErr | apply kept_foldl | apply kept_foldlPair | intro _ | split)

theorem kept_peerLost {K : State} (s : State) (p index : Nat) (hs : Kept K s) :
    Kept K (peerLost s p index) := by
  unfold peerLost
  try dsimp only
  repeat' (with_reducible first | assumption | apply kept_tally | apply kept_raise | apply kept_recordErr)

theorem kept_resPut {K : State} (s : State) (p : Nat) (r : Resil) (hs : Kept K s) :
    Kept K (resPut s p r) := by
  unfold resPut
  try dsimp only
  repeat' (with_reducible first | assumption | apply kept_partPut)

theorem kept_vaultFailed {K : State} (s : State) (p i : Nat) (hs : Kept K s) :
    Kept K (vaultFailed s p i) := by
  unfold vaultFailed
  try dsimp only
  repeat' (with_reducible first | assumption | apply kept_resPut | apply kept_raise | apply kept_peerLost)

theorem kept_resSessionLost {K : State} (s : State) (p i cause : Nat) (hs : Kept K s) :
    Kept K (resSessionLost s p i cause) := by
  unfold resSessionLost
  try dsimp only
  repeat' (with_reducible first | assumption | apply kept_resPut | apply kept_vaultFailed | apply kept_peerLost | apply Kept.ite | apply Kept.itePair | split)

theorem kept_collSessionLost {K : State} (s : State) (p i : Nat) (hs : Kept K s) :
    Kept K (collSessionLost s p i) := by
  unfold collSessionLost
  try dsimp only
  repeat' (with_reducible first | assumption | apply kept_partPut | apply Kept.ite | apply Kept.itePair | split)

theorem kept_closeSession {K : State} (s : State) (i cause : Nat) (hs : Kept K s) :
    Kept K (closeSession s i cause) := by
  unfold closeSession
  try dsimp only
  repeat' (with_reducible first | assumption | apply kept_mailDone | apply kept_readFailed | apply kept_writeFailed | apply kept_wr | apply kept_tally | apply kept_closeVectors | apply kept_raise | apply kept_recordErr | apply kept_resSessionLost | apply kept_collSessionLost | apply kept_foldl | apply kept_foldlPair | intro _ | apply Kept.ite | apply Kept.itePair | split | ((conv => pattern (State.mk ..)); first | apply Kept.upd))

theorem kept_streamOff {K : State} (s : State) (j : Nat) (hs : Kept K s) :
    Kept K (streamOff s j) := by
  unfold streamOff
  try dsimp only
  repeat' (with_reducible first | assumption | apply kept_wr | ((conv => pattern (State.mk ..)); first | apply Kept.upd))

theorem kept_dropGrant {K : State} (s : State) (p : Nat) (hs : Kept K s) :
    Kept K (dropGrant s p) := by
  unfold dropGrant
  try dsimp only
  repeat' (with_reducible first | assumption | apply kept_streamOff | apply kept_wr | apply kept_foldl | apply kept_foldlPair | intro _ | apply Kept.ite | apply Kept.itePair | split)

theorem kept_putGrants {K : State} (s : State) (v : Nat) (hs : Kept K s) :
    Kept K (putGrants s v) := by
  unfold putGrants
  try dsimp only
  repeat' (with_reducible first | assumption | apply kept_wr | apply kept_dropGrant | apply kept_foldl | apply kept_foldlPair | intro _ | split)

theorem kept_clearGrant {K : State} (s : State) (p : Nat) (hs : Kept K s) :
    Kept K (clearGrant s p) := by
  unfold clearGrant
  try dsimp only
  repeat' (with_reducible first | assumption | apply kept_putGrants)

theorem kept_moduleReset {K : State} (b : State) (k : ResetKind) (hb : Kept K b) :
    Kept K (moduleReset b k) := by
  unfold moduleReset
  extract_lets s s0 s1 pw bt inFlash s2 s3 s4
  have h : Kept K s := by
    simp only [s]
    exact Kept.ite (kept_leaveIdle _ hb) hb
  have h0 : Kept K s0 := by
    simp only [s0]
    exact Kept.ite (kept_wr _ _ _ _ (kept_wr _ _ _ _ h)) h
  have h1 : Kept K s1 := kept_resetRegs _ _ _ h0
  exact Kept.galsNone h1

theorem kept_protectionStops {K : State} (s : State) (p code : Nat) (hs : Kept K s) :
    Kept K (protectionStops s p code) := by
  unfold protectionStops
  try dsimp only
  repeat' (with_reducible first | assumption | apply kept_resPut | apply kept_recordErr)

theorem kept_readDesc {K : State} (s : State) (p : Nat) (hs : Kept K s) :
    Kept K (readDesc s p).1 := by
  unfold readDesc
  try dsimp only
  repeat' (with_reducible first | assumption | apply kept_protectionStops | apply kept_recordAccess | apply kept_resPut | apply Kept.ite | apply Kept.itePair | split)

theorem kept_resEnd {K : State} (s : State) (p code : Nat) (hs : Kept K s) :
    Kept K (resEnd s p code) := by
  unfold resEnd
  try dsimp only
  repeat' (with_reducible first | assumption | apply kept_recordErr | apply kept_tally | apply kept_raise | apply kept_wr | apply Kept.ite | apply Kept.itePair | split)

theorem kept_imageSkipped {K : State} (s : State) (hs : Kept K s) :
    Kept K (imageSkipped s) := by
  unfold imageSkipped
  try dsimp only
  repeat' (with_reducible first | assumption | apply kept_tally | apply kept_raise)

theorem kept_afterCommit {K : State} (s : State) (p n : Nat) (hs : Kept K s) :
    Kept K (afterCommit s p n) := by
  unfold afterCommit
  try dsimp only
  repeat' (with_reducible first | assumption | apply kept_resPut | apply kept_imageSkipped | apply kept_resEnd | apply Kept.ite | apply Kept.itePair | split)

theorem kept_resCommitFailed {K : State} (s : State) (p : Nat) (hs : Kept K s) :
    Kept K (resCommitFailed s p) := by
  unfold resCommitFailed
  try dsimp only
  repeat' (with_reducible first | assumption | apply kept_peerLost | apply kept_resEnd | apply kept_resPut | apply Kept.ite | apply Kept.itePair | split)

theorem kept_resStart {K : State} (s : State) (p : Nat) (again : Bool) (hs : Kept K s) :
    Kept K (resStart s p again) := by
  unfold resStart
  try dsimp only
  repeat' (with_reducible first | assumption | apply kept_resPut | apply kept_readDesc | refine Kept.fst ?_ ‹_› | apply Kept.ite | apply Kept.itePair | split)

theorem kept_collFail {K : State} (s : State) (x p rid cause step : Nat) (hs : Kept K s) :
    Kept K (collFail s x p rid cause step) := by
  unfold collFail
  try dsimp only
  repeat' (with_reducible first | assumption | apply kept_regPut | apply kept_tally | apply kept_raise | apply kept_recordErr)

theorem kept_noteExps {K : State} (s : State) (g p n : Nat) (hs : Kept K s) :
    Kept K (noteExps s g p n) := by
  unfold noteExps
  try dsimp only
  repeat' (with_reducible first | assumption | apply kept_recordAccess | apply kept_partPut | apply kept_foldl | apply kept_foldlPair | intro _ | apply Kept.ite | apply Kept.itePair | split)

theorem kept_stpPut {K : State} (s : State) (p : Nat) (x : StepCtl) (hs : Kept K s) :
    Kept K (stpPut s p x) := by
  unfold stpPut
  try dsimp only
  repeat' (with_reducible first | assumption | apply kept_partPut)

theorem kept_copyCatalogue {K : State} (s : State) (p : Nat) (hs : Kept K s) :
    Kept K (copyCatalogue s p) := by
  unfold copyCatalogue
  try dsimp only
  repeat' (with_reducible first | assumption | apply kept_stpPut | apply kept_tally | apply kept_wr | refine kept_vfetch _ _ _ _ ?_ | apply kept_recordAccess | apply kept_vstore | refine Kept.fst ?_ ‹_› | refine Kept.epair ?_ ‹_› | intro _ | split)

theorem kept_failUnread {K : State} (s : State) (p step : Nat) (r : RedRun × Option (Nat × AccErr)) (hs : Kept K s) :
    Kept K (failUnread s p step r) := by
  unfold failUnread
  try dsimp only
  repeat' (with_reducible first | assumption | apply kept_collFail | apply kept_recordAccess | split)

theorem kept_collStart {K : State} (s : State) (p step : Nat) (tabs : List (Nat × Nat × Nat)) (hs : Kept K s) :
    Kept K (collStart s p step tabs) := by
  unfold collStart
  try dsimp only
  repeat' (with_reducible first | assumption | apply kept_recordAccess | apply kept_failUnread | apply kept_partPut | apply kept_foldl | apply kept_foldlPair | intro _ | apply Kept.ite | apply Kept.itePair | split)

theorem kept_gallerySnap {K : State} (s : State) (g p step : Nat) (hs : Kept K s) :
    Kept K (gallerySnap s g p step) := by
  unfold gallerySnap
  try dsimp only
  repeat' (with_reducible first | assumption | (intro hx; simp only [GalShaped, setAt, List.length_set, List.length_map] at hx ⊢; exact hx) | exact fun _ => galShaped_idle _ | apply kept_wr | apply kept_galPut)

theorem kept_stepStart {K : State} (s : State) (p n : Nat) (again : Bool) (hs : Kept K s) :
    Kept K (stepStart s p n again) := by
  unfold stepStart
  try dsimp only
  repeat' (with_reducible first | assumption | apply kept_gallerySnap | apply kept_stpPut | apply kept_noteExps | apply kept_copyCatalogue | apply kept_collStart | apply kept_resStart | apply kept_wr | apply kept_foldl | apply kept_foldlPair | intro _ | apply Kept.ite | apply Kept.itePair | split)

theorem kept_leadStarted {K : State} (s : State) (pg rank : Nat) (hs : Kept K s) :
    Kept K (leadStarted s pg rank) := by
  unfold leadStarted
  try dsimp only
  repeat' (with_reducible first | assumption | apply kept_stepStart | apply kept_copyCatalogue | apply Kept.ite | apply Kept.itePair | split)

theorem kept_moversStart {K : State} (s : State) (pg : Nat) (hs : Kept K s) :
    Kept K (moversStart s pg) := by
  unfold moversStart
  try dsimp only
  repeat' (with_reducible first | assumption | (intro hx; simp only [GalShaped, setAt, List.length_set, List.length_map] at hx ⊢; exact hx) | exact fun _ => galShaped_idle _ | apply kept_galPut | apply Kept.ite | apply Kept.itePair | split)

theorem kept_startPage {K : State} (s : State) (pg rank : Nat) (hs : Kept K s) :
    Kept K (startPage s pg rank) := by
  unfold startPage
  try dsimp only
  repeat' (with_reducible first | assumption | apply kept_leadStarted | apply kept_blockStart | apply kept_moversStart)

theorem kept_startFrom {K : State} (s : State) (pages : List Nat) (hs : Kept K s) :
    Kept K (startFrom s pages) := by
  induction pages generalizing s with
  | nil =>
    unfold startFrom
    try dsimp only
    all_goals (repeat' (with_reducible first | assumption | apply kept_startPage | apply kept_recordRefusal | apply Kept.ite | apply Kept.itePair | split))
  | cons e r ih =>
    unfold startFrom
    try dsimp only
    repeat' (with_reducible first | assumption | apply ih | apply kept_startPage | apply kept_recordRefusal | apply Kept.ite | apply Kept.itePair | split)

theorem kept_startGallery {K : State} (s : State) (g : Nat) (hs : Kept K s) :
    Kept K (startGallery s g) := by
  unfold startGallery
  try dsimp only
  repeat' (with_reducible first | assumption | apply kept_startFrom | apply Kept.ite | apply Kept.itePair | split)

theorem kept_countSent {K : State} (s : State) (x : Nat) (o : Out) (hs : Kept K s) :
    Kept K (countSent s x o) := by
  unfold countSent
  try dsimp only
  repeat' (with_reducible first | assumption | apply kept_tally | apply Kept.ite | apply Kept.itePair | split)

theorem kept_sendBare {K : State} (s : State) (i : Nat) (o : Out) (hs : Kept K s) :
    Kept K (sendBare s i o) := by
  unfold sendBare
  try dsimp only
  repeat' (with_reducible first | assumption | apply kept_countSent | apply kept_transmit | split)

theorem kept_closeWith {K : State} (s : State) (i cause : Nat) (hs : Kept K s) :
    Kept K (closeWith s i cause) := by
  unfold closeWith
  try dsimp only
  repeat' (with_reducible first | assumption | apply kept_closeSession | apply kept_countSent | apply kept_transmit | split)

theorem kept_closeOut {K : State} (s : State) (i cause : Nat) (hs : Kept K s) :
    Kept K (closeOut s i cause) := by
  unfold closeOut
  try dsimp only
  repeat' (with_reducible first | assumption | apply kept_closeWith | apply kept_closeSession | apply Kept.ite | apply Kept.itePair | split)

theorem kept_pumpFrom {K : State} (s : State) (i fuel : Nat) (hs : Kept K s) :
    Kept K (pumpFrom s i fuel) := by
  induction fuel generalizing s i with
  | zero =>
    unfold pumpFrom
    try dsimp only
    all_goals (repeat' (with_reducible first | assumption | apply kept_closeOut | apply kept_countSent | apply kept_transmit | apply Kept.ite | apply Kept.itePair | split))
  | succ n ih =>
    unfold pumpFrom
    try dsimp only
    repeat' (with_reducible first | assumption | apply ih | apply kept_closeOut | apply kept_countSent | apply kept_transmit | apply Kept.ite | apply Kept.itePair | split)

theorem kept_pump {K : State} (s : State) (i : Nat) (hs : Kept K s) :
    Kept K (pump s i) := by
  unfold pump
  try dsimp only
  repeat' (with_reducible first | assumption | apply kept_pumpFrom | split)

theorem kept_enqueue {K : State} (s : State) (i : Nat) (msg : Option Word32) (o : Out) (ends : Bool × Bool) (hs : Kept K s) :
    Kept K (enqueue s i msg o ends) := by
  unfold enqueue
  try dsimp only
  repeat' (with_reducible first | assumption | apply kept_sessPut | intro _ | apply Kept.getD | split)

theorem kept_send {K : State} (s : State) (i : Nat) (o : Out) (hs : Kept K s) :
    Kept K (send s i o) := by
  unfold send
  try dsimp only
  repeat' (with_reducible first | assumption | apply kept_pump | apply kept_enqueue)

theorem kept_sendMessage {K : State} (s : State) (i : Nat) (os : List Out) (hs : Kept K s) :
    Kept K (sendMessage s i os) := by
  unfold sendMessage
  try dsimp only
  repeat' (with_reducible first | assumption | apply kept_pump | apply kept_enqueue | apply kept_foldl | apply kept_foldlPair | intro _ | split)

theorem kept_sendPlain {K : State} (s : State) (i : Nat) (o : Out) (hs : Kept K s) :
    Kept K (sendPlain s i o) := by
  unfold sendPlain
  try dsimp only
  repeat' (with_reducible first | assumption | apply kept_closeOut | apply kept_sendBare | apply Kept.ite | apply Kept.itePair | split)

theorem kept_sendAck {K : State} (s : State) (i : Nat) (hs : Kept K s) :
    Kept K (sendAck s i) := by
  unfold sendAck
  try dsimp only
  repeat' (with_reducible first | assumption | apply kept_sendPlain | split)

theorem kept_sendStatus {K : State} (s : State) (i : Nat) (msg : Word32) (code detail : Nat) (hs : Kept K s) :
    Kept K (sendStatus s i msg code detail) := by
  unfold sendStatus
  try dsimp only
  repeat' (with_reducible first | assumption | apply kept_send)

theorem kept_sendRead {K : State} (s : State) (i epoch addr len cls : Nat) (o : RdOwner) (hs : Kept K s) :
    Kept K (sendRead s i epoch addr len cls o) := by
  unfold sendRead
  try dsimp only
  repeat' (with_reducible first | assumption | apply kept_send | apply kept_sessPut | split)

theorem kept_sendWrite {K : State} (s : State) (i epoch addr : Nat) (bs : List Byte) (cls : Nat) (hs : Kept K s) :
    Kept K (sendWrite s i epoch addr bs cls) := by
  unfold sendWrite
  try dsimp only
  repeat' (with_reducible first | assumption | apply kept_sendMessage)

theorem kept_cadPut {K : State} (s : State) (pg c : Nat) (x : Caddy) (hs : Kept K s) :
    Kept K (cadPut s pg c x) := by
  unfold cadPut
  try dsimp only
  repeat' (with_reducible first | assumption | (intro hx; simp only [GalShaped, setAt, List.length_set, List.length_map] at hx ⊢; exact hx) | exact fun _ => galShaped_idle _ | apply kept_galPut)

theorem kept_slotTake {K : State} (s : State) (pg c : Nat) (owner : Nat × Nat) (hs : Kept K s) :
    ∀ z, slotTake s pg c owner = some z → Kept K z.1 := by
  intro z ht
  unfold slotTake at ht
  try dsimp only at ht
  repeat' (first | contradiction | (injection ht with ht; subst ht) | split at ht)
  all_goals (try dsimp only)
  all_goals (repeat' (with_reducible first | assumption | apply kept_cadPut | apply Kept.ite | apply Kept.itePair | split))

theorem kept_slotFull {K : State} (s : State) (pg c n bytes : Nat) (hs : Kept K s) :
    Kept K (slotFull s pg c n bytes) := by
  unfold slotFull
  try dsimp only
  repeat' (with_reducible first | assumption | apply kept_cadPut | apply kept_store | refine Kept.fst ?_ ‹_› | intro _ | apply Kept.getD | apply Kept.ite | apply Kept.itePair | split)

theorem kept_slotSlab {K : State} (s : State) (pg c n v : Nat) (hs : Kept K s) :
    Kept K (slotSlab s pg c n v) := by
  unfold slotSlab
  try dsimp only
  repeat' (with_reducible first | assumption | apply kept_cadPut | split)

theorem kept_slotConsume {K : State} (s : State) (pg c : Nat) (hs : Kept K s) :
    ∀ z, slotConsume s pg c = some z → Kept K z.1 := by
  intro z ht
  unfold slotConsume at ht
  try dsimp only at ht
  repeat' (first | contradiction | (injection ht with ht; subst ht) | split at ht)
  all_goals (try dsimp only)
  all_goals (repeat' (with_reducible first | assumption | apply kept_cadPut | apply Kept.ite | apply Kept.itePair | split))

theorem kept_slotFree {K : State} (s : State) (pg c n : Nat) (hs : Kept K s) :
    Kept K (slotFree s pg c n) := by
  unfold slotFree
  try dsimp only
  repeat' (with_reducible first | assumption | apply kept_cadPut)

theorem kept_slotBack {K : State} (s : State) (pg c n : Nat) (hs : Kept K s) :
    Kept K (slotBack s pg c n) := by
  unfold slotBack
  try dsimp only
  repeat' (with_reducible first | assumption | apply kept_cadPut)

theorem kept_loadHeal {K : State} (s : State) (a n : Nat) (hs : Kept K s) :
    ∀ z, loadHeal s a n = .ok z → Kept K z.1 := by
  intro z ht
  unfold loadHeal at ht
  try dsimp only at ht
  repeat' (first | contradiction | (injection ht with ht; subst ht) | split at ht)
  all_goals (try dsimp only)
  all_goals (repeat' (with_reducible first | assumption | apply kept_healRange | split))

theorem kept_slotRelease {K : State} (s : State) (pg c n : Nat) (bays : List Nat) (hs : Kept K s) :
    Kept K (slotRelease s pg c n bays) := by
  unfold slotRelease
  try dsimp only
  repeat' (with_reducible first | assumption | apply kept_cadPut | apply Kept.ite | apply Kept.itePair | split)

theorem kept_releaseCaddy {K : State} (s : State) (g : Nat) (c : Begun) (k : Nat) (hs : Kept K s) :
    Kept K (releaseCaddy s g c k) := by
  unfold releaseCaddy
  try dsimp only
  repeat' (with_reducible first | assumption | apply kept_slotBack | apply kept_slotRelease | apply kept_foldl | apply kept_foldlPair | intro _ | apply Kept.ite | apply Kept.itePair | split)

theorem kept_releaseSlots {K : State} (s : State) (g : Nat) (c : Begun) (hs : Kept K s) :
    Kept K (releaseSlots s g c) := by
  unfold releaseSlots
  try dsimp only
  repeat' (with_reducible first | assumption | apply kept_releaseCaddy | apply kept_foldl | apply kept_foldlPair | intro _ | apply Kept.ite | apply Kept.itePair | split)

theorem kept_putJobs {K : State} (s : State) (pg m : Nat) (js : List MovJob) (hs : Kept K s) :
    Kept K (putJobs s pg m js) := by
  unfold putJobs
  try dsimp only
  repeat' (with_reducible first | assumption | (intro hx; simp only [GalShaped, setAt, List.length_set, List.length_map] at hx ⊢; exact hx) | exact fun _ => galShaped_idle _ | apply kept_galPut)

theorem kept_showCursor {K : State} (s : State) (pg m : Nat) (j : MovJob) (hs : Kept K s) :
    Kept K (showCursor s pg m j) := by
  unfold showCursor
  try dsimp only
  repeat' (with_reducible first | assumption | apply kept_regPut)

theorem kept_showMover {K : State} (s : State) (pg m : Nat) (hs : Kept K s) :
    Kept K (showMover s pg m) := by
  unfold showMover
  try dsimp only
  repeat' (with_reducible first | assumption | apply kept_wr | apply kept_putJobs | apply kept_tally | apply kept_beginRun | apply kept_showCursor | apply Kept.ite | apply Kept.itePair | split)

theorem kept_giveJob {K : State} (s : State) (g m q index descVa : Nat) (t : Transfer) (hs : Kept K s) :
    Kept K (giveJob s g m q index descVa t) := by
  unfold giveJob
  try dsimp only
  repeat' (with_reducible first | assumption | apply kept_putJobs | apply kept_showMover | apply Kept.ite | apply Kept.itePair | split)

theorem kept_dropSlot {K : State} (s : State) (pg : Nat) (j : MovJob) (hs : Kept K s) :
    Kept K (dropSlot s pg j) := by
  unfold dropSlot
  try dsimp only
  repeat' (with_reducible first | assumption | apply kept_slotBack | apply kept_slotFree | apply Kept.ite | apply Kept.itePair | split)

theorem kept_dropJobs {K : State} (s : State) (pg q index : Nat) (hs : Kept K s) :
    Kept K (dropJobs s pg q index) := by
  unfold dropJobs
  try dsimp only
  repeat' (with_reducible first | assumption | apply kept_dropSlot | apply kept_putJobs | apply kept_showMover | apply kept_foldl | apply kept_foldlPair | intro _ | apply Kept.ite | apply Kept.itePair | split)

theorem kept_abandon {K : State} (s : State) (g q index status detail : Nat) (hs : Kept K s) :
    Kept K (abandon s g q index status detail) := by
  unfold abandon
  try dsimp only
  repeat' (with_reducible first | assumption | (intro hx; simp only [GalShaped, setAt, List.length_set, List.length_map] at hx ⊢; exact hx) | exact fun _ => galShaped_idle _ | apply kept_dropJobs | apply kept_releaseSlots | apply kept_endBegun | apply kept_galPut | split)

theorem kept_abortJob {K : State} (s : State) (g m : Nat) (j : MovJob) (status detail : Nat) (hs : Kept K s) :
    Kept K (abortJob s g m j status detail) := by
  unfold abortJob
  try dsimp only
  repeat' (with_reducible first | assumption | apply kept_abandon | apply kept_tally | apply kept_raise)

theorem kept_putFault {K : State} (s : State) (g m cause : Nat) (write level1 : Bool) (va : Nat) (hs : Kept K s) :
    Kept K (putFault s g m cause write level1 va) := by
  unfold putFault
  try dsimp only
  repeat' (with_reducible first | assumption | apply kept_regPut)

theorem kept_elementFault {K : State} (s0 : State) (g m : Nat) (j : MovJob) (va : Nat) (e : AccErr) (hs0 : Kept K s0) :
    Kept K (elementFault s0 g m j va e) := by
  unfold elementFault
  try dsimp only
  repeat' (with_reducible first | assumption | apply kept_voidPart | apply kept_abortJob | apply kept_recordErr | apply kept_putFault | apply kept_tally | apply kept_wr | apply kept_showCursor | apply kept_raiseZero | apply kept_raise | apply kept_recordBad | apply Kept.ite | apply Kept.itePair | split)

theorem kept_jobOver {K : State} (s : State) (g : Nat) (j : MovJob) (hs : Kept K s) :
    Kept K (jobOver s g j) := by
  unfold jobOver
  try dsimp only
  repeat' (with_reducible first | assumption | apply kept_endBegun | apply Kept.ite | apply Kept.itePair | split)

theorem kept_jobNext {K : State} (s : State) (g m : Nat) (j : MovJob) (hs : Kept K s) :
    Kept K (jobNext s g m j) := by
  unfold jobNext
  try dsimp only
  repeat' (with_reducible first | assumption | apply kept_slotFull | apply kept_slotFree | apply kept_tally | apply kept_jobOver | apply kept_showMover | apply kept_putJobs | apply kept_showCursor | intro _ | apply Kept.getD | apply Kept.ite | apply Kept.itePair | split)

theorem kept_countElement {K : State} (s : State) (pg m : Nat) (t : Transfer) (padding : Bool) (hs : Kept K s) :
    Kept K (countElement s pg m t padding) := by
  unfold countElement
  try dsimp only
  repeat' (with_reducible first | assumption | apply kept_tally | apply Kept.ite | apply Kept.itePair | split)

theorem kept_captureOne {K : State} (s : State) (g m : Nat) (j : MovJob) (bs : List Byte) (w : Nat) (hs : Kept K s) :
    Kept K (captureOne s g m j bs w) := by
  unfold captureOne
  try dsimp only
  repeat' (with_reducible first | assumption | apply kept_begunPut | apply kept_wr | apply kept_vstore | apply kept_tally | refine Kept.fst ?_ ‹_› | intro _ | apply Kept.getD | apply Kept.ite | apply Kept.itePair | split)

theorem kept_capture {K : State} (s : State) (g m : Nat) (j : MovJob) (bs : List Byte) (hs : Kept K s) :
    Kept K (capture s g m j bs) := by
  unfold capture
  try dsimp only
  repeat' (with_reducible first | assumption | apply kept_captureOne | apply kept_foldl | apply kept_foldlPair | intro _ | split)

theorem kept_rewindWatches {K : State} (s : State) (g : Nat) (c : Begun) (hs : Kept K s) :
    Kept K (rewindWatches s g c) := by
  unfold rewindWatches
  try dsimp only
  repeat' (with_reducible first | assumption | apply kept_wr | apply kept_begunPut | apply kept_foldl | apply kept_foldlPair | intro _ | split)

theorem kept_elementIn {K : State} (s : State) (g m : Nat) (j : MovJob) (n : Nat) (bs : List Byte) (hs : Kept K s) :
    Kept K (elementIn s g m j n bs) := by
  unfold elementIn
  try dsimp only
  repeat' (with_reducible first | assumption | apply kept_capture | apply kept_store | apply kept_jobNext | apply kept_slotFull | refine Kept.fst ?_ ‹_› | apply Kept.ite | apply Kept.itePair | split)

theorem kept_elementOut {K : State} (s : State) (g m : Nat) (j : MovJob) (n size : Nat) (hs : Kept K s) :
    Kept K (elementOut s g m j n size) := by
  unfold elementOut
  try dsimp only
  repeat' (with_reducible first | assumption | apply kept_jobNext | apply kept_slotFree | intro _ | apply Kept.getD | apply Kept.ite | apply Kept.itePair | split)

theorem kept_peerAsk {K : State} (s : State) (g m : Nat) (j : MovJob) (index rpage va size : Nat) (cur : Bool) (out : Option (List Byte)) (hs : Kept K s) :
    Kept K (peerAsk s g m j index rpage va size cur out) := by
  unfold peerAsk
  try dsimp only
  repeat' (with_reducible first | assumption | apply kept_elementFault | apply kept_putJobs | apply kept_sendRead | apply kept_sendWrite | intro _ | apply Kept.getD | split)

theorem kept_fetchPhys {K : State} (s0 : State) (p g m : Nat) (j : MovJob) (n va pa : Nat) (hs0 : Kept K s0) :
    Kept K (fetchPhys s0 p g m j n va pa) := by
  unfold fetchPhys
  try dsimp only
  repeat' (with_reducible first | assumption | apply kept_elementFault | apply kept_elementIn | apply kept_countElement | apply kept_healRange | split)

theorem kept_fetchPeer {K : State} (s s0 : State) (g m : Nat) (j : MovJob) (n va index rpage : Nat) (cur : Bool) (hs : Kept K s) (hs0 : Kept K s0) :
    Kept K (fetchPeer s s0 g m j n va index rpage cur) := by
  unfold fetchPeer
  try dsimp only
  repeat' (with_reducible first | assumption | apply kept_elementIn | apply kept_countElement | apply kept_elementFault | apply kept_peerAsk | split)

theorem kept_voidFar {K : State} (s : State) (g : Nat) (place : Except AccErr Place) (hs : Kept K s) :
    Kept K (voidFar s g place) := by
  unfold voidFar
  try dsimp only
  repeat' (with_reducible first | assumption | apply kept_voidPart | apply Kept.ite | apply Kept.itePair | split)

theorem kept_elementFetch {K : State} (s : State) (g m : Nat) (j : MovJob) (n : Nat) (hs : Kept K s) :
    Kept K (elementFetch s g m j n) := by
  unfold elementFetch
  try dsimp only
  repeat' (with_reducible first | assumption | apply kept_putJobs | apply kept_elementIn | apply kept_countElement | apply kept_elementFault | apply kept_voidFar | apply kept_fetchPeer | apply kept_fetchPhys | intro _ | apply Kept.getD | apply Kept.ite | apply Kept.itePair | split)

theorem kept_storePhys {K : State} (s1 : State) (p g m : Nat) (j : MovJob) (n va pa : Nat) (bs : List Byte) (hs1 : Kept K s1) :
    Kept K (storePhys s1 p g m j n va pa bs) := by
  unfold storePhys
  try dsimp only
  repeat' (with_reducible first | assumption | apply kept_elementFault | apply kept_store | apply kept_elementOut | apply kept_capture | apply kept_countElement | refine Kept.fst ?_ ‹_› | split)

theorem kept_storePeer {K : State} (s s1 : State) (g m : Nat) (j : MovJob) (n va index rpage : Nat) (cur : Bool) (bs : List Byte) (hs : Kept K s) (hs1 : Kept K s1) :
    Kept K (storePeer s s1 g m j n va index rpage cur bs) := by
  unfold storePeer
  try dsimp only
  repeat' (with_reducible first | assumption | apply kept_elementOut | apply kept_capture | apply kept_countElement | apply kept_elementFault | apply kept_peerAsk | split)

theorem kept_elementStore {K : State} (s : State) (g m : Nat) (j : MovJob) (n : Nat) (hs : Kept K s) :
    Kept K (elementStore s g m j n) := by
  unfold elementStore
  try dsimp only
  repeat' (with_reducible first | assumption | apply kept_putJobs | apply kept_voidFar | apply kept_elementOut | apply kept_countElement | apply kept_elementFault | apply kept_storePeer | apply kept_healRange | apply kept_storePhys | intro _ | apply Kept.getD | apply Kept.ite | apply Kept.itePair | split)

theorem kept_badElement {K : State} (s : State) (g m : Nat) (j : MovJob) (n : Nat) (hs : Kept K s) :
    Kept K (badElement s g m j n) := by
  unfold badElement
  try dsimp only
  repeat' (with_reducible first | assumption | apply kept_putJobs | apply kept_elementFault | intro _ | apply Kept.getD | apply Kept.ite | apply Kept.itePair | split)

theorem kept_moverElement {K : State} (s : State) (g m : Nat) (fails : Bool) (hs : Kept K s) :
    Kept K (moverElement s g m fails) := by
  unfold moverElement
  try dsimp only
  repeat' (with_reducible first | assumption | apply kept_badElement | apply kept_elementFetch | apply kept_elementStore | apply kept_abortJob | refine kept_slotTake _ _ _ _ ?_ | refine kept_slotConsume _ _ _ ?_ | refine Kept.opair ?_ ‹_› | intro _ | apply Kept.ite | apply Kept.itePair | split)

theorem kept_moverResume {K : State} (s : State) (g m : Nat) (hs : Kept K s) :
    Kept K (moverResume s g m) := by
  unfold moverResume
  try dsimp only
  repeat' (with_reducible first | assumption | apply kept_wr | apply kept_putJobs | split)

theorem kept_moverAbort {K : State} (s : State) (g m : Nat) (hs : Kept K s) :
    Kept K (moverAbort s g m) := by
  unfold moverAbort
  try dsimp only
  repeat' (with_reducible first | assumption | apply kept_abortJob | split)

theorem kept_rotateDone {K : State} (s : State) (g : Nat) (c : Begun) (hs : Kept K s) :
    Kept K (rotateDone s g c) := by
  unfold rotateDone
  try dsimp only
  repeat' (with_reducible first | assumption | apply kept_begunPut | apply kept_endBegun | apply Kept.ite | apply Kept.itePair | split)

theorem kept_hopRefused {K : State} (s : State) (g next : Nat) (c : Begun) (hs : Kept K s) :
    Kept K (hopRefused s g next c) := by
  unfold hopRefused
  try dsimp only
  repeat' (with_reducible first | assumption | apply kept_abandon | apply kept_recordErr)

theorem kept_hopOnce {K : State} (s : State) (g : Nat) (c : Begun) (d : List Byte) (hs : Kept K s) :
    Kept K (hopOnce s g c d) := by
  unfold hopOnce
  try dsimp only
  repeat' (with_reducible first | assumption | apply kept_hopRefused | apply kept_beginRun | refine kept_loadHeal _ _ _ ?_ | apply kept_abandon | apply kept_recordBad | refine kept_slotTake _ _ _ _ ?_ | apply kept_store | apply kept_slotSlab | apply kept_slotFull | apply kept_tally | apply kept_rotateDone | refine Kept.fst ?_ ‹_› | refine Kept.opair ?_ ‹_› | refine Kept.epair ?_ ‹_› | intro _ | apply Kept.ite | apply Kept.itePair | split)

theorem kept_hopGallery {K : State} (s : State) (g : Nat) (hs : Kept K s) :
    Kept K (hopGallery s g) := by
  unfold hopGallery
  try dsimp only
  repeat' (with_reducible first | assumption | apply kept_abandon | apply kept_hopOnce | apply Kept.ite | apply Kept.itePair | split)

theorem kept_breakRings {K : State} (s : State) (g : Nat) (hs : Kept K s) :
    Kept K (breakRings s g) := by
  unfold breakRings
  try dsimp only
  repeat' (with_reducible first | assumption | apply kept_raise | apply kept_abandon | apply kept_foldl | apply kept_foldlPair | intro _ | apply Kept.ite | apply Kept.itePair | split)

theorem kept_execMoverElement {K : State} (g : Fin 256) (run : MovRun) (s : State) (hs : Kept K s) :
    ∀ z, execMoverElement g run s = .next z → Kept K z := by
  intro z ht
  unfold execMoverElement at ht
  try dsimp only at ht
  repeat' (first | contradiction | (injection ht with ht; subst ht) | split at ht)
  all_goals (try dsimp only)
  all_goals (repeat' (with_reducible first | assumption | apply kept_alive | apply kept_moverElement | intro _))

theorem kept_execHop {K : State} (g : Fin 256) (s : State) (hs : Kept K s) :
    ∀ z, execHop g s = .next z → Kept K z := by
  intro z ht
  unfold execHop at ht
  try dsimp only at ht
  repeat' (first | contradiction | (injection ht with ht; subst ht) | split at ht)
  all_goals (try dsimp only)
  all_goals (repeat' (with_reducible first | assumption | apply kept_alive | apply kept_hopGallery | intro _))

end Sys2Proof.Machine
end

