-- ==== Sys2Proof/Laws/KeptEngines.lean ====
section
/-! SUPPORT. What each operation keeps (Sys2Proof.Machine.Kept): the array and its bays, the vector unit, the census and the commit. -/

namespace Sys2Proof.Machine

/-- The state a group leaves, whether the update goes on, waits or stops there. -/
def outState (o : GroupOut) : State := match o with | .more s => s | .wait s => s | .dead s => s

theorem Kept.outMore {k t : State} {o : GroupOut} (h : Kept k (outState o)) (e : o = .more t) : Kept k t := by subst e; exact h
theorem Kept.outWait {k t : State} {o : GroupOut} (h : Kept k (outState o)) (e : o = .wait t) : Kept k t := by subst e; exact h
theorem Kept.outDead {k t : State} {o : GroupOut} (h : Kept k (outState o)) (e : o = .dead t) : Kept k t := by subst e; exact h
theorem Kept.ofMore {k t : State} (h : Kept k t) : Kept k (outState (.more t)) := h
theorem Kept.ofWait {k t : State} (h : Kept k t) : Kept k (outState (.wait t)) := h
theorem Kept.ofDead {k t : State} (h : Kept k t) : Kept k (outState (.dead t)) := h
theorem Kept.iteOut {k : State} {c : Prop} [Decidable c] {a b : GroupOut} (ha : Kept k (outState a)) (hb : Kept k (outState b)) :
    Kept k (outState (if c then a else b)) := by split <;> assumption

theorem Kept.fetched {k t : State} {o : Fetched} {bs : List Byte} (h : ∀ z b, o = .got z b → Kept k z) (e : o = .got t bs) : Kept k t :=
  h t bs e

theorem kept_censusUpdate {K : State} (s : State) (g index step size : Nat) (f : List Byte → List Byte) (hs : Kept K s) :
    Kept K (censusUpdate s g index step size f).1 := by
  unfold censusUpdate
  try dsimp only
  repeat' (with_reducible first | assumption | apply kept_tally | apply kept_raise | apply kept_recordErr | apply kept_vstore | refine Kept.fst ?_ ‹_› | intro _ | apply Kept.getD | apply Kept.ite | apply Kept.itePair | split)

theorem kept_addCounts {K : State} (s : State) (g index step : Nat) (c : Counts) (hs : Kept K s) :
    Kept K (addCounts s g index step c).1 := by
  unfold addCounts
  try dsimp only
  repeat' (with_reducible first | assumption | apply kept_censusUpdate | refine Kept.fst ?_ ‹_› | apply Kept.ite | apply Kept.itePair | split)

theorem kept_bayPut {K : State} (s : State) (g b : Nat) (x : Bay) (hs : Kept K s) :
    Kept K (bayPut s g b x) := by
  unfold bayPut
  try dsimp only
  repeat' (with_reducible first | assumption | (intro hx; simp only [GalShaped, setAt, List.length_set, List.length_map] at hx ⊢; exact hx) | exact fun _ => galShaped_idle _ | apply kept_galPut)

theorem kept_showBays {K : State} (s : State) (g b : Nat) (hs : Kept K s) :
    Kept K (showBays s g b) := by
  unfold showBays
  try dsimp only
  repeat' (with_reducible first | assumption | apply kept_wr | apply kept_foldl | apply kept_foldlPair | intro _ | apply Kept.ite | apply Kept.itePair | split)

theorem kept_slotCodes {K : State} (s : State) (pg c n : Nat) (hs : Kept K s) :
    ∀ z, slotCodes s pg c n = .ok z → Kept K z.1 := by
  intro z ht
  unfold slotCodes at ht
  try dsimp only at ht
  repeat' (first | contradiction | (injection ht with ht; subst ht) | split at ht)
  all_goals (try dsimp only)
  all_goals (repeat' (with_reducible first | assumption | refine kept_loadHeal _ _ _ ?_ | refine Kept.epair ?_ ‹_› | intro _ | apply Kept.getD | split))

theorem kept_takeOperands {K : State} (s : State) (g : Nat) (bays : List Nat) (c fuel want : Nat) (buf : List Nat) (hs : Kept K s) :
    Kept K (takeOperands s g bays c fuel want buf).1 := by
  induction fuel generalizing s g bays c want buf with
  | zero =>
    unfold takeOperands
    try dsimp only
    all_goals (repeat' (with_reducible first | assumption | refine kept_slotCodes _ _ _ _ ?_ | apply kept_slotRelease | refine Kept.epair ?_ ‹_› | intro _ | apply Kept.ite | apply Kept.itePair | split))
  | succ n ih =>
    unfold takeOperands
    try dsimp only
    repeat' (with_reducible first | assumption | apply ih | refine kept_slotCodes _ _ _ _ ?_ | apply kept_slotRelease | refine Kept.epair ?_ ‹_› | intro _ | apply Kept.ite | apply Kept.itePair | split)

theorem kept_absorb {K : State} (s : State) (g b : Nat) (c : Begun) (hs : Kept K s) :
    Kept K (absorb s g b c).1 := by
  unfold absorb
  try dsimp only
  repeat' (with_reducible first | assumption | apply kept_takeOperands | apply kept_begunPut | refine Kept.fst ?_ ‹_› | apply Kept.ite | apply Kept.itePair | split)

theorem kept_giveDescs {K : State} (s : State) (g m : Nat) (c : Begun) (vas : List Nat) (hs : Kept K s) :
    Kept K (giveDescs s g m c vas) := by
  unfold giveDescs
  try dsimp only
  repeat' (with_reducible first | assumption | apply kept_giveJob | apply kept_foldl | apply kept_foldlPair | intro _ | split)

theorem kept_giveOperands {K : State} (s : State) (g : Nat) (c : Begun) (hs : Kept K s) :
    Kept K (giveOperands s g c) := by
  unfold giveOperands
  try dsimp only
  repeat' (with_reducible first | assumption | apply kept_giveJob | apply kept_abandon | apply kept_recordAccess | intro _ | apply Kept.getD | apply Kept.ite | apply Kept.itePair | split)

theorem kept_giveTransfers {K : State} (s : State) (g : Nat) (c : Begun) (hs : Kept K s) :
    Kept K (giveTransfers s g c) := by
  unfold giveTransfers
  try dsimp only
  repeat' (with_reducible first | assumption | apply kept_giveDescs | apply kept_giveOperands | apply Kept.ite | apply Kept.itePair | split)

theorem kept_putPlaces {K : State} (s : State) (addr : Nat → Nat) (vs : List (Nat × Nat)) (hs : Kept K s) :
    Kept K (putPlaces s addr vs) := by
  unfold putPlaces
  try dsimp only
  repeat' (with_reducible first | assumption | apply kept_store | apply kept_foldl | apply kept_foldlPair | refine Kept.fst ?_ ‹_› | intro _ | split)

theorem kept_getPlaces {K : State} (s : State) (addr : Nat → Nat) (xs : List Nat) (hs : Kept K s) :
    ∀ z, getPlaces s addr xs = .ok z → Kept K z.1 := by
  induction xs generalizing s with
  | nil => intro z h; simp only [getPlaces, Except.ok.injEq] at h; subst h; exact hs
  | cons x r ih =>
    intro z h
    unfold getPlaces at h
    split at h
    · cases h
    · next s1 b h1 =>
      split at h
      · cases h
      · next s2 l h2 =>
        simp only [Except.ok.injEq] at h
        subst h
        exact ih s1 (Kept.epair (kept_loadHeal _ _ _ hs) h1) (s2, l) h2

theorem kept_restoreTile {K : State} (s : State) (g : Nat) (c : Begun) (hs : Kept K s) :
    Kept K (restoreTile s g c) := by
  unfold restoreTile
  try dsimp only
  repeat' (with_reducible first | assumption | apply kept_putPlaces | apply kept_cadPut | apply kept_foldl | apply kept_foldlPair | intro _ | apply Kept.ite | apply Kept.itePair | split)

theorem kept_dropResident {K : State} (s : State) (g : Nat) (bays : List Nat) (c fuel want : Nat) (hs : Kept K s) :
    Kept K (dropResident s g bays c fuel want) := by
  induction fuel generalizing s g bays c want with
  | zero =>
    unfold dropResident
    try dsimp only
    all_goals (repeat' (with_reducible first | assumption | apply kept_slotRelease | intro _ | apply Kept.getD | apply Kept.ite | apply Kept.itePair | split))
  | succ n ih =>
    unfold dropResident
    try dsimp only
    repeat' (with_reducible first | assumption | apply ih | apply kept_slotRelease | intro _ | apply Kept.getD | apply Kept.ite | apply Kept.itePair | split)

theorem kept_takeBack {K : State} (s : State) (g : Nat) (c : Begun) (hs : Kept K s) :
    Kept K (takeBack s g c) := by
  unfold takeBack
  try dsimp only
  repeat' (with_reducible first | assumption | apply kept_restoreTile | apply kept_dropJobs | apply kept_releaseSlots | apply kept_dropResident | apply kept_begunPut | apply Kept.ite | apply Kept.itePair | split)

theorem kept_bayRecord {K : State} (s : State) (g b cause : Nat) (f : FaultAt) (hs : Kept K s) :
    Kept K (bayRecord s g b cause f) := by
  unfold bayRecord
  try dsimp only
  repeat' (with_reducible first | assumption | apply kept_regPut | apply kept_recordErr | apply kept_bayPut | apply kept_wr | intro _ | apply Kept.getD | apply Kept.ite | apply Kept.itePair | split)

theorem kept_bayFault {K : State} (s : State) (g b cause : Nat) (f : FaultAt) (tag : Nat) (keep : Option (Nat × Nat)) (hs : Kept K s) :
    Kept K (bayFault s g b cause f tag keep) := by
  unfold bayFault
  try dsimp only
  repeat' (with_reducible first | assumption | apply kept_bayRecord | apply kept_bayPut | apply kept_tally | apply kept_voidPart | apply kept_raise | apply kept_wr | apply kept_regPut | apply kept_takeBack | apply kept_qauxPut | apply kept_foldl | apply kept_foldlPair | intro _ | apply Kept.ite | apply Kept.itePair | split)

theorem kept_operandFault {K : State} (s : State) (g b : Nat) (c : Begun) (p : Plan) (e : Nat × Nat × Bool) (hs : Kept K s) :
    Kept K (operandFault s g b c p e) := by
  unfold operandFault
  try dsimp only
  repeat' (with_reducible first | assumption | apply kept_bayFault | apply Kept.ite | apply Kept.itePair | split)

theorem kept_residueFault {K : State} (s : State) (g b : Nat) (ps : Pass) (row : Option (Fin 4096)) (column : Fin 1024) (hs : Kept K s) :
    Kept K (residueFault s g b ps row column) := by
  unfold residueFault
  try dsimp only
  repeat' (with_reducible first | assumption | apply kept_bayFault | apply Kept.ite | apply Kept.itePair | split)

theorem kept_bayDrained {K : State} (s : State) (g b : Nat) (hs : Kept K s) :
    Kept K (bayDrained s g b) := by
  unfold bayDrained
  try dsimp only
  repeat' (with_reducible first | assumption | apply kept_raise | apply kept_bayPut | apply Kept.ite | apply Kept.itePair | split)

theorem kept_settleCmd {K : State} (s : State) (g : Nat) (causes : List (Nat × Nat)) (c : Begun) (hs : Kept K s) :
    Kept K (settleCmd s g causes c) := by
  unfold settleCmd
  try dsimp only
  repeat' (with_reducible first | assumption | apply kept_begunPut | apply kept_giveTransfers | apply kept_tally | apply kept_rewindWatches | apply kept_releaseSlots | apply kept_dropJobs | apply Kept.ite | apply Kept.itePair | split)

theorem kept_clearBays {K : State} (s : State) (g mask : Nat) (hs : Kept K s) :
    Kept K (clearBays s g mask) := by
  unfold clearBays
  try dsimp only
  repeat' (with_reducible first | assumption | apply kept_regPut | apply kept_wr | apply kept_settleCmd | apply kept_bayPut | apply kept_qauxPut | apply kept_foldl | apply kept_foldlPair | intro _ | apply Kept.ite | apply Kept.itePair | split)

theorem kept_execBayDrained {K : State} (g : Fin 256) (b : Fin 4) (s : State) (hs : Kept K s) :
    ∀ z, execBayDrained g b s = .next z → Kept K z := by
  intro z ht
  unfold execBayDrained at ht
  try dsimp only at ht
  repeat' (first | contradiction | (injection ht with ht; subst ht) | split at ht)
  all_goals (try dsimp only)
  all_goals (repeat' (with_reducible first | assumption | apply kept_alive | apply kept_bayDrained | intro _))

theorem kept_takeAcc {K : State} (s : State) (g : Nat) (c : Begun) (p : Plan) (t : Nat) (hs : Kept K s) :
    ∀ z, takeAcc s g c p t = some z → Kept K z.1 := by
  unfold takeAcc
  extract_lets pg n0 n x cont all old reopen grab taken
  intro z ht
  have h0 : ∀ o, taken = some o → Kept K o.1 := by
    simp only [taken]
    split
    · intro o h; injection h with h; subst h; exact kept_cadPut _ _ _ _ hs
    · split
      · intro o h; injection h with h; subst h; exact hs
      · suffices ∀ (l : List Nat) (u : Option (State × List Nat)), (∀ o, u = some o → Kept K o.1) →
            ∀ o, l.foldl grab u = some o → Kept K o.1 from
          this _ _ (fun o h => by injection h with h; subst h; exact hs)
        intro l
        induction l with
        | nil => intro u hu; exact hu
        | cons e r ih =>
          intro u hu
          refine ih _ ?_
          intro o h
          cases u with
          | none => cases h
          | some w =>
            obtain ⟨v, l1⟩ := w
            have hv : Kept K v := hu _ rfl
            simp only [grab] at h
            split at h
            · cases h
            · next v1 i h1 =>
              have h2 := Kept.opair (kept_slotTake _ _ _ _ hv) h1
              injection h with h
              subst h
              exact Kept.ite h2 (kept_zeroFill _ _ _ h2)
  generalize taken = tk at h0 ht
  split at ht
  · cases ht
  · next s1 l =>
    extract_lets at ht
    injection ht with ht
    subst ht
    exact kept_begunPut _ _ _ (h0 _ rfl)

theorem kept_setUpPass {K : State} (s : State) (g b : Nat) (c : Begun) (p : Plan) (hs : Kept K s) :
    Kept K (setUpPass s g b c p) := by
  unfold setUpPass
  extract_lets sb tx
  split
  · exact hs
  · next s1 c1 h1 =>
    have h : Kept K s1 := by
      split at h1
      · exact Kept.opair (kept_takeAcc _ _ _ _ _ hs) h1
      · injection h1 with h1
        injection h1 with h1 h2
        subst h1
        exact hs
    extract_lets s0 s2
    have h0 : Kept K s0 := Kept.ite (kept_beginRun _ _ _ _ _ h) h
    exact kept_showBays _ _ _ (kept_bayPut _ _ _ _ (kept_begunPut _ _ _ h0))

theorem kept_reloadStart {K : State} (s : State) (g b : Nat) (hs : Kept K s) :
    Kept K (reloadStart s g b) := by
  unfold reloadStart
  try dsimp only
  repeat' (with_reducible first | assumption | apply kept_bayFault | apply kept_begunPut | apply kept_setUpPass | apply Kept.ite | apply Kept.itePair | split)

theorem kept_putRow {K : State} (s : State) (g b parity row : Nat) (w : WRow) (hs : Kept K s) :
    Kept K (putRow s g b parity row w) := by
  unfold putRow
  try dsimp only
  repeat' (with_reducible first | assumption | apply kept_bayPut | apply kept_foldl | apply kept_foldlPair | intro _ | split)

theorem kept_loadRow {K : State} (s : State) (g b : Nat) (ps : Pass) (p : Plan) (c : Begun) (row : Nat) (hs : Kept K s) :
    Kept K (loadRow s g b ps p c row) := by
  unfold loadRow
  try dsimp only
  repeat' (with_reducible first | assumption | apply kept_bayFault | apply kept_putRow | apply kept_begunPut | apply kept_showBays | apply kept_bayPut | split)

theorem kept_rowLoad {K : State} (s : State) (g b row : Nat) (hs : Kept K s) :
    Kept K (rowLoad s g b row) := by
  unfold rowLoad
  try dsimp only
  repeat' (with_reducible first | assumption | apply kept_absorb | apply kept_operandFault | apply kept_loadRow | refine Kept.fst ?_ ‹_› | apply Kept.ite | apply Kept.itePair | split)

theorem kept_rowEnters {K : State} (s : State) (g b row : Nat) (hs : Kept K s) :
    Kept K (rowEnters s g b row) := by
  unfold rowEnters
  try dsimp only
  repeat' (with_reducible first | assumption | apply kept_showBays | apply kept_bayPut | apply Kept.ite | apply Kept.itePair | split)

theorem kept_elementEmit {K : State} (s : State) (g b : Nat) (check : Residue) (hs : Kept K s) :
    Kept K (elementEmit s g b check) := by
  unfold elementEmit
  try dsimp only
  repeat' (with_reducible first | assumption | apply kept_residueFault | apply kept_absorb | apply kept_operandFault | apply kept_tally | apply kept_showBays | apply kept_bayPut | refine Kept.fst ?_ ‹_› | apply Kept.ite | apply Kept.itePair | split)

theorem kept_drainPass {K : State} (s : State) (g sb : Nat) (p : Plan) (c : Begun) (ps : Pass) (t x : Nat) (hs : Kept K s) :
    ∀ z, drainPass s g sb p c ps t x = .ok z → Kept K z.1 := by
  intro z ht
  unfold drainPass at ht
  try dsimp only at ht
  repeat' (first | contradiction | (injection ht with ht; subst ht) | split at ht)
  all_goals (try dsimp only)
  all_goals (repeat' (with_reducible first | assumption | refine kept_getPlaces _ _ _ ?_ | apply kept_putPlaces | refine Kept.epair ?_ ‹_› | intro _ | apply Kept.ite | apply Kept.itePair | split))

theorem kept_keepNarrow {K : State} (s : State) (g : Nat) (c : Begun) (p : Plan) (t : Nat) (hs : Kept K s) :
    ∀ z, keepNarrow s g c p t = .ok z → Kept K z.1 := by
  intro z ht
  unfold keepNarrow at ht
  try dsimp only at ht
  repeat' (first | contradiction | (injection ht with ht; subst ht) | split at ht)
  all_goals (try dsimp only)
  all_goals (repeat' (with_reducible first | assumption | refine kept_getPlaces _ _ _ ?_ | apply kept_foldl | apply kept_foldlPair | refine Kept.epair ?_ ‹_› | intro _ | apply Kept.ite | apply Kept.itePair | split))

theorem kept_deliverTile {K : State} (s : State) (g : Nat) (c : Begun) (p : Plan) (t : Nat) (hs : Kept K s) :
    Kept K (deliverTile s g c p t) := by
  unfold deliverTile
  try dsimp only
  repeat' (with_reducible first | assumption | apply kept_slotFull | apply kept_foldl | apply kept_foldlPair | intro _ | apply Kept.ite | apply Kept.itePair | split)

theorem kept_arrayDone {K : State} (s : State) (g : Nat) (c : Begun) (hs : Kept K s) :
    Kept K (arrayDone s g c) := by
  unfold arrayDone
  try dsimp only
  repeat' (with_reducible first | assumption | apply kept_endBegun | apply kept_deliverTile | apply kept_foldl | apply kept_foldlPair | intro _ | apply Kept.ite | apply Kept.itePair | split)

theorem kept_accFault {K : State} (s : State) (g sb : Nat) (c : Begun) (p : Plan) (ps : Pass) (t x : Nat) (e : Nat × Nat) (hs : Kept K s) :
    Kept K (accFault s g sb c p ps t x e) := by
  unfold accFault
  try dsimp only
  repeat' (with_reducible first | assumption | apply kept_bayFault | apply Kept.ite | apply Kept.itePair | split)

theorem kept_passOver {K : State} (s : State) (g b : Nat) (c : Begun) (p : Plan) (t : Nat) (last : Bool) (hs : Kept K s) :
    Kept K (passOver s g b c p t last) := by
  unfold passOver
  try dsimp only
  repeat' (with_reducible first | assumption | apply kept_begunPut | apply kept_tally | apply kept_showBays | apply kept_bayPut | apply kept_deliverTile | apply kept_arrayDone | apply Kept.ite | apply Kept.itePair | split)

theorem kept_passDrained {K : State} (s : State) (g b : Nat) (check : Residue) (hs : Kept K s) :
    Kept K (passDrained s g b check) := by
  unfold passDrained
  extract_lets sb x
  split
  · split
    · exact kept_residueFault _ _ _ _ _ _ hs
    · exact hs
  · exact hs
  · split
    · exact kept_bayPut _ _ _ _ hs
    · extract_lets p tx
      split
      · exact hs
      · split
        · exact kept_residueFault _ _ _ _ _ _ hs
        · split
          · exact kept_accFault _ _ _ _ _ _ _ _ _ hs
          · next s1 c1 h1 =>
            have h := Kept.epair (kept_drainPass _ _ _ _ _ _ _ _ hs) h1
            split
            · exact kept_accFault _ _ _ _ _ _ _ _ _ h
            · next s2 c2 h2 =>
              refine kept_passOver _ _ _ _ _ _ _ ?_
              split at h2
              · exact Kept.epair (kept_keepNarrow _ _ _ _ _ h) h2
              · injection h2 with h2
                injection h2 with h2 h3
                subst h2
                exact h

theorem kept_dropLoads {K : State} (s : State) (g : Nat) (hs : Kept K s) :
    Kept K (dropLoads s g) := by
  unfold dropLoads
  try dsimp only
  repeat' (with_reducible first | assumption | apply kept_begunPut | apply kept_showBays | apply kept_bayPut | apply kept_foldl | apply kept_foldlPair | intro _ | split)

theorem kept_shadowRecompute {K : State} (s : State) (g q : Nat) (run : ShadowRun) (hs : Kept K s) :
    Kept K (shadowRecompute s g q run) := by
  unfold shadowRecompute
  try dsimp only
  repeat' (with_reducible first | assumption | apply kept_residueFault | apply kept_tally | apply kept_arrayDone | apply kept_begunPut | apply Kept.ite | apply Kept.itePair | split)

theorem kept_startArray {K : State} (s : State) (g q index : Nat) (b : List Byte) (hs : Kept K s) :
    Kept K (startArray s g q index b) := by
  unfold startArray
  try dsimp only
  repeat' (with_reducible first | assumption | apply kept_giveOperands | apply kept_addBegun)

theorem kept_arrayCensus {K : State} (s : State) (g : Nat) (c : Begun) (hs : Kept K s) :
    Kept K (arrayCensus s g c).1 := by
  unfold arrayCensus
  try dsimp only
  repeat' (with_reducible first | assumption | apply kept_addCounts | apply kept_censusUpdate | refine Kept.fst ?_ ‹_› | apply Kept.ite | apply Kept.itePair | split)

theorem kept_execReloadStart {K : State} (g : Fin 256) (b : Fin 4) (s : State) (hs : Kept K s) :
    ∀ z, execReloadStart g b s = .next z → Kept K z := by
  intro z ht
  unfold execReloadStart at ht
  try dsimp only at ht
  repeat' (first | contradiction | (injection ht with ht; subst ht) | split at ht)
  all_goals (try dsimp only)
  all_goals (repeat' (with_reducible first | assumption | apply kept_alive | apply kept_reloadStart | intro _))

theorem kept_execRowLoadComplete {K : State} (g : Fin 256) (b : Fin 4) (row : Fin 4096) (s : State) (hs : Kept K s) :
    ∀ z, execRowLoadComplete g b row s = .next z → Kept K z := by
  intro z ht
  unfold execRowLoadComplete at ht
  try dsimp only at ht
  repeat' (first | contradiction | (injection ht with ht; subst ht) | split at ht)
  all_goals (try dsimp only)
  all_goals (repeat' (with_reducible first | assumption | apply kept_alive | apply kept_rowLoad | intro _))

theorem kept_execRowEntersPass {K : State} (g : Fin 256) (b : Fin 4) (row : Fin 4096) (s : State) (hs : Kept K s) :
    ∀ z, execRowEntersPass g b row s = .next z → Kept K z := by
  intro z ht
  unfold execRowEntersPass at ht
  try dsimp only at ht
  repeat' (first | contradiction | (injection ht with ht; subst ht) | split at ht)
  all_goals (try dsimp only)
  all_goals (repeat' (with_reducible first | assumption | apply kept_alive | apply kept_rowEnters | intro _))

theorem kept_execElementEmit {K : State} (g : Fin 256) (b : Fin 4) (check : Residue) (s : State) (hs : Kept K s) :
    ∀ z, execElementEmit g b check s = .next z → Kept K z := by
  intro z ht
  unfold execElementEmit at ht
  try dsimp only at ht
  repeat' (first | contradiction | (injection ht with ht; subst ht) | split at ht)
  all_goals (try dsimp only)
  all_goals (repeat' (with_reducible first | assumption | apply kept_alive | apply kept_elementEmit | intro _))

theorem kept_execPassDrained {K : State} (g : Fin 256) (b : Fin 4) (check : Residue) (s : State) (hs : Kept K s) :
    ∀ z, execPassDrained g b check s = .next z → Kept K z := by
  intro z ht
  unfold execPassDrained at ht
  try dsimp only at ht
  repeat' (first | contradiction | (injection ht with ht; subst ht) | split at ht)
  all_goals (try dsimp only)
  all_goals (repeat' (with_reducible first | assumption | apply kept_alive | apply kept_passDrained | intro _))

theorem kept_execShadowRecompute {K : State} (g : Fin 256) (q : Fin 4) (run : ShadowRun) (s : State) (hs : Kept K s) :
    ∀ z, execShadowRecompute g q run s = .next z → Kept K z := by
  intro z ht
  unfold execShadowRecompute at ht
  try dsimp only at ht
  repeat' (first | contradiction | (injection ht with ht; subst ht) | split at ht)
  all_goals (try dsimp only)
  all_goals (repeat' (with_reducible first | assumption | apply kept_alive | apply kept_shadowRecompute | intro _))

theorem kept_execArray {K : State} (g : Fin 256) (q : Fin 4) (s : State) (hs : Kept K s) :
    ∀ z, execArray g q s = .next z → Kept K z := by
  intro z ht
  unfold execArray at ht
  try dsimp only at ht
  repeat' (first | contradiction | (injection ht with ht; subst ht) | split at ht)
  all_goals (try dsimp only)
  all_goals (repeat' (with_reducible first | assumption | apply kept_alive | apply kept_acceptRow | apply kept_startArray | intro _))

theorem kept_startVector {K : State} (s : State) (g q index : Nat) (b : List Byte) (hs : Kept K s) :
    Kept K (startVector s g q index b) := by
  unfold startVector
  try dsimp only
  repeat' (with_reducible first | assumption | apply kept_addBegun)

theorem kept_vectorBegins {K : State} (s : State) (g : Nat) (c : Begun) (hs : Kept K s) :
    Kept K (vectorBegins s g c).1 := by
  unfold vectorBegins
  try dsimp only
  repeat' (with_reducible first | assumption | apply kept_begunPut | apply kept_tally | apply kept_beginRun | apply Kept.ite | apply Kept.itePair | split)

theorem kept_takeElements {K : State} (s : State) (pg c f : Nat) (keep : Bool) (fuel want : Nat) (buf : List Nat) (kept : List (Nat × Nat)) (hs : Kept K s) :
    Kept K (takeElements s pg c f keep fuel want buf kept).state := by
  induction fuel generalizing s pg c f keep want buf kept with
  | zero =>
    unfold takeElements
    try dsimp only
    all_goals (repeat' (with_reducible first | assumption | refine kept_slotConsume _ _ _ ?_ | refine kept_loadHeal _ _ _ ?_ | apply kept_slotFree | refine Kept.opair ?_ ‹_› | refine Kept.epair ?_ ‹_› | intro _ | apply Kept.getD | apply Kept.ite | apply Kept.itePair | split))
  | succ n ih =>
    unfold takeElements
    try dsimp only
    repeat' (with_reducible first | assumption | apply ih | refine kept_slotConsume _ _ _ ?_ | refine kept_loadHeal _ _ _ ?_ | apply kept_slotFree | refine Kept.opair ?_ ‹_› | refine Kept.epair ?_ ‹_› | intro _ | apply Kept.getD | apply Kept.ite | apply Kept.itePair | split)

theorem kept_freeKept {K : State} (s : State) (pg : Nat) (kept : List (Nat × Nat)) (hs : Kept K s) :
    Kept K (freeKept s pg kept) := by
  unfold freeKept
  try dsimp only
  repeat' (with_reducible first | assumption | apply kept_slotFree | apply kept_foldl | apply kept_foldlPair | intro _ | split)

theorem kept_fillInput {K : State} (s : State) (g : Nat) (b : List Byte) (i : Nat) (buf : List Nat) (kept : List (Nat × Nat)) (hs : Kept K s) :
    Kept K (fillInput s g b i buf kept).state := by
  unfold fillInput
  try dsimp only
  repeat' (with_reducible first | assumption | refine kept_loadHeal _ _ _ ?_ | apply kept_takeElements | refine Kept.epair ?_ ‹_› | intro _ | apply Kept.ite | apply Kept.itePair | split)

theorem kept_fillInputs {K : State} (s : State) (g : Nat) (c : Begun) (is : List Nat) (hs : Kept K s) :
    Kept K (fillInputs s g c is).1 := by
  induction is generalizing s g c with
  | nil =>
    unfold fillInputs
    try dsimp only
    all_goals (repeat' (with_reducible first | assumption | apply kept_fillInput | split))
  | cons e r ih =>
    unfold fillInputs
    try dsimp only
    repeat' (with_reducible first | assumption | apply ih | apply kept_fillInput | split)

theorem kept_giveElements {K : State} (s : State) (pg c size fuel : Nat) (owner : Nat × Nat) (out : List Nat) (hs : Kept K s) :
    Kept K (giveElements s pg c size fuel owner out).1 := by
  induction fuel generalizing s pg c size owner out with
  | zero =>
    unfold giveElements
    try dsimp only
    all_goals (repeat' (with_reducible first | assumption | refine kept_slotTake _ _ _ _ ?_ | apply kept_store | apply kept_slotFull | refine Kept.fst ?_ ‹_› | refine Kept.opair ?_ ‹_› | intro _ | apply Kept.ite | apply Kept.itePair | split))
  | succ n ih =>
    unfold giveElements
    try dsimp only
    repeat' (with_reducible first | assumption | apply ih | refine kept_slotTake _ _ _ _ ?_ | apply kept_store | apply kept_slotFull | refine Kept.fst ?_ ‹_› | refine Kept.opair ?_ ‹_› | intro _ | apply Kept.ite | apply Kept.itePair | split)

theorem kept_failData {K : State} (s : State) (g : Nat) (c : Begun) (a : Nat) (hs : Kept K s) :
    Kept K (failData s g c a) := by
  unfold failData
  try dsimp only
  repeat' (with_reducible first | assumption | apply kept_abandon | apply kept_freeKept | apply kept_recordBad)

theorem kept_countVector {K : State} (s : State) (pg : Nat) (b : List Byte) (n : Nat) (hs : Kept K s) :
    Kept K (countVector s pg b n) := by
  unfold countVector
  try dsimp only
  repeat' (with_reducible first | assumption | apply kept_tally | apply kept_foldl | apply kept_foldlPair | intro _ | apply Kept.ite | apply Kept.itePair | split)

theorem kept_runVector {K : State} (s0 : State) (g : Nat) (c0 : Begun) (fails : Option Nat) (hs0 : Kept K s0) :
    Kept K (runVector s0 g c0 fails) := by
  unfold runVector
  try dsimp only
  repeat' (with_reducible first | assumption | apply kept_vectorBegins | apply kept_fillInputs | apply kept_failData | apply kept_begunPut | apply kept_freeKept | apply kept_countVector | apply kept_store | apply kept_endBegun | apply kept_giveElements | refine Kept.fst ?_ ‹_› | apply Kept.ite | apply Kept.itePair | split)

theorem kept_vectorRow {K : State} (s : State) (g q : Nat) (codes : Nat → Bool) (hs : Kept K s) :
    ∀ z, vectorRow s g q codes = .next z → Kept K z := by
  intro z ht
  unfold vectorRow at ht
  try dsimp only at ht
  repeat' (first | contradiction | (injection ht with ht; subst ht) | split at ht)
  all_goals (try dsimp only)
  all_goals (repeat' (with_reducible first | assumption | apply kept_alive | apply kept_acceptRow | apply kept_startVector | intro _))

theorem kept_execFadd {K : State} (g : Fin 256) (q : Fin 4) (s : State) (hs : Kept K s) :
    ∀ z, execFadd g q s = .next z → Kept K z := by
  intro z ht
  unfold execFadd at ht
  refine kept_vectorRow _ _ _ _ ?_ z ht
  all_goals (repeat' (with_reducible first | assumption | refine kept_vectorRow _ _ _ _ ?_ | intro _))

theorem kept_execFsub {K : State} (g : Fin 256) (q : Fin 4) (s : State) (hs : Kept K s) :
    ∀ z, execFsub g q s = .next z → Kept K z := by
  intro z ht
  unfold execFsub at ht
  refine kept_vectorRow _ _ _ _ ?_ z ht
  all_goals (repeat' (with_reducible first | assumption | refine kept_vectorRow _ _ _ _ ?_ | intro _))

theorem kept_execFmul {K : State} (g : Fin 256) (q : Fin 4) (s : State) (hs : Kept K s) :
    ∀ z, execFmul g q s = .next z → Kept K z := by
  intro z ht
  unfold execFmul at ht
  refine kept_vectorRow _ _ _ _ ?_ z ht
  all_goals (repeat' (with_reducible first | assumption | refine kept_vectorRow _ _ _ _ ?_ | intro _))

theorem kept_execFfma {K : State} (g : Fin 256) (q : Fin 4) (s : State) (hs : Kept K s) :
    ∀ z, execFfma g q s = .next z → Kept K z := by
  intro z ht
  unfold execFfma at ht
  refine kept_vectorRow _ _ _ _ ?_ z ht
  all_goals (repeat' (with_reducible first | assumption | refine kept_vectorRow _ _ _ _ ?_ | intro _))

theorem kept_execFmax {K : State} (g : Fin 256) (q : Fin 4) (s : State) (hs : Kept K s) :
    ∀ z, execFmax g q s = .next z → Kept K z := by
  intro z ht
  unfold execFmax at ht
  refine kept_vectorRow _ _ _ _ ?_ z ht
  all_goals (repeat' (with_reducible first | assumption | refine kept_vectorRow _ _ _ _ ?_ | intro _))

theorem kept_execFmin {K : State} (g : Fin 256) (q : Fin 4) (s : State) (hs : Kept K s) :
    ∀ z, execFmin g q s = .next z → Kept K z := by
  intro z ht
  unfold execFmin at ht
  refine kept_vectorRow _ _ _ _ ?_ z ht
  all_goals (repeat' (with_reducible first | assumption | refine kept_vectorRow _ _ _ _ ?_ | intro _))

theorem kept_execCmpEq {K : State} (g : Fin 256) (q : Fin 4) (s : State) (hs : Kept K s) :
    ∀ z, execCmpEq g q s = .next z → Kept K z := by
  intro z ht
  unfold execCmpEq at ht
  refine kept_vectorRow _ _ _ _ ?_ z ht
  all_goals (repeat' (with_reducible first | assumption | refine kept_vectorRow _ _ _ _ ?_ | intro _))

theorem kept_execCmpLt {K : State} (g : Fin 256) (q : Fin 4) (s : State) (hs : Kept K s) :
    ∀ z, execCmpLt g q s = .next z → Kept K z := by
  intro z ht
  unfold execCmpLt at ht
  refine kept_vectorRow _ _ _ _ ?_ z ht
  all_goals (repeat' (with_reducible first | assumption | refine kept_vectorRow _ _ _ _ ?_ | intro _))

theorem kept_execCmpLe {K : State} (g : Fin 256) (q : Fin 4) (s : State) (hs : Kept K s) :
    ∀ z, execCmpLe g q s = .next z → Kept K z := by
  intro z ht
  unfold execCmpLe at ht
  refine kept_vectorRow _ _ _ _ ?_ z ht
  all_goals (repeat' (with_reducible first | assumption | refine kept_vectorRow _ _ _ _ ?_ | intro _))

theorem kept_execFsqrt {K : State} (g : Fin 256) (q : Fin 4) (s : State) (hs : Kept K s) :
    ∀ z, execFsqrt g q s = .next z → Kept K z := by
  intro z ht
  unfold execFsqrt at ht
  refine kept_vectorRow _ _ _ _ ?_ z ht
  all_goals (repeat' (with_reducible first | assumption | refine kept_vectorRow _ _ _ _ ?_ | intro _))

theorem kept_execVrecip {K : State} (g : Fin 256) (q : Fin 4) (s : State) (hs : Kept K s) :
    ∀ z, execVrecip g q s = .next z → Kept K z := by
  intro z ht
  unfold execVrecip at ht
  refine kept_vectorRow _ _ _ _ ?_ z ht
  all_goals (repeat' (with_reducible first | assumption | refine kept_vectorRow _ _ _ _ ?_ | intro _))

theorem kept_execVrsqrt {K : State} (g : Fin 256) (q : Fin 4) (s : State) (hs : Kept K s) :
    ∀ z, execVrsqrt g q s = .next z → Kept K z := by
  intro z ht
  unfold execVrsqrt at ht
  refine kept_vectorRow _ _ _ _ ?_ z ht
  all_goals (repeat' (with_reducible first | assumption | refine kept_vectorRow _ _ _ _ ?_ | intro _))

theorem kept_execVexp {K : State} (g : Fin 256) (q : Fin 4) (s : State) (hs : Kept K s) :
    ∀ z, execVexp g q s = .next z → Kept K z := by
  intro z ht
  unfold execVexp at ht
  refine kept_vectorRow _ _ _ _ ?_ z ht
  all_goals (repeat' (with_reducible first | assumption | refine kept_vectorRow _ _ _ _ ?_ | intro _))

theorem kept_execVlog {K : State} (g : Fin 256) (q : Fin 4) (s : State) (hs : Kept K s) :
    ∀ z, execVlog g q s = .next z → Kept K z := by
  intro z ht
  unfold execVlog at ht
  refine kept_vectorRow _ _ _ _ ?_ z ht
  all_goals (repeat' (with_reducible first | assumption | refine kept_vectorRow _ _ _ _ ?_ | intro _))

theorem kept_execScale {K : State} (g : Fin 256) (q : Fin 4) (s : State) (hs : Kept K s) :
    ∀ z, execScale g q s = .next z → Kept K z := by
  intro z ht
  unfold execScale at ht
  refine kept_vectorRow _ _ _ _ ?_ z ht
  all_goals (repeat' (with_reducible first | assumption | refine kept_vectorRow _ _ _ _ ?_ | intro _))

theorem kept_execCopy {K : State} (g : Fin 256) (q : Fin 4) (s : State) (hs : Kept K s) :
    ∀ z, execCopy g q s = .next z → Kept K z := by
  intro z ht
  unfold execCopy at ht
  refine kept_vectorRow _ _ _ _ ?_ z ht
  all_goals (repeat' (with_reducible first | assumption | refine kept_vectorRow _ _ _ _ ?_ | intro _))

theorem kept_execSumReduction {K : State} (g : Fin 256) (q : Fin 4) (s : State) (hs : Kept K s) :
    ∀ z, execSumReduction g q s = .next z → Kept K z := by
  intro z ht
  unfold execSumReduction at ht
  refine kept_vectorRow _ _ _ _ ?_ z ht
  all_goals (repeat' (with_reducible first | assumption | refine kept_vectorRow _ _ _ _ ?_ | intro _))

theorem kept_execMaxReduction {K : State} (g : Fin 256) (q : Fin 4) (s : State) (hs : Kept K s) :
    ∀ z, execMaxReduction g q s = .next z → Kept K z := by
  intro z ht
  unfold execMaxReduction at ht
  refine kept_vectorRow _ _ _ _ ?_ z ht
  all_goals (repeat' (with_reducible first | assumption | refine kept_vectorRow _ _ _ _ ?_ | intro _))

theorem kept_execRmsNorm {K : State} (g : Fin 256) (q : Fin 4) (s : State) (hs : Kept K s) :
    ∀ z, execRmsNorm g q s = .next z → Kept K z := by
  intro z ht
  unfold execRmsNorm at ht
  refine kept_vectorRow _ _ _ _ ?_ z ht
  all_goals (repeat' (with_reducible first | assumption | refine kept_vectorRow _ _ _ _ ?_ | intro _))

theorem kept_execLayerNorm {K : State} (g : Fin 256) (q : Fin 4) (s : State) (hs : Kept K s) :
    ∀ z, execLayerNorm g q s = .next z → Kept K z := by
  intro z ht
  unfold execLayerNorm at ht
  refine kept_vectorRow _ _ _ _ ?_ z ht
  all_goals (repeat' (with_reducible first | assumption | refine kept_vectorRow _ _ _ _ ?_ | intro _))

theorem kept_execDropout {K : State} (g : Fin 256) (q : Fin 4) (s : State) (hs : Kept K s) :
    ∀ z, execDropout g q s = .next z → Kept K z := by
  intro z ht
  unfold execDropout at ht
  refine kept_vectorRow _ _ _ _ ?_ z ht
  all_goals (repeat' (with_reducible first | assumption | refine kept_vectorRow _ _ _ _ ?_ | intro _))

theorem kept_execActivationFunction {K : State} (g : Fin 256) (q : Fin 4) (s : State) (hs : Kept K s) :
    ∀ z, execActivationFunction g q s = .next z → Kept K z := by
  intro z ht
  unfold execActivationFunction at ht
  refine kept_vectorRow _ _ _ _ ?_ z ht
  all_goals (repeat' (with_reducible first | assumption | refine kept_vectorRow _ _ _ _ ?_ | intro _))

theorem kept_giveStage {K : State} (s : State) (g : Nat) (c : Begun) (caddy size : Nat) (next : Begun) (left : List Nat → Begun) (out : List Nat) (hs : Kept K s) :
    Kept K (giveStage s g c caddy size next left out) := by
  unfold giveStage
  try dsimp only
  repeat' (with_reducible first | assumption | apply kept_giveElements | apply kept_begunPut | refine Kept.fst ?_ ‹_› | split)

theorem kept_takeAttn {K : State} (s : State) (g : Nat) (c : Begun) (i : Nat) (buf : List Nat) (hs : Kept K s) :
    Kept K (takeAttn s g c i buf).1 := by
  unfold takeAttn
  try dsimp only
  repeat' (with_reducible first | assumption | apply kept_takeOperands | refine Kept.fst ?_ ‹_› | split)

theorem kept_absorbAttn {K : State} (s : State) (g : Nat) (c : Begun) (hs : Kept K s) :
    Kept K (absorbAttn s g c).1 := by
  unfold absorbAttn
  try dsimp only
  repeat' (with_reducible first | assumption | apply kept_takeAttn | refine Kept.fst ?_ ‹_› | apply Kept.ite | apply Kept.itePair | split)

theorem kept_attnCompute {K : State} (s0 : State) (g : Nat) (c0 : Begun) (check : Residue) (fails : Option Nat) (hs0 : Kept K s0) :
    Kept K (attnCompute s0 g c0 check fails) := by
  unfold attnCompute
  try dsimp only
  repeat' (with_reducible first | assumption | apply kept_vectorBegins | apply kept_beginRun | apply kept_absorbAttn | apply kept_bayFault | apply kept_begunPut | apply kept_residueFault | apply kept_failData | refine Kept.fst ?_ ‹_› | apply Kept.ite | apply Kept.itePair | split)

theorem kept_runAttention {K : State} (s : State) (g : Nat) (c : Begun) (check : Residue) (fails : Option Nat) (hs : Kept K s) :
    Kept K (runAttention s g c check fails) := by
  unfold runAttention
  try dsimp only
  repeat' (with_reducible first | assumption | apply kept_attnCompute | apply kept_giveStage | apply kept_endBegun | apply Kept.ite | apply Kept.itePair | split)

theorem kept_startAttention {K : State} (s : State) (g q index : Nat) (b : List Byte) (hs : Kept K s) :
    Kept K (startAttention s g q index b) := by
  unfold startAttention
  try dsimp only
  repeat' (with_reducible first | assumption | apply kept_giveTransfers | apply kept_addBegun)

theorem kept_runSketch {K : State} (s0 : State) (g : Nat) (c0 : Begun) (fails : Option Nat) (hs0 : Kept K s0) :
    Kept K (runSketch s0 g c0 fails) := by
  unfold runSketch
  try dsimp only
  repeat' (with_reducible first | assumption | apply kept_vectorBegins | apply kept_takeElements | apply kept_failData | apply kept_begunPut | apply kept_giveStage | apply kept_endBegun | refine Kept.fst ?_ ‹_› | apply Kept.ite | apply Kept.itePair | split)

theorem kept_startSketch {K : State} (s : State) (g q index : Nat) (b : List Byte) (hs : Kept K s) :
    Kept K (startSketch s g q index b) := by
  unfold startSketch
  try dsimp only
  repeat' (with_reducible first | assumption | apply kept_giveDescs | apply kept_addBegun)

theorem kept_execAttention {K : State} (g : Fin 256) (q : Fin 4) (s : State) (hs : Kept K s) :
    ∀ z, execAttention g q s = .next z → Kept K z := by
  intro z ht
  unfold execAttention at ht
  try dsimp only at ht
  repeat' (first | contradiction | (injection ht with ht; subst ht) | split at ht)
  all_goals (try dsimp only)
  all_goals (repeat' (with_reducible first | assumption | apply kept_alive | apply kept_acceptRow | apply kept_startAttention | intro _))

theorem kept_execSketch {K : State} (g : Fin 256) (q : Fin 4) (s : State) (hs : Kept K s) :
    ∀ z, execSketch g q s = .next z → Kept K z := by
  intro z ht
  unfold execSketch at ht
  try dsimp only at ht
  repeat' (first | contradiction | (injection ht with ht; subst ht) | split at ht)
  all_goals (try dsimp only)
  all_goals (repeat' (with_reducible first | assumption | apply kept_alive | apply kept_acceptRow | apply kept_startSketch | intro _))

theorem kept_rewriteEntry {K : State} (s : State) (p g i : Nat) (f : List Byte → List Byte) (fails : Option Nat) (hs : Kept K s) :
    Kept K (rewriteEntry s p g i f fails).1 := by
  unfold rewriteEntry
  try dsimp only
  repeat' (with_reducible first | assumption | refine kept_vfetch _ _ _ _ ?_ | apply kept_vstore | refine Kept.fst ?_ ‹_› | refine Kept.epair ?_ ‹_› | intro _ | apply Kept.ite | apply Kept.itePair | split)

theorem kept_rewriteEntries {K : State} (s : State) (p g : Nat) (f : List Byte → List Byte) (fails : Option Nat) (is : List Nat) (hs : Kept K s) :
    Kept K (rewriteEntries s p g f fails is).1 := by
  induction is generalizing s p g f fails with
  | nil =>
    unfold rewriteEntries
    try dsimp only
    all_goals (repeat' (with_reducible first | assumption | apply kept_rewriteEntry | refine Kept.fst ?_ ‹_› | split))
  | cons e r ih =>
    unfold rewriteEntries
    try dsimp only
    repeat' (with_reducible first | assumption | apply ih | apply kept_rewriteEntry | refine Kept.fst ?_ ‹_› | split)

theorem kept_censusCommit {K : State} (s : State) (p g n : Nat) (fails : Option Nat) (hs : Kept K s) :
    Kept K (censusCommit s p g n fails).1 := by
  unfold censusCommit
  try dsimp only
  repeat' (with_reducible first | assumption | apply kept_rewriteEntries | refine Kept.fst ?_ ‹_› | apply Kept.ite | apply Kept.itePair | split)

theorem kept_skipEntry {K : State} (s : State) (p g n i : Nat) (hs : Kept K s) :
    Kept K (skipEntry s p g n i) := by
  unfold skipEntry
  try dsimp only
  repeat' (with_reducible first | assumption | apply kept_recordAccess | refine kept_vfetch _ _ _ _ ?_ | apply kept_vstore | apply kept_foldl | apply kept_foldlPair | refine Kept.fst ?_ ‹_› | refine Kept.epair ?_ ‹_› | intro _ | split)

theorem kept_censusSkip {K : State} (s : State) (p g n : Nat) (hs : Kept K s) :
    Kept K (censusSkip s p g n) := by
  unfold censusSkip
  try dsimp only
  repeat' (with_reducible first | assumption | apply kept_skipEntry | apply kept_foldl | apply kept_foldlPair | intro _ | apply Kept.ite | apply Kept.itePair | split)

theorem kept_appraiserLog {K : State} (s : State) (p g step layer pw outcome : Nat) (a : Appraisal) (hs : Kept K s) :
    Kept K (appraiserLog s p g step layer pw outcome a) := by
  unfold appraiserLog
  try dsimp only
  repeat' (with_reducible first | assumption | apply kept_wr | apply kept_vstore | apply kept_recordAccess | refine Kept.fst ?_ ‹_› | split)

theorem kept_propose {K : State} (s : State) (p g i step layer pw : Nat) (a : Appraisal) (hs : Kept K s) :
    Kept K (propose s p g i step layer pw a).1 := by
  unfold propose
  try dsimp only
  repeat' (with_reducible first | assumption | apply kept_recordAccess | apply kept_vstore | apply kept_appraiserLog | apply kept_tally | apply kept_raise | refine Kept.fst ?_ ‹_› | apply Kept.ite | apply Kept.itePair | split)

theorem kept_appraiseOne {K : State} (s : State) (p g step : Nat) (es : List (Nat × List Byte)) (edge : Nat × Nat) (fails : Option Nat) (i : Nat) (d : List Byte) (hs : Kept K s) :
    Kept K (appraiseOne s p g step es edge fails i d).1 := by
  unfold appraiseOne
  try dsimp only
  repeat' (with_reducible first | assumption | apply kept_propose | apply kept_vstore | refine Kept.fst ?_ ‹_› | apply Kept.ite | apply Kept.itePair | split)

theorem kept_appraiseAll {K : State} (s : State) (p g step : Nat) (es : List (Nat × List Byte)) (edge : Nat × Nat) (fails : Option Nat) (ds : List (Nat × List Byte)) (hs : Kept K s) :
    Kept K (appraiseAll s p g step es edge fails ds).1 := by
  induction ds generalizing s p g step es edge fails with
  | nil =>
    unfold appraiseAll
    try dsimp only
    all_goals (repeat' (with_reducible first | assumption | apply kept_appraiseOne | refine Kept.fst ?_ ‹_› | split))
  | cons e r ih =>
    unfold appraiseAll
    try dsimp only
    repeat' (with_reducible first | assumption | apply ih | apply kept_appraiseOne | refine Kept.fst ?_ ‹_› | split)

theorem kept_runAppraiser {K : State} (s : State) (p g n : Nat) (fails : Option Nat) (hs : Kept K s) :
    Kept K (runAppraiser s p g n fails).1 := by
  unfold runAppraiser
  try dsimp only
  repeat' (with_reducible first | assumption | apply kept_recordAccess | apply kept_appraiseAll | apply kept_foldl | apply kept_foldlPair | refine Kept.fst ?_ ‹_› | intro _ | apply Kept.ite | apply Kept.itePair | split)

theorem kept_startCommit {K : State} (s : State) (g q index : Nat) (b : List Byte) (hs : Kept K s) :
    Kept K (startCommit s g q index b) := by
  unfold startCommit
  try dsimp only
  repeat' (with_reducible first | assumption | apply kept_addBegun | split)

theorem kept_endCommits {K : State} (s : State) (p status g detail : Nat) (hs : Kept K s) :
    Kept K (endCommits s p status g detail) := by
  unfold endCommits
  try dsimp only
  repeat' (with_reducible first | assumption | apply kept_completeCmd | apply kept_foldl | apply kept_foldlPair | intro _ | apply Kept.ite | apply Kept.itePair | split)

theorem kept_stepRecord {K : State} (s : State) (p outcome : Nat) (hs : Kept K s) :
    Kept K (stepRecord s p outcome) := by
  unfold stepRecord
  try dsimp only
  repeat' (with_reducible first | assumption | apply kept_stpPut | apply kept_vstore | apply kept_recordAccess | refine Kept.fst ?_ ‹_› | intro _ | apply Kept.getD | apply Kept.ite | apply Kept.itePair | split)

theorem kept_commitFail {K : State} (s : State) (p g detail : Nat) (hs : Kept K s) :
    Kept K (commitFail s p g detail) := by
  unfold commitFail
  try dsimp only
  repeat' (with_reducible first | assumption | apply kept_stepRecord | apply kept_raise | apply kept_stpPut | apply kept_resCommitFailed | apply kept_endCommits)

theorem kept_commitFailAccess {K : State} (s : State) (p g va : Nat) (e : AccErr) (hs : Kept K s) :
    Kept K (commitFailAccess s p g va e) := by
  unfold commitFailAccess
  try dsimp only
  repeat' (with_reducible first | assumption | apply kept_commitFail | apply kept_recordAccess)

theorem kept_fetchPieces {K : State} (s : State) (p : Nat) (got : List (Nat × List Byte)) (ps : List (Nat × Nat)) (hs : Kept K s) :
    ∀ z bs, fetchPieces s p got ps = .got z bs → Kept K z := by
  induction ps generalizing s with
  | nil => intro z bs h; simp only [fetchPieces, Fetched.got.injEq] at h; rw [← h.1]; exact hs
  | cons a r ih =>
    intro z bs h
    have hrest : ∀ (s1 : State) (b : List Byte), Kept K s1 → ∀ z bs,
        (match fetchPieces s1 p got r with | .got s2 cs => Fetched.got s2 (b ++ cs) | x => x) = .got z bs → Kept K z := by
      intro s1 b h1 z bs h
      split at h
      · next s2 cs e => injection h with h; subst h; exact ih s1 h1 _ _ e
      · exact ih s1 h1 _ _ h
    obtain ⟨va, n⟩ := a
    unfold fetchPieces at h
    extract_lets rest at h
    split at h
    · cases h
    · split at h
      · exact hrest _ _ hs _ _ h
      · cases h
    · extract_lets a at h
      split at h
      · cases h
      · split at h
        · cases h
        · cases h
        · next e => exact hrest _ _ (Kept.epair (kept_loadHeal _ _ _ hs) e) _ _ h

theorem kept_fetchArrays {K : State} (s : State) (p first n : Nat) (got : List (Nat × List Byte)) (as : List (Nat × Nat)) (hs : Kept K s) :
    ∀ z bs, fetchArrays s p first n got as = .got z bs → Kept K z := by
  intro z bs ht
  unfold fetchArrays at ht
  try dsimp only at ht
  repeat' (first | contradiction | (injection ht with ht; subst ht) | split at ht)
  all_goals (try dsimp only)
  all_goals (repeat' (with_reducible first | assumption | refine Kept.fetched ?_ ‹_› | refine kept_fetchPieces _ _ _ _ ?_ | intro _ | split))

theorem kept_commitFault {K : State} (s : State) (p g m va : Nat) (e : AccErr) (hs : Kept K s) :
    Kept K (commitFault s p g m va e) := by
  unfold commitFault
  try dsimp only
  repeat' (with_reducible first | assumption | apply kept_recordErr | apply kept_putFault | apply kept_commitFail | apply kept_tally | apply kept_wr | apply kept_raiseZero | apply kept_raise | apply kept_commitFailAccess | apply Kept.ite | apply Kept.itePair | split)

theorem kept_putRun {K : State} (s : State) (p : Nat) (r : CommitRun) (hs : Kept K s) :
    Kept K (putRun s p r) := by
  unfold putRun
  try dsimp only
  repeat' (with_reducible first | assumption | apply kept_stpPut)

theorem kept_updRun {K : State} (s : State) (p : Nat) (f : CommitRun → CommitRun) (hs : Kept K s) :
    Kept K (updRun s p f) := by
  unfold updRun
  try dsimp only
  repeat' (with_reducible first | assumption | apply kept_putRun | split)

theorem kept_updCur {K : State} (s : State) (p k : Nat) (f : CommitCur → CommitCur) (hs : Kept K s) :
    Kept K (updCur s p k f) := by
  unfold updCur
  try dsimp only
  repeat' (with_reducible first | assumption | apply kept_updRun)

theorem kept_noteLanes {K : State} (s : State) (p g : Nat) (fs : List LaneFault) (hs : Kept K s) :
    Kept K (noteLanes s p g fs) := by
  unfold noteLanes
  try dsimp only
  repeat' (with_reducible first | assumption | apply kept_tally | apply kept_raise | apply kept_updRun | apply kept_foldl | apply kept_foldlPair | intro _ | apply Kept.ite | apply Kept.itePair | split)

theorem kept_markWritten {K : State} (s : State) (p : Nat) (rs : List (Nat × Nat)) (hs : Kept K s) :
    Kept K (markWritten s p rs) := by
  unfold markWritten
  try dsimp only
  repeat' (with_reducible first | assumption | apply kept_partPut | apply kept_foldl | apply kept_foldlPair | intro _ | split)

theorem kept_stopped {K : State} (s : State) (p : Nat) (hs : Kept K s) :
    Kept K (outState (stopped s p)) := by
  unfold stopped
  try dsimp only
  repeat' (with_reducible first | assumption | apply Kept.ofMore | apply Kept.ofWait | apply Kept.ofDead | refine Kept.outMore ?_ ‹_› | refine Kept.outWait ?_ ‹_› | refine Kept.outDead ?_ ‹_› | apply Kept.ite | apply Kept.itePair | apply Kept.iteOut | split)

theorem kept_commitAsk {K : State} (s : State) (p k g m va n index rpage : Nat) (cur : Bool) (out : Option (List Byte)) (hs : Kept K s) :
    Kept K (outState (commitAsk s p k g m va n index rpage cur out)) := by
  unfold commitAsk
  try dsimp only
  repeat' (with_reducible first | assumption | apply kept_stopped | apply kept_commitFault | apply kept_updCur | apply kept_sendRead | apply kept_sendWrite | apply Kept.ofMore | apply Kept.ofWait | apply Kept.ofDead | refine Kept.outMore ?_ ‹_› | refine Kept.outWait ?_ ‹_› | refine Kept.outDead ?_ ‹_› | split)

theorem kept_wordWritten {K : State} (s : State) (p g : Nat) (w : CommitWord) (hs : Kept K s) :
    Kept K (wordWritten s p g w) := by
  unfold wordWritten
  try dsimp only
  repeat' (with_reducible first | assumption | apply kept_markWritten | apply kept_tally | apply kept_updRun | apply Kept.ite | apply Kept.itePair | split)

theorem kept_storeWords {K : State} (s : State) (p k g : Nat) (ws : List CommitWord) (hs : Kept K s) :
    Kept K (outState (storeWords s p k g ws)) := by
  induction ws generalizing s p k g with
  | nil =>
    unfold storeWords
    try dsimp only
    all_goals (repeat' (with_reducible first | assumption | apply kept_updCur | apply kept_stopped | apply kept_commitFault | apply kept_commitAsk | apply kept_vstore | apply kept_wordWritten | refine Kept.fst ?_ ‹_› | apply Kept.ofMore | apply Kept.ofWait | apply Kept.ofDead | refine Kept.outMore ?_ ‹_› | refine Kept.outWait ?_ ‹_› | refine Kept.outDead ?_ ‹_› | apply Kept.ite | apply Kept.itePair | apply Kept.iteOut | split))
  | cons e r ih =>
    unfold storeWords
    try dsimp only
    repeat' (with_reducible first | assumption | apply ih | apply kept_updCur | apply kept_stopped | apply kept_commitFault | apply kept_commitAsk | apply kept_vstore | apply kept_wordWritten | refine Kept.fst ?_ ‹_› | apply Kept.ofMore | apply Kept.ofWait | apply Kept.ofDead | refine Kept.outMore ?_ ‹_› | refine Kept.outWait ?_ ‹_› | refine Kept.outDead ?_ ‹_› | apply Kept.ite | apply Kept.itePair | apply Kept.iteOut | split)

theorem kept_noteHeld {K : State} (s : State) (p g held : Nat) (hs : Kept K s) :
    Kept K (noteHeld s p g held) := by
  unfold noteHeld
  try dsimp only
  repeat' (with_reducible first | assumption | apply kept_tally | apply kept_updRun | apply kept_raise | apply Kept.ite | apply Kept.itePair | split)

theorem kept_computeGroup {K : State} (s : State) (p k g : Nat) (c : Begun) (r : CommitRun) (di n : Nat) (lanes : List LaneFault) (bs : List Byte) (hs : Kept K s) :
    Kept K (outState (computeGroup s p k g c r di n lanes bs)) := by
  unfold computeGroup
  try dsimp only
  repeat' (with_reducible first | assumption | apply kept_noteLanes | apply kept_commitFail | apply kept_recordErr | apply kept_storeWords | apply kept_noteHeld | apply Kept.ofMore | apply Kept.ofWait | apply Kept.ofDead | refine Kept.outMore ?_ ‹_› | refine Kept.outWait ?_ ‹_› | refine Kept.outDead ?_ ‹_› | split)

theorem kept_commitGroup {K : State} (s : State) (p k g : Nat) (c : Begun) (r : CommitRun) (lanes : List LaneFault) (hs : Kept K s) :
    Kept K (outState (commitGroup s p k g c r lanes)) := by
  unfold commitGroup
  try dsimp only
  repeat' (with_reducible first | assumption | apply kept_storeWords | refine Kept.fetched ?_ ‹_› | refine kept_fetchArrays _ _ _ _ _ _ ?_ | apply kept_stopped | apply kept_commitFault | apply kept_commitAsk | apply kept_computeGroup | apply Kept.ofMore | apply Kept.ofWait | apply Kept.ofDead | refine Kept.outMore ?_ ‹_› | refine Kept.outWait ?_ ‹_› | refine Kept.outDead ?_ ‹_› | intro _ | split)

theorem kept_commitAnswer {K : State} (s : State) (p k g : Nat) (cur : CommitCur) (hs : Kept K s) :
    Kept K (outState (commitAnswer s p k g cur)) := by
  unfold commitAnswer
  try dsimp only
  repeat' (with_reducible first | assumption | apply kept_updCur | apply kept_stopped | apply kept_commitFault | apply kept_wordWritten | apply Kept.ofMore | apply Kept.ofWait | apply Kept.ofDead | refine Kept.outMore ?_ ‹_› | refine Kept.outWait ?_ ‹_› | refine Kept.outDead ?_ ‹_› | split)

theorem kept_commitShards {K : State} (s : State) (p k g : Nat) (c : Begun) (fuel : Nat) (lanes : List LaneFault) (hs : Kept K s) :
    Kept K (outState (commitShards s p k g c fuel lanes)) := by
  induction fuel generalizing s p k g c lanes with
  | zero =>
    unfold commitShards
    try dsimp only
    all_goals (repeat' (with_reducible first | assumption | apply kept_updCur | apply kept_commitGroup | apply Kept.ofMore | apply Kept.ofWait | apply Kept.ofDead | refine Kept.outMore ?_ ‹_› | refine Kept.outWait ?_ ‹_› | refine Kept.outDead ?_ ‹_› | apply Kept.ite | apply Kept.itePair | apply Kept.iteOut | split))
  | succ n ih =>
    unfold commitShards
    try dsimp only
    repeat' (with_reducible first | assumption | apply ih | apply kept_updCur | apply kept_commitGroup | apply Kept.ofMore | apply Kept.ofWait | apply Kept.ofDead | refine Kept.outMore ?_ ‹_› | refine Kept.outWait ?_ ‹_› | refine Kept.outDead ?_ ‹_› | apply Kept.ite | apply Kept.itePair | apply Kept.iteOut | split)

theorem kept_commitAll {K : State} (s : State) (p : Nat) (cs : List (Nat × Begun)) (k : Nat) (lanes : List LaneFault) (hs : Kept K s) :
    Kept K (commitAll s p cs k lanes) := by
  induction cs generalizing s p k lanes with
  | nil =>
    unfold commitAll
    try dsimp only
    all_goals (repeat' (with_reducible first | assumption | apply kept_updRun | apply kept_commitAnswer | apply kept_commitShards | apply Kept.ofMore | apply Kept.ofWait | apply Kept.ofDead | refine Kept.outMore ?_ ‹_› | refine Kept.outWait ?_ ‹_› | refine Kept.outDead ?_ ‹_› | apply Kept.ite | apply Kept.itePair | split))
  | cons e r ih =>
    unfold commitAll
    try dsimp only
    repeat' (with_reducible first | assumption | apply ih | apply kept_updRun | apply kept_commitAnswer | apply kept_commitShards | apply Kept.ofMore | apply Kept.ofWait | apply Kept.ofDead | refine Kept.outMore ?_ ‹_› | refine Kept.outWait ?_ ‹_› | refine Kept.outDead ?_ ‹_› | apply Kept.ite | apply Kept.itePair | split)

theorem kept_compareFails {K : State} (s : State) (p g : Nat) (hs : Kept K s) :
    Kept K (compareFails s p g) := by
  unfold compareFails
  try dsimp only
  repeat' (with_reducible first | assumption | apply kept_commitFail | apply kept_recordErr)

theorem kept_commitBegin {K : State} (s : State) (p : Nat) (work : CommitWork) (hs : Kept K s) :
    Kept K (commitBegin s p work) := by
  unfold commitBegin
  try dsimp only
  repeat' (with_reducible first | assumption | apply kept_commitAll | apply kept_compareFails | apply kept_putRun | refine kept_vfetch _ _ _ _ ?_ | apply kept_commitFault | refine Kept.epair ?_ ‹_› | intro _ | apply Kept.ite | apply Kept.itePair | split)

theorem kept_stepBoundary {K : State} (s : State) (p : Nat) (fails : Option Nat) (counter : Bool) (hs : Kept K s) :
    Kept K (stepBoundary s p fails counter) := by
  unfold stepBoundary
  try dsimp only
  repeat' (with_reducible first | assumption | apply kept_censusCommit | apply kept_commitFailAccess | apply kept_runAppraiser | apply kept_compareFails | apply kept_raise | apply kept_stepRecord | apply kept_endCommits | apply kept_stpPut | apply kept_stepStart | apply kept_afterCommit | refine Kept.fst ?_ ‹_› | apply Kept.ite | apply Kept.itePair | split)

theorem kept_skipQueues {K : State} (s : State) (p n : Nat) (hs : Kept K s) :
    Kept K (skipQueues s p n) := by
  unfold skipQueues
  try dsimp only
  repeat' (with_reducible first | assumption | apply kept_cancelFrom | apply kept_foldl | apply kept_foldlPair | intro _ | apply Kept.ite | apply Kept.itePair | split)

theorem kept_skipStep {K : State} (s : State) (p : Nat) (hs : Kept K s) :
    Kept K (skipStep s p) := by
  unfold skipStep
  try dsimp only
  repeat' (with_reducible first | assumption | apply kept_censusSkip | apply kept_stpPut | apply kept_stepRecord | apply kept_raise | apply kept_stepStart | apply kept_skipQueues | apply kept_endCommits | split)

theorem kept_stepClose {K : State} (s : State) (p : Nat) (hs : Kept K s) :
    Kept K (stepClose s p) := by
  unfold stepClose
  try dsimp only
  repeat' (with_reducible first | assumption | apply kept_stpPut | apply kept_wr | apply kept_foldl | apply kept_foldlPair | intro _ | apply Kept.ite | apply Kept.itePair | split)

theorem kept_execStepClose {K : State} (p : Fin 64) (s : State) (hs : Kept K s) :
    ∀ z, execStepClose p s = .next z → Kept K z := by
  intro z ht
  unfold execStepClose at ht
  try dsimp only at ht
  repeat' (first | contradiction | (injection ht with ht; subst ht) | split at ht)
  all_goals (try dsimp only)
  all_goals (repeat' (with_reducible first | assumption | apply kept_alive | apply kept_stepClose | intro _))

theorem kept_execCommit {K : State} (g : Fin 256) (q : Fin 4) (s : State) (hs : Kept K s) :
    ∀ z, execCommit g q s = .next z → Kept K z := by
  intro z ht
  unfold execCommit at ht
  try dsimp only at ht
  repeat' (first | contradiction | (injection ht with ht; subst ht) | split at ht)
  all_goals (try dsimp only)
  all_goals (repeat' (with_reducible first | assumption | apply kept_alive | apply kept_acceptRow | apply kept_startCommit | intro _))

theorem kept_execCommitBegin {K : State} (p : Fin 64) (work : CommitWork) (s : State) (hs : Kept K s) :
    ∀ z, execCommitBegin p work s = .next z → Kept K z := by
  intro z ht
  unfold execCommitBegin at ht
  try dsimp only at ht
  repeat' (first | contradiction | (injection ht with ht; subst ht) | split at ht)
  all_goals (try dsimp only)
  all_goals (repeat' (with_reducible first | assumption | apply kept_alive | apply kept_commitBegin | intro _))

theorem kept_execStepBoundary {K : State} (run : BoundaryRun) (s : State) (hs : Kept K s) :
    ∀ z, execStepBoundary run s = .next z → Kept K z := by
  intro z ht
  unfold execStepBoundary at ht
  try dsimp only at ht
  repeat' (first | contradiction | (injection ht with ht; subst ht) | split at ht)
  all_goals (try dsimp only)
  all_goals (repeat' (with_reducible first | assumption | apply kept_alive | apply kept_stepBoundary | intro _))

end Sys2Proof.Machine
end

