-- ==== Sys2Proof/Laws/KeptModule.lean ====
section
/-! SUPPORT. What each operation keeps (Sys2Proof.Machine.Kept): power, resets, partitions, sessions, multicast, ports, boot and the collective engine. -/

namespace Sys2Proof.Machine

theorem kept_putPower {K : State} (s : State) (p : Power) (hs : Kept K s) :
    Kept K (putPower s p) := by
  unfold putPower
  try dsimp only
  repeat' (with_reducible first | assumption | ((conv => pattern (State.mk ..)); first | apply Kept.upd))

theorem kept_setCause {K : State} (s : State) (kind rail : Nat) (hs : Kept K s) :
    Kept K (setCause s kind rail) := by
  unfold setCause
  try dsimp only
  repeat' (with_reducible first | assumption | apply kept_wr)

theorem kept_tryReleaseP {K : State} (s : State) (hs : Kept K s) :
    Kept K (tryReleaseP s) := by
  unfold tryReleaseP
  try dsimp only
  repeat' (with_reducible first | assumption | apply kept_setCause | apply kept_putPower | apply Kept.ite | apply Kept.itePair | split)

theorem kept_railsOff {K : State} (s : State) (ph : PwrPhase) (hs : Kept K s) :
    Kept K (railsOff s ph) := by
  unfold railsOff
  try dsimp only
  repeat' (with_reducible first | assumption | apply kept_putPower)

theorem kept_pwrRise {K : State} (s : State) (hs : Kept K s) :
    Kept K (pwrRise s) := by
  unfold pwrRise
  try dsimp only
  repeat' (with_reducible first | assumption | apply kept_moduleReset | apply kept_putPower | apply Kept.ite | apply Kept.itePair | split)

theorem kept_railGood {K : State} (s : State) (r : Rail) (hs : Kept K s) :
    Kept K (railGood s r) := by
  unfold railGood
  try dsimp only
  repeat' (with_reducible first | assumption | apply kept_tryReleaseP | apply kept_putPower | apply Kept.ite | apply Kept.itePair | split)

theorem kept_pwrFall {K : State} (s : State) (hs : Kept K s) :
    Kept K (pwrFall s) := by
  unfold pwrFall
  try dsimp only
  repeat' (with_reducible first | assumption | apply kept_ringsDrop | apply kept_railsOff | apply kept_putPower | apply Kept.ite | apply Kept.itePair | split)

theorem kept_vinLost {K : State} (s : State) (hs : Kept K s) :
    Kept K (vinLost s) := by
  unfold vinLost
  try dsimp only
  repeat' (with_reducible first | assumption | apply kept_ringsDrop | apply kept_setCause | apply kept_putPower | apply Kept.ite | apply Kept.itePair | split)

theorem kept_vinBack {K : State} (s : State) (hs : Kept K s) :
    Kept K (vinBack s) := by
  unfold vinBack
  try dsimp only
  repeat' (with_reducible first | assumption | apply kept_putPower | apply Kept.ite | apply Kept.itePair | split)

theorem kept_mStart {K : State} (s : State) (kind rail : Nat) (hs : Kept K s) :
    Kept K (mStart s kind rail) := by
  unfold mStart
  try dsimp only
  repeat' (with_reducible first | assumption | apply kept_putPower | apply kept_moduleReset | apply kept_setCause | apply Kept.ite | apply Kept.itePair | split)

theorem kept_resetLow {K : State} (s : State) (lowNs : Nat) (hs : Kept K s) :
    Kept K (resetLow s lowNs) := by
  unfold resetLow
  try dsimp only
  repeat' (with_reducible first | assumption | apply kept_nextFree | apply kept_mStart | apply kept_putPower | refine Kept.fst ?_ ‹_› | apply Kept.ite | apply Kept.itePair | split)

theorem kept_resetHigh {K : State} (s : State) (hs : Kept K s) :
    Kept K (resetHigh s) := by
  unfold resetHigh
  try dsimp only
  repeat' (with_reducible first | assumption | apply kept_tryReleaseP | apply kept_putPower)

theorem kept_mRelease {K : State} (s : State) (hs : Kept K s) :
    Kept K (mRelease s) := by
  unfold mRelease
  try dsimp only
  repeat' (with_reducible first | assumption | apply kept_putPower | apply Kept.ite | apply Kept.itePair | split)

theorem kept_railOut {K : State} (s : State) (r : Rail) (hs : Kept K s) :
    Kept K (railOut s r) := by
  unfold railOut
  try dsimp only
  repeat' (with_reducible first | assumption | apply kept_alive | apply kept_ringsDrop | apply kept_linkDrop | apply kept_setAlert | apply kept_mStart | apply kept_foldl | apply kept_foldlPair | intro _ | split)

theorem kept_stageFault {K : State} (s : State) (r : Rail) (hs : Kept K s) :
    Kept K (stageFault s r) := by
  unfold stageFault
  try dsimp only
  repeat' (with_reducible first | assumption | apply kept_railsOff | apply kept_ringsDrop | apply kept_setCause | apply kept_putPower | apply Kept.ite | apply Kept.itePair | split)

theorem kept_thermTrip {K : State} (s : State) (hs : Kept K s) :
    Kept K (thermTrip s) := by
  unfold thermTrip
  try dsimp only
  repeat' (with_reducible first | assumption | apply kept_railsOff | apply kept_ringsDrop | apply kept_setCause | apply kept_putPower | apply Kept.ite | apply Kept.itePair | split)

theorem kept_voidDie {K : State} (s : State) (c : Nat) (hs : Kept K s) :
    Kept K (voidDie s c) := by
  unfold voidDie
  try dsimp only
  repeat' (with_reducible first | assumption | apply kept_voidFrames)

theorem kept_applyDuty {K : State} (s : State) (d : Nat) (hs : Kept K s) :
    Kept K (applyDuty s d) := by
  unfold applyDuty
  try dsimp only
  repeat' (with_reducible first | assumption | apply kept_wr | apply kept_voidDie | apply Kept.ite | apply Kept.itePair | split)

theorem kept_showMv {K : State} (s : State) (d mv : Nat) (hs : Kept K s) :
    Kept K (showMv s d mv) := by
  unfold showMv
  try dsimp only
  repeat' (with_reducible first | assumption | apply kept_wr)

theorem kept_warnIn {K : State} (s : State) (d mv : Nat) (hs : Kept K s) :
    Kept K (warnIn s d mv) := by
  unfold warnIn
  try dsimp only
  repeat' (with_reducible first | assumption | apply kept_bump | apply kept_wr | apply kept_showMv | apply kept_applyDuty | apply kept_voidDie | apply kept_setAlert | apply kept_tally | apply kept_raise | apply Kept.ite | apply Kept.itePair | split | ((conv => pattern (State.mk ..)); first | apply Kept.upd))

theorem kept_warnOut {K : State} (s : State) (d mv : Nat) (hs : Kept K s) :
    Kept K (warnOut s d mv) := by
  unfold warnOut
  try dsimp only
  repeat' (with_reducible first | assumption | apply kept_bump | apply kept_wr | apply kept_showMv | apply kept_applyDuty | apply kept_raise | apply Kept.ite | apply Kept.itePair | split | ((conv => pattern (State.mk ..)); first | apply Kept.upd))

theorem kept_thermalUpdate {K : State} (s : State) (d t : Nat) (hs : Kept K s) :
    Kept K (thermalUpdate s d t) := by
  unfold thermalUpdate
  try dsimp only
  repeat' (with_reducible first | assumption | apply kept_wr | apply kept_tally | apply kept_raise | apply kept_setAlert | apply kept_applyDuty | apply Kept.ite | apply Kept.itePair | split | ((conv => pattern (State.mk ..)); first | apply Kept.upd))

theorem kept_hbmThrottle {K : State} (s : State) (k t : Nat) (hs : Kept K s) :
    Kept K (hbmThrottle s k t) := by
  unfold hbmThrottle
  try dsimp only
  repeat' (with_reducible first | assumption | apply kept_wr | apply kept_voidFrames | apply kept_setAlert | apply kept_tally | apply kept_raise | apply kept_foldl | apply kept_foldlPair | intro _ | apply Kept.getD | split | ((conv => pattern (State.mk ..)); first | apply Kept.upd))

theorem kept_saveConfig {K : State} (s : State) (g : Nat) (hs : Kept K s) :
    Kept K (saveConfig s g) := by
  unfold saveConfig
  try dsimp only
  repeat' (with_reducible first | assumption | apply kept_partPut | apply Kept.ite | apply Kept.itePair | split)

theorem kept_endMailReset {K : State} (s : State) (hs : Kept K s) :
    Kept K (endMailReset s) := by
  unfold endMailReset
  try dsimp only
  repeat' (with_reducible first | assumption | apply kept_mailDone | apply kept_foldl | apply kept_foldlPair | intro _ | split)

theorem kept_resetDone {K : State} (s : State) (hs : Kept K s) :
    Kept K (resetDone s) := by
  unfold resetDone
  try dsimp only
  repeat' (with_reducible first | assumption | apply kept_journalClose | apply kept_wr | apply kept_endMailReset | apply kept_tally | apply kept_raise | ((conv => pattern (State.mk ..)); first | apply Kept.upd))

theorem kept_lReset {K : State} (s : State) (hs : Kept K s) :
    Kept K (lReset s) := by
  unfold lReset
  try dsimp only
  repeat' (with_reducible first | assumption | apply kept_linkDrop | apply kept_resetPage | apply kept_ringDrop | apply kept_resetDone | apply Kept.ite | apply Kept.itePair | split)

theorem kept_execPwrEnRise {K : State} (s : State) (hs : Kept K s) :
    ∀ z, execPwrEnRise s = .next z → Kept K z := by
  intro z ht
  unfold execPwrEnRise at ht
  try dsimp only at ht
  repeat' (first | contradiction | (injection ht with ht; subst ht) | split at ht)
  all_goals (try dsimp only)
  all_goals (repeat' (with_reducible first | assumption | apply kept_pwrRise))

theorem kept_execRailPowerGood {K : State} (rail : Rail) (s : State) (hs : Kept K s) :
    ∀ z, execRailPowerGood rail s = .next z → Kept K z := by
  intro z ht
  unfold execRailPowerGood at ht
  try dsimp only at ht
  repeat' (first | contradiction | (injection ht with ht; subst ht) | split at ht)
  all_goals (try dsimp only)
  all_goals (repeat' (with_reducible first | assumption | apply kept_railGood))

theorem kept_execPwrEnFall {K : State} (s : State) (hs : Kept K s) :
    ∀ z, execPwrEnFall s = .next z → Kept K z := by
  intro z ht
  unfold execPwrEnFall at ht
  try dsimp only at ht
  repeat' (first | contradiction | (injection ht with ht; subst ht) | split at ht)
  all_goals (try dsimp only)
  all_goals (repeat' (with_reducible first | assumption | apply kept_pwrFall))

theorem kept_execVinOutOfRange {K : State} (s : State) (hs : Kept K s) :
    ∀ z, execVinOutOfRange s = .next z → Kept K z := by
  intro z ht
  unfold execVinOutOfRange at ht
  try dsimp only at ht
  repeat' (first | contradiction | (injection ht with ht; subst ht) | split at ht)
  all_goals (try dsimp only)
  all_goals (repeat' (with_reducible first | assumption | apply kept_vinLost))

theorem kept_execVinInRange {K : State} (s : State) (hs : Kept K s) :
    ∀ z, execVinInRange s = .next z → Kept K z := by
  intro z ht
  unfold execVinInRange at ht
  try dsimp only at ht
  repeat' (first | contradiction | (injection ht with ht; subst ht) | split at ht)
  all_goals (try dsimp only)
  all_goals (repeat' (with_reducible first | assumption | apply kept_vinBack))

theorem kept_execRailFault {K : State} (rail : Rail) (s : State) (hs : Kept K s) :
    ∀ z, execRailFault rail s = .next z → Kept K z := by
  intro z ht
  unfold execRailFault at ht
  try dsimp only at ht
  repeat' (first | contradiction | (injection ht with ht; subst ht) | split at ht)
  all_goals (try dsimp only)
  all_goals (repeat' (with_reducible first | assumption | apply kept_railOut))

theorem kept_execPowerStageFault {K : State} (rail : Rail) (s : State) (hs : Kept K s) :
    ∀ z, execPowerStageFault rail s = .next z → Kept K z := by
  intro z ht
  unfold execPowerStageFault at ht
  try dsimp only at ht
  repeat' (first | contradiction | (injection ht with ht; subst ht) | split at ht)
  all_goals (try dsimp only)
  all_goals (repeat' (with_reducible first | assumption | apply kept_stageFault))

theorem kept_execRailWarningEntry {K : State} (die : Fin 10) (mv : BitVec 10) (s : State) (hs : Kept K s) :
    ∀ z, execRailWarningEntry die mv s = .next z → Kept K z := by
  intro z ht
  unfold execRailWarningEntry at ht
  try dsimp only at ht
  repeat' (first | contradiction | (injection ht with ht; subst ht) | split at ht)
  all_goals (try dsimp only)
  all_goals (repeat' (with_reducible first | assumption | apply kept_alive | apply kept_warnIn | intro _))

theorem kept_execRailWarningExit {K : State} (die : Fin 10) (mv : BitVec 10) (s : State) (hs : Kept K s) :
    ∀ z, execRailWarningExit die mv s = .next z → Kept K z := by
  intro z ht
  unfold execRailWarningExit at ht
  try dsimp only at ht
  repeat' (first | contradiction | (injection ht with ht; subst ht) | split at ht)
  all_goals (try dsimp only)
  all_goals (repeat' (with_reducible first | assumption | apply kept_alive | apply kept_warnOut | intro _))

theorem kept_execVcoreResetLevel {K : State} (die : Fin 10) (s : State) (hs : Kept K s) :
    ∀ z, execVcoreResetLevel die s = .next z → Kept K z := by
  intro z ht
  unfold execVcoreResetLevel at ht
  try dsimp only at ht
  repeat' (first | contradiction | (injection ht with ht; subst ht) | split at ht)
  all_goals (try dsimp only)
  all_goals (repeat' (with_reducible first | assumption | apply kept_mStart | apply Kept.ite | apply Kept.itePair | split))

theorem kept_execThermalDutyUpdate {K : State} (die : Fin 10) (temp : Byte) (s : State) (hs : Kept K s) :
    ∀ z, execThermalDutyUpdate die temp s = .next z → Kept K z := by
  intro z ht
  unfold execThermalDutyUpdate at ht
  try dsimp only at ht
  repeat' (first | contradiction | (injection ht with ht; subst ht) | split at ht)
  all_goals (try dsimp only)
  all_goals (repeat' (with_reducible first | assumption | apply kept_alive | apply kept_thermalUpdate | intro _))

theorem kept_execThermalTrip {K : State} (die : Fin 10) (s : State) (hs : Kept K s) :
    ∀ z, execThermalTrip die s = .next z → Kept K z := by
  intro z ht
  unfold execThermalTrip at ht
  try dsimp only at ht
  repeat' (first | contradiction | (injection ht with ht; subst ht) | split at ht)
  all_goals (try dsimp only)
  all_goals (repeat' (with_reducible first | assumption | apply kept_thermTrip | apply Kept.ite | apply Kept.itePair | split))

theorem kept_execHbmThermalThrottle {K : State} (stack : Nat) (temp : Byte) (s : State) (hs : Kept K s) :
    ∀ z, execHbmThermalThrottle stack temp s = .next z → Kept K z := by
  intro z ht
  unfold execHbmThermalThrottle at ht
  try dsimp only at ht
  repeat' (first | contradiction | (injection ht with ht; subst ht) | split at ht)
  all_goals (try dsimp only)
  all_goals (repeat' (with_reducible first | assumption | apply kept_alive | apply kept_hbmThrottle | intro _ | apply Kept.ite | apply Kept.itePair | split))

theorem kept_execResetNAssert {K : State} (lowNs : Nat) (s : State) (hs : Kept K s) :
    ∀ z, execResetNAssert lowNs s = .next z → Kept K z := by
  intro z ht
  unfold execResetNAssert at ht
  try dsimp only at ht
  repeat' (first | contradiction | (injection ht with ht; subst ht) | split at ht)
  all_goals (try dsimp only)
  all_goals (repeat' (with_reducible first | assumption | apply kept_resetLow))

theorem kept_execResetNDeassert {K : State} (s : State) (hs : Kept K s) :
    ∀ z, execResetNDeassert s = .next z → Kept K z := by
  intro z ht
  unfold execResetNDeassert at ht
  try dsimp only at ht
  repeat' (first | contradiction | (injection ht with ht; subst ht) | split at ht)
  all_goals (try dsimp only)
  all_goals (repeat' (with_reducible first | assumption | apply kept_resetHigh))

theorem kept_execMResetRelease {K : State} (s : State) (hs : Kept K s) :
    ∀ z, execMResetRelease s = .next z → Kept K z := by
  intro z ht
  unfold execMResetRelease at ht
  try dsimp only at ht
  repeat' (first | contradiction | (injection ht with ht; subst ht) | split at ht)
  all_goals (try dsimp only)
  all_goals (repeat' (with_reducible first | assumption | apply kept_mRelease))

theorem kept_execMRequest {K : State} (s : State) (hs : Kept K s) :
    ∀ z, execMRequest s = .next z → Kept K z := by
  intro z ht
  unfold execMRequest at ht
  try dsimp only at ht
  repeat' (first | contradiction | (injection ht with ht; subst ht) | split at ht)
  all_goals (try dsimp only)
  all_goals (repeat' (with_reducible first | assumption | apply kept_alive | apply kept_mStart | apply kept_wr | intro _ | apply Kept.ite | apply Kept.itePair | split))

theorem kept_execLRequest {K : State} (s : State) (hs : Kept K s) :
    ∀ z, execLRequest s = .next z → Kept K z := by
  intro z ht
  unfold execLRequest at ht
  try dsimp only at ht
  repeat' (first | contradiction | (injection ht with ht; subst ht) | split at ht)
  all_goals (try dsimp only)
  all_goals (repeat' (with_reducible first | assumption | apply kept_alive | apply kept_lReset | intro _ | apply Kept.ite | apply Kept.itePair | split))

theorem kept_execSelfRefreshEntry {K : State} (stack : Nat) (s : State) (hs : Kept K s) :
    ∀ z, execSelfRefreshEntry stack s = .next z → Kept K z := by
  intro z ht
  unfold execSelfRefreshEntry at ht
  try dsimp only at ht
  repeat' (first | contradiction | (injection ht with ht; subst ht) | split at ht)
  all_goals (try dsimp only)
  all_goals (repeat' (with_reducible first | assumption | apply kept_alive | apply kept_tally | intro _ | apply Kept.ite | apply Kept.itePair | split | ((conv => pattern (State.mk ..)); first | apply Kept.upd | apply Kept.regFilter | apply Kept.memFilter)))

theorem kept_enterLow {K : State} (s : State) (pg kind : Nat) (hs : Kept K s) :
    Kept K (enterLow s pg kind) := by
  unfold enterLow
  try dsimp only
  repeat' (with_reducible first | assumption | apply kept_wr | apply kept_foldl | apply kept_foldlPair | intro _ | split)

theorem kept_leaveLow {K : State} (s : State) (pg : Nat) (hs : Kept K s) :
    Kept K (leaveLow s pg) := by
  unfold leaveLow
  dsimp only
  apply kept_galPutFrom
  · intro w
    exact hs.shape w pg
  · exact kept_wr _ _ _ _ hs

theorem kept_holdAsleep {K : State} (s : State) (pg : Nat) (hs : Kept K s) :
    Kept K (holdAsleep s pg) := by
  unfold holdAsleep
  try dsimp only
  repeat' (with_reducible first | assumption | apply kept_enterLow | apply Kept.ite | apply Kept.itePair | split)

theorem kept_staleEvent {K : State} (s : State) (pg : Nat) (hs : Kept K s) :
    Kept K (staleEvent s pg) := by
  unfold staleEvent
  try dsimp only
  repeat' (with_reducible first | assumption | apply kept_raiseZero | apply Kept.ite | apply Kept.itePair | split)

theorem kept_fillReset {K : State} (s : State) (pg : Nat) (hs : Kept K s) :
    Kept K (fillReset s pg) := by
  unfold fillReset
  try dsimp only
  repeat' (with_reducible first | assumption | (intro hx; simp only [GalShaped, setAt, List.length_set, List.length_map] at hx ⊢; exact hx) | exact fun _ => galShaped_idle _ | apply kept_staleEvent | apply kept_galPut | apply kept_resetDone | apply kept_holdAsleep | apply Kept.ite | apply Kept.itePair | split)

theorem kept_fillWake {K : State} (s : State) (pg : Nat) (hs : Kept K s) :
    Kept K (fillWake s pg) := by
  unfold fillWake
  dsimp only
  apply kept_idleCheck
  apply kept_staleEvent
  apply kept_wr
  apply kept_foldl
  · intro t p ht
    exact kept_blockWake _ _ ht
  · apply kept_zeroCabinet
    apply kept_galPutFrom
    · intro w
      exact hs.shape w pg
    · exact kept_dropLead _ _ hs

theorem kept_fillDone {K : State} (s : State) (pg : Nat) (hs : Kept K s) :
    Kept K (fillDone s pg) := by
  unfold fillDone
  try dsimp only
  repeat' (with_reducible first | assumption | apply kept_fillReset | apply kept_fillWake | split)

theorem kept_napDone {K : State} (s : State) (pg : Nat) (hs : Kept K s) :
    Kept K (napDone s pg) := by
  unfold napDone
  try dsimp only
  repeat' (with_reducible first | assumption | (intro hx; simp only [GalShaped, setAt, List.length_set, List.length_map] at hx ⊢; exact hx) | exact fun _ => galShaped_idle _ | apply kept_blockWake | apply kept_galPut | apply kept_foldl | apply kept_foldlPair | intro _ | apply Kept.ite | apply Kept.itePair | split)

theorem kept_moveRow {K : State} (s : State) (key : Nat) (hs : Kept K s) :
    Kept K (moveRow s key) := by
  unfold moveRow
  try dsimp only
  repeat' (with_reducible first | assumption | apply kept_foldl | apply kept_foldlPair | intro _ | split | ((conv => pattern (State.mk ..)); first | apply Kept.upd | apply Kept.regFilter | apply Kept.memFilter))

theorem kept_repairRow {K : State} (s : State) (k c r : Nat) (lastSpare : Bool) (hs : Kept K s) :
    Kept K (repairRow s k c r lastSpare) := by
  unfold repairRow
  try dsimp only
  repeat' (with_reducible first | assumption | apply kept_moveRow | apply kept_tally | apply kept_raise | apply kept_bump | apply kept_wr | apply Kept.ite | apply Kept.itePair | split | ((conv => pattern (State.mk ..)); first | apply Kept.upd))

theorem kept_startMirror {K : State} (s : State) (k c : Nat) (hs : Kept K s) :
    Kept K (startMirror s k c) := by
  unfold startMirror
  try dsimp only
  repeat' (with_reducible first | assumption | apply kept_wr)

theorem kept_copyShares {K : State} (s : State) (k c : Nat) (hs : Kept K s) :
    Kept K (copyShares s k c) := by
  unfold copyShares
  extract_lets ms gs fixed s0 s1 s2
  have h0 : Kept K s0 := Kept.memFilter hs
  have h1 : Kept K s1 := kept_foldl (fun t _ ht => kept_mem t _ ht (fun w => twf_tput (fun _ => 0) _ _ _ w)) h0
  have h2 : Kept K s2 := kept_foldl (fun t _ ht => ht.same rfl rfl (.refl _) rfl rfl rfl rfl) h1
  exact kept_countWords _ _ _ h2

theorem kept_finishRetire {K : State} (s : State) (k : Nat) (hs : Kept K s) :
    Kept K (finishRetire s k) := by
  unfold finishRetire
  try dsimp only
  repeat' (with_reducible first | assumption | apply kept_copyShares | apply kept_wr | apply kept_putRecord | apply kept_tally | apply kept_raise | split)

theorem kept_channelFails {K : State} (s : State) (pg c : Nat) (hs : Kept K s) :
    Kept K (channelFails s pg c) := by
  unfold channelFails
  try dsimp only
  repeat' (with_reducible first | assumption | apply kept_degradeStack | apply Kept.ite | apply Kept.itePair | split)

theorem kept_bridgeLimit {K : State} (s : State) (die n : Nat) (hs : Kept K s) :
    Kept K (bridgeLimit s die n).1 := by
  unfold bridgeLimit
  try dsimp only
  repeat' (with_reducible first | assumption | apply kept_raise | apply kept_wr | apply Kept.ite | apply Kept.itePair | split)

theorem kept_linkLimit {K : State} (s : State) (die : Nat) (l : LinkId) (hs : Kept K s) :
    Kept K (linkLimit s die l) := by
  unfold linkLimit
  try dsimp only
  repeat' (with_reducible first | assumption | apply kept_tally | apply kept_raise | apply kept_wr | apply kept_bridgeLimit | apply kept_degradeStack | refine Kept.fst ?_ ‹_› | apply Kept.ite | apply Kept.itePair | split)

theorem kept_execCabinetFillComplete {K : State} (g : GalRef) (s : State) (hs : Kept K s) :
    ∀ z, execCabinetFillComplete g s = .next z → Kept K z := by
  intro z ht
  unfold execCabinetFillComplete at ht
  try dsimp only at ht
  repeat' (first | contradiction | (injection ht with ht; subst ht) | split at ht)
  all_goals (try dsimp only)
  all_goals (repeat' (with_reducible first | assumption | apply kept_alive | apply kept_fillDone | intro _ | apply Kept.ite | apply Kept.itePair | split))

theorem kept_execNapReadPassComplete {K : State} (g : GalRef) (s : State) (hs : Kept K s) :
    ∀ z, execNapReadPassComplete g s = .next z → Kept K z := by
  intro z ht
  unfold execNapReadPassComplete at ht
  try dsimp only at ht
  repeat' (first | contradiction | (injection ht with ht; subst ht) | split at ht)
  all_goals (try dsimp only)
  all_goals (repeat' (with_reducible first | assumption | apply kept_alive | apply kept_napDone | intro _ | apply Kept.ite | apply Kept.itePair | split))

theorem kept_execRowRepair {K : State} (stack : Nat) (channel : Fin 32) (row : Nat) (lastSpare : Bool) (s : State) (hs : Kept K s) :
    ∀ z, execRowRepair stack channel row lastSpare s = .next z → Kept K z := by
  intro z ht
  unfold execRowRepair at ht
  try dsimp only at ht
  repeat' (first | contradiction | (injection ht with ht; subst ht) | split at ht)
  all_goals (try dsimp only)
  all_goals (repeat' (with_reducible first | assumption | apply kept_alive | apply kept_repairRow | intro _ | apply Kept.ite | apply Kept.itePair | split))

theorem kept_execRetirementCopyComplete {K : State} (stack : Nat) (s : State) (hs : Kept K s) :
    ∀ z, execRetirementCopyComplete stack s = .next z → Kept K z := by
  intro z ht
  unfold execRetirementCopyComplete at ht
  try dsimp only at ht
  repeat' (first | contradiction | (injection ht with ht; subst ht) | split at ht)
  all_goals (try dsimp only)
  all_goals (repeat' (with_reducible first | assumption | apply kept_alive | apply kept_finishRetire | intro _ | apply Kept.ite | apply Kept.itePair | split))

theorem kept_execEscape {K : State} (die network : Fin 4) (s : State) (hs : Kept K s) :
    ∀ z, execEscape die network s = .next z → Kept K z := by
  intro z ht
  unfold execEscape at ht
  try dsimp only at ht
  repeat' (first | contradiction | (injection ht with ht; subst ht) | split at ht)
  all_goals (try dsimp only)
  all_goals (repeat' (with_reducible first | assumption | apply kept_alive | apply kept_tally | intro _))

theorem kept_execLinkErrorLimit {K : State} (die : Fin 4) (link : LinkId) (s : State) (hs : Kept K s) :
    ∀ z, execLinkErrorLimit die link s = .next z → Kept K z := by
  intro z ht
  unfold execLinkErrorLimit at ht
  try dsimp only at ht
  repeat' (first | contradiction | (injection ht with ht; subst ht) | split at ht)
  all_goals (try dsimp only)
  all_goals (repeat' (with_reducible first | assumption | apply kept_alive | apply kept_linkLimit | intro _))

theorem kept_noteLost {K : State} (s t : State) (g : Nat) (hs : Kept K s) (ht : Kept K t) :
    Kept K (noteLost s t g) := by
  unfold noteLost
  try dsimp only
  repeat' (with_reducible first | assumption | apply kept_raise | apply kept_recordErr | apply Kept.ite | apply Kept.itePair | split)

theorem kept_loseGallery {K : State} (s : State) (g : Nat) (hs : Kept K s) :
    Kept K (loseGallery s g) := by
  unfold loseGallery
  try dsimp only
  repeat' (with_reducible first | assumption | apply kept_commitFail | apply kept_breakRings | apply Kept.ite | apply Kept.itePair | split)

theorem kept_gReset {K : State} (s : State) (hs : Kept K s) :
    Kept K (gReset s) := by
  unfold gReset
  try dsimp only
  repeat' (with_reducible first | assumption | apply kept_saveConfig | apply kept_loseGallery | apply kept_noteLost | apply kept_galleryReset | ((conv => pattern (State.mk ..)); first | apply Kept.upd))

theorem kept_execGRequest {K : State} (s : State) (hs : Kept K s) :
    ∀ z, execGRequest s = .next z → Kept K z := by
  intro z ht
  unfold execGRequest at ht
  try dsimp only at ht
  repeat' (first | contradiction | (injection ht with ht; subst ht) | split at ht)
  all_goals (try dsimp only)
  all_goals (repeat' (with_reducible first | assumption | apply kept_alive | apply kept_gReset | intro _ | apply Kept.ite | apply Kept.itePair | split))

theorem kept_requestEnd {K : State} (s : State) (r : PartResult) (hs : Kept K s) :
    Kept K (requestEnd s r) := by
  unfold requestEnd
  try dsimp only
  repeat' (with_reducible first | assumption | apply kept_raise | apply kept_wr | apply kept_tally | apply kept_journalClose | apply Kept.ite | apply Kept.itePair | split | ((conv => pattern (State.mk ..)); first | apply Kept.upd))

theorem kept_issueEpoch {K : State} (s : State) (p : Nat) (hs : Kept K s) :
    Kept K (issueEpoch s p).1 := by
  unfold issueEpoch
  try dsimp only
  repeat' (with_reducible first | assumption | apply kept_putRecord | apply kept_wr | apply kept_partPut | apply Kept.ite | apply Kept.itePair | split)

theorem kept_putEpoch {K : State} (s : State) (e g : Nat) (hs : Kept K s) :
    Kept K (putEpoch s e g) := by
  unfold putEpoch
  try dsimp only
  repeat' (with_reducible first | assumption | apply kept_wr | apply kept_foldl | apply kept_foldlPair | intro _ | split)

theorem kept_putOwner {K : State} (s : State) (o : Option Nat) (g : Nat) (hs : Kept K s) :
    Kept K (putOwner s o g) := by
  unfold putOwner
  try dsimp only
  repeat' (with_reducible first | assumption | apply kept_wr | apply kept_foldl | apply kept_foldlPair | intro _ | apply Kept.getD | split)

theorem kept_showPart {K : State} (s : State) (p : Nat) (hs : Kept K s) :
    Kept K (showPart s p) := by
  unfold showPart
  try dsimp only
  repeat' (with_reducible first | assumption | apply kept_wr)

theorem kept_giveFrames {K : State} (s : State) (p : Nat) (fs : List Nat) (hs : Kept K s) :
    Kept K (giveFrames s p fs) := by
  unfold giveFrames
  try dsimp only
  repeat' (with_reducible first | assumption | apply kept_zeroFrame | apply kept_partPut | apply kept_foldl | apply kept_foldlPair | intro _ | split | ((conv => pattern (State.mk ..)); first | apply Kept.upd))

theorem kept_giveFlash {K : State} (s : State) (p : Nat) (fs : List Nat) (hs : Kept K s) :
    Kept K (giveFlash s p fs) := by
  unfold giveFlash
  try dsimp only
  repeat' (with_reducible first | assumption | apply kept_zeroFill | apply kept_partPut | apply kept_foldl | apply kept_foldlPair | intro _ | split | ((conv => pattern (State.mk ..)); first | apply Kept.upd))

theorem kept_dropFrames {K : State} (s : State) (p n m : Nat) (hs : Kept K s) :
    Kept K (dropFrames s p n m) := by
  unfold dropFrames
  try dsimp only
  repeat' (with_reducible first | assumption | apply kept_partPut | apply kept_foldl | apply kept_foldlPair | intro _ | split | ((conv => pattern (State.mk ..)); first | apply Kept.upd))

theorem kept_joinStep {K : State} (s : State) (p g : Nat) (hs : Kept K s) :
    Kept K (joinStep s p g) := by
  unfold joinStep
  try dsimp only
  repeat' (with_reducible first | assumption | apply kept_wr | split)

theorem kept_takeGallery {K : State} (s : State) (p e g : Nat) (hs : Kept K s) :
    Kept K (takeGallery s p e g) := by
  unfold takeGallery
  try dsimp only
  repeat' (with_reducible first | assumption | (intro hx; simp only [GalShaped, setAt, List.length_set, List.length_map] at hx ⊢; exact hx) | exact fun _ => galShaped_idle _ | apply kept_galleryReset | apply kept_staleEvent | apply kept_galPut | apply kept_wr | apply kept_putEpoch | apply kept_putOwner)

theorem kept_wakeNow {K : State} (s : State) (g : Nat) (hs : Kept K s) :
    Kept K (wakeNow s g) := by
  unfold wakeNow
  try dsimp only
  repeat' (with_reducible first | assumption | apply kept_leaveLow | apply kept_fillDone | apply kept_napDone | apply Kept.ite | apply Kept.itePair | split)

theorem kept_releaseGallery {K : State} (s : State) (g : Nat) (hs : Kept K s) :
    Kept K (releaseGallery s g) := by
  unfold releaseGallery
  try dsimp only
  repeat' (with_reducible first | assumption | apply kept_holdAsleep | apply kept_putOwner)

theorem kept_partCreate {K : State} (s : State) (p : Nat) (hs : Kept K s) :
    Kept K (partCreate s p) := by
  unfold partCreate
  try dsimp only
  repeat' (with_reducible first | assumption | apply kept_requestEnd | apply kept_partPut | apply kept_issueEpoch | apply kept_takeGallery | apply kept_wr | apply kept_giveFlash | apply kept_giveFrames | apply kept_showPart | apply kept_clearGrant | apply kept_joinStep | apply kept_foldl | apply kept_foldlPair | refine Kept.fst ?_ ‹_› | intro _ | apply Kept.getD | apply Kept.ite | apply Kept.itePair | split)

theorem kept_partGrow {K : State} (s : State) (p : Nat) (hs : Kept K s) :
    Kept K (partGrow s p) := by
  unfold partGrow
  try dsimp only
  repeat' (with_reducible first | assumption | apply kept_requestEnd | apply kept_joinStep | apply kept_takeGallery | apply kept_showPart | apply kept_giveFlash | apply kept_giveFrames | apply kept_foldl | apply kept_foldlPair | intro _ | apply Kept.getD | apply Kept.ite | apply Kept.itePair | split)

theorem kept_dropGallery {K : State} (s : State) (g : Nat) (hs : Kept K s) :
    Kept K (dropGallery s g) := by
  unfold dropGallery
  try dsimp only
  repeat' (with_reducible first | assumption | (intro hx; simp only [GalShaped, setAt, List.length_set, List.length_map] at hx ⊢; exact hx) | exact fun _ => galShaped_idle _ | apply kept_releaseGallery | apply kept_staleEvent | apply kept_noteLost | apply kept_galPut | apply kept_galleryReset | apply kept_loseGallery)

theorem kept_partShrink {K : State} (s : State) (p : Nat) (hs : Kept K s) :
    Kept K (partShrink s p) := by
  unfold partShrink
  try dsimp only
  repeat' (with_reducible first | assumption | apply kept_requestEnd | apply kept_dropGallery | apply kept_wakeNow | apply kept_issueEpoch | apply kept_dropFrames | apply kept_showPart | apply kept_putEpoch | apply kept_foldl | apply kept_foldlPair | refine Kept.fst ?_ ‹_› | intro _ | apply Kept.getD | apply Kept.ite | apply Kept.itePair | split)

theorem kept_partStart {K : State} (s : State) (p : Nat) (hs : Kept K s) :
    Kept K (partStart s p) := by
  unfold partStart
  try dsimp only
  repeat' (with_reducible first | assumption | apply kept_requestEnd | apply kept_partPut | apply kept_wr | apply kept_startGallery | apply kept_foldl | apply kept_foldlPair | intro _ | apply Kept.ite | apply Kept.itePair | split)

theorem kept_stopPages {K : State} (s : State) (pages : List Nat) (hs : Kept K s) :
    Kept K (stopPages s pages) := by
  induction pages generalizing s with
  | nil =>
    unfold stopPages
    try dsimp only
    all_goals (repeat' (with_reducible first | assumption | apply kept_blockPartStop | apply kept_voidPart | apply Kept.ite | apply Kept.itePair | split))
  | cons e r ih =>
    unfold stopPages
    try dsimp only
    repeat' (with_reducible first | assumption | apply ih | apply kept_blockPartStop | apply kept_voidPart | apply Kept.ite | apply Kept.itePair | split)

theorem kept_resetGallery {K : State} (s : State) (g : Nat) (hs : Kept K s) :
    Kept K (resetGallery s g) := by
  unfold resetGallery
  try dsimp only
  repeat' (with_reducible first | assumption | (intro hx; simp only [GalShaped, setAt, List.length_set, List.length_map] at hx ⊢; exact hx) | exact fun _ => galShaped_idle _ | apply kept_staleEvent | apply kept_noteLost | apply kept_galPut | apply kept_galleryReset | apply kept_loseGallery)

theorem kept_resetRest {K : State} (s : State) (p : Nat) (hs : Kept K s) :
    Kept K (resetRest s p) := by
  unfold resetRest
  try dsimp only
  repeat' (with_reducible first | assumption | apply kept_wr | apply kept_resetGallery | apply kept_wakeNow | apply kept_issueEpoch | apply kept_putEpoch | apply kept_partPut | apply kept_foldl | apply kept_foldlPair | refine Kept.fst ?_ ‹_› | intro _ | split)

theorem kept_stopProgress {K : State} (s : State) (p : Nat) (hs : Kept K s) :
    Kept K (stopProgress s p) := by
  unfold stopProgress
  try dsimp only
  repeat' (with_reducible first | assumption | apply kept_stopPages | apply kept_wr | apply kept_partPut | apply kept_requestEnd | apply kept_resetRest | apply kept_foldl | apply kept_foldlPair | intro _ | apply Kept.ite | apply Kept.itePair | split)

theorem kept_stopBegin {K : State} (s : State) (p : Nat) (hs : Kept K s) :
    Kept K (stopBegin s p) := by
  unfold stopBegin
  try dsimp only
  repeat' (with_reducible first | assumption | apply kept_stopProgress | apply kept_partPut)

theorem kept_partStop {K : State} (s : State) (p : Nat) (hs : Kept K s) :
    Kept K (partStop s p) := by
  unfold partStop
  try dsimp only
  repeat' (with_reducible first | assumption | apply kept_stopProgress | apply kept_requestEnd | apply kept_stopBegin | apply Kept.ite | apply Kept.itePair | split)

theorem kept_partReset {K : State} (s : State) (p : Nat) (hs : Kept K s) :
    Kept K (partReset s p) := by
  unfold partReset
  try dsimp only
  repeat' (with_reducible first | assumption | apply kept_stopProgress | apply kept_requestEnd | apply kept_stopBegin | apply Kept.ite | apply Kept.itePair | split)

theorem kept_dropVectors {K : State} (s : State) (p : Nat) (hs : Kept K s) :
    Kept K (dropVectors s p) := by
  unfold dropVectors
  try dsimp only
  repeat' (with_reducible first | assumption | apply kept_regPut | apply kept_foldl | apply kept_foldlPair | intro _ | apply Kept.ite | apply Kept.itePair | split)

theorem kept_partDestroy {K : State} (s : State) (p : Nat) (hs : Kept K s) :
    Kept K (partDestroy s p) := by
  unfold partDestroy
  try dsimp only
  repeat' (with_reducible first | assumption | apply kept_requestEnd | apply kept_resetGallery | apply kept_wakeNow | apply kept_dropFrames | apply kept_releaseGallery | apply kept_closeOut | apply kept_dropVectors | apply kept_issueEpoch | apply kept_partPut | apply kept_wr | apply kept_showPart | apply kept_clearGrant | apply kept_foldl | apply kept_foldlPair | refine Kept.fst ?_ ‹_› | intro _ | apply Kept.ite | apply Kept.itePair | split)

theorem kept_partSetL1 {K : State} (s : State) (p : Nat) (hs : Kept K s) :
    Kept K (partSetL1 s p) := by
  unfold partSetL1
  try dsimp only
  repeat' (with_reducible first | assumption | apply kept_requestEnd | apply kept_wr | apply Kept.ite | apply Kept.itePair | split)

theorem kept_loadConfig {K : State} (s : State) (g : Nat) (rs : List (Nat × Word64)) (hs : Kept K s) :
    Kept K (loadConfig s g rs) := by
  unfold loadConfig
  try dsimp only
  repeat' (with_reducible first | assumption | apply kept_regPut | apply kept_foldl | apply kept_foldlPair | intro _ | split)

theorem kept_mendLead {K : State} (s : State) (p g : Nat) (hs : Kept K s) :
    Kept K (mendLead s p g) := by
  unfold mendLead
  try dsimp only
  repeat' (with_reducible first | assumption | apply kept_wr | intro _ | apply Kept.getD | apply Kept.ite | apply Kept.itePair | split)

theorem kept_clearCaddies {K : State} (s : State) (g : Nat) (hs : Kept K s) :
    Kept K (clearCaddies s g) := by
  unfold clearCaddies
  try dsimp only
  repeat' (with_reducible first | assumption | (intro hx; simp only [GalShaped, setAt, List.length_set, List.length_map] at hx ⊢; exact hx) | exact fun _ => galShaped_idle _ | apply kept_galPut)

theorem kept_cancelList {K : State} (s : State) (g : Nat) (cs : List Begun) (hs : Kept K s) :
    Kept K (cancelList s g cs) := by
  unfold cancelList
  try dsimp only
  repeat' (with_reducible first | assumption | apply kept_completeCmd | apply kept_foldl | apply kept_foldlPair | intro _ | split)

theorem kept_admitOne {K : State} (s : State) (p g : Nat) (hs : Kept K s) :
    Kept K (admitOne s p g) := by
  unfold admitOne
  try dsimp only
  repeat' (with_reducible first | assumption | apply kept_putEpoch | apply kept_joinStep | apply kept_mendLead | apply kept_loadConfig | apply kept_clearCaddies | apply kept_partPut | apply kept_cancelList | apply kept_wr | apply kept_startGallery | apply kept_foldl | apply kept_foldlPair | intro _ | apply Kept.getD | apply Kept.ite | apply Kept.itePair | split)

theorem kept_partAdmit {K : State} (s : State) (p : Nat) (hs : Kept K s) :
    Kept K (partAdmit s p) := by
  unfold partAdmit
  try dsimp only
  repeat' (with_reducible first | assumption | apply kept_requestEnd | apply kept_admitOne | apply kept_foldl | apply kept_foldlPair | intro _ | apply Kept.getD | apply Kept.ite | apply Kept.itePair | split)

theorem kept_takeInit {K : State} (s : State) (port : PortId) (i : ScInit) (hs : Kept K s) :
    Kept K (takeInit s port i) := by
  unfold takeInit
  try dsimp only
  repeat' (with_reducible first | assumption | apply kept_nextFree | apply kept_tally | apply kept_sessPut | apply kept_sendBare | refine Kept.fst ?_ ‹_› | apply Kept.ite | apply Kept.itePair | split)

theorem kept_sendInit {K : State} (s : State) (x port role part : Nat) (address : List Byte) (asker : Nat × Nat) (hs : Kept K s) :
    ∀ z, sendInit s x port role part address asker = some z → Kept K z := by
  intro z ht
  unfold sendInit at ht
  try dsimp only at ht
  repeat' (first | contradiction | (injection ht with ht; subst ht) | split at ht)
  all_goals (try dsimp only)
  all_goals (repeat' (with_reducible first | assumption | apply kept_nextFree | apply kept_sendBare | apply kept_sessPut | refine Kept.fst ?_ ‹_› | split))

theorem kept_openSession {K : State} (s : State) (i : Nat) (hs : Kept K s) :
    Kept K (openSession s i) := by
  unfold openSession
  try dsimp only
  repeat' (with_reducible first | assumption | apply kept_raise | apply kept_tally | apply kept_wr | apply kept_sessPut | split)

theorem kept_takeAccept {K : State} (s : State) (i : Nat) (a : ScAccept) (hs : Kept K s) :
    Kept K (takeAccept s i a) := by
  unfold takeAccept
  try dsimp only
  repeat' (with_reducible first | assumption | apply kept_tally | apply kept_sessPut | apply kept_send | apply kept_mailDone | apply kept_closeSession | apply Kept.ite | apply Kept.itePair | split)

theorem kept_confirmTimeout {K : State} (s : State) (i : Nat) (hs : Kept K s) :
    Kept K (confirmTimeout s i) := by
  unfold confirmTimeout
  try dsimp only
  repeat' (with_reducible first | assumption | apply kept_closeSession | apply Kept.ite | apply Kept.itePair | split)

theorem kept_ackTimer {K : State} (s : State) (i : Nat) (hs : Kept K s) :
    Kept K (ackTimer s i) := by
  unfold ackTimer
  try dsimp only
  repeat' (with_reducible first | assumption | apply kept_sendAck | apply Kept.ite | apply Kept.itePair | split)

theorem kept_idleTimeout {K : State} (s : State) (i : Nat) (hs : Kept K s) :
    Kept K (idleTimeout s i) := by
  unfold idleTimeout
  try dsimp only
  repeat' (with_reducible first | assumption | apply kept_closeOut | apply Kept.ite | apply Kept.itePair | split)

theorem kept_keepAlive {K : State} (s : State) (i : Nat) (hs : Kept K s) :
    Kept K (keepAlive s i) := by
  unfold keepAlive
  try dsimp only
  repeat' (with_reducible first | assumption | apply kept_sendAck | apply Kept.ite | apply Kept.itePair | split)

theorem kept_resend {K : State} (s : State) (i : Nat) (k : TxPkt) (counter : Nat) (hs : Kept K s) :
    Kept K (resend s i k counter) := by
  unfold resend
  try dsimp only
  repeat' (with_reducible first | assumption | apply kept_closeOut | apply kept_tally | apply kept_transmit | apply kept_countSent | apply Kept.ite | apply Kept.itePair | split)

theorem kept_retxTimeout {K : State} (s : State) (i : Nat) (hs : Kept K s) :
    Kept K (retxTimeout s i) := by
  unfold retxTimeout
  try dsimp only
  repeat' (with_reducible first | assumption | apply kept_resend | apply kept_sessPut | apply Kept.ite | apply Kept.itePair | split)

theorem kept_contextDone {K : State} (s : State) (p : Nat) (hs : Kept K s) :
    Kept K (contextDone s p) := by
  unfold contextDone
  try dsimp only
  repeat' (with_reducible first | assumption | apply kept_stopProgress | apply kept_partPut | apply Kept.ite | apply Kept.itePair | split)

theorem kept_execScInit {K : State} (port : PortId) (init : ScInit) (s : State) (hs : Kept K s) :
    ∀ z, execScInit port init s = .next z → Kept K z := by
  intro z ht
  unfold execScInit at ht
  try dsimp only at ht
  repeat' (first | contradiction | (injection ht with ht; subst ht) | split at ht)
  all_goals (try dsimp only)
  all_goals (repeat' (with_reducible first | assumption | apply kept_alive | apply kept_takeInit | intro _))

theorem kept_execScAccept {K : State} (session : Half) (acc : ScAccept) (s : State) (hs : Kept K s) :
    ∀ z, execScAccept session acc s = .next z → Kept K z := by
  intro z ht
  unfold execScAccept at ht
  try dsimp only at ht
  repeat' (first | contradiction | (injection ht with ht; subst ht) | split at ht)
  all_goals (try dsimp only)
  all_goals (repeat' (with_reducible first | assumption | apply kept_alive | apply kept_takeAccept | intro _))

theorem kept_execScConfirmTimeout {K : State} (session : Half) (s : State) (hs : Kept K s) :
    ∀ z, execScConfirmTimeout session s = .next z → Kept K z := by
  intro z ht
  unfold execScConfirmTimeout at ht
  try dsimp only at ht
  repeat' (first | contradiction | (injection ht with ht; subst ht) | split at ht)
  all_goals (try dsimp only)
  all_goals (repeat' (with_reducible first | assumption | apply kept_alive | apply kept_confirmTimeout | intro _))

theorem kept_execAckTimer {K : State} (session : Half) (s : State) (hs : Kept K s) :
    ∀ z, execAckTimer session s = .next z → Kept K z := by
  intro z ht
  unfold execAckTimer at ht
  try dsimp only at ht
  repeat' (first | contradiction | (injection ht with ht; subst ht) | split at ht)
  all_goals (try dsimp only)
  all_goals (repeat' (with_reducible first | assumption | apply kept_alive | apply kept_ackTimer | intro _))

theorem kept_execRetransmissionTimeout {K : State} (session : Half) (s : State) (hs : Kept K s) :
    ∀ z, execRetransmissionTimeout session s = .next z → Kept K z := by
  intro z ht
  unfold execRetransmissionTimeout at ht
  try dsimp only at ht
  repeat' (first | contradiction | (injection ht with ht; subst ht) | split at ht)
  all_goals (try dsimp only)
  all_goals (repeat' (with_reducible first | assumption | apply kept_alive | apply kept_retxTimeout | intro _))

theorem kept_execIdleTimeout {K : State} (session : Half) (s : State) (hs : Kept K s) :
    ∀ z, execIdleTimeout session s = .next z → Kept K z := by
  intro z ht
  unfold execIdleTimeout at ht
  try dsimp only at ht
  repeat' (first | contradiction | (injection ht with ht; subst ht) | split at ht)
  all_goals (try dsimp only)
  all_goals (repeat' (with_reducible first | assumption | apply kept_alive | apply kept_idleTimeout | intro _))

theorem kept_execKeepalive {K : State} (session : Half) (s : State) (hs : Kept K s) :
    ∀ z, execKeepalive session s = .next z → Kept K z := by
  intro z ht
  unfold execKeepalive at ht
  try dsimp only at ht
  repeat' (first | contradiction | (injection ht with ht; subst ht) | split at ht)
  all_goals (try dsimp only)
  all_goals (repeat' (with_reducible first | assumption | apply kept_alive | apply kept_keepAlive | intro _))

theorem kept_execTransportContextStopped {K : State} (p : Fin 64) (s : State) (hs : Kept K s) :
    ∀ z, execTransportContextStopped p s = .next z → Kept K z := by
  intro z ht
  unfold execTransportContextStopped at ht
  try dsimp only at ht
  repeat' (first | contradiction | (injection ht with ht; subst ht) | split at ht)
  all_goals (try dsimp only)
  all_goals (repeat' (with_reducible first | assumption | apply kept_alive | apply kept_contextDone | intro _))

theorem kept_mcPut {K : State} (s : State) (k : Nat) (m : Mcast) (hs : Kept K s) :
    Kept K (mcPut s k m) := by
  unfold mcPut
  try dsimp only
  repeat' (with_reducible first | assumption | ((conv => pattern (State.mk ..)); first | apply Kept.upd))

theorem kept_mcEpoch {K : State} (s : State) (hs : Kept K s) :
    Kept K (mcEpoch s).1 := by
  unfold mcEpoch
  try dsimp only
  repeat' (with_reducible first | assumption | apply kept_nextFree | refine Kept.fst ?_ ‹_› | split)

theorem kept_mcSegments {K : State} (s : State) (m : Mcast) (i lo hi : Nat) (hs : Kept K s) :
    ∀ z, mcSegments s m i lo hi = some z → Kept K z := by
  intro z ht
  unfold mcSegments at ht
  try dsimp only at ht
  repeat' (first | contradiction | (injection ht with ht; subst ht) | split at ht)
  all_goals (try dsimp only)
  all_goals (repeat' (with_reducible first | assumption | apply kept_mcEpoch | apply kept_sendMessage | refine Kept.fst ?_ ‹_› | split))

theorem kept_mcFeed {K : State} (s : State) (k n : Nat) (hs : Kept K s) :
    Kept K (mcFeed s k n) := by
  unfold mcFeed
  try dsimp only
  repeat' (with_reducible first | assumption | refine kept_mcSegments _ _ _ _ _ ?_ | apply kept_mcPut | refine Kept.osome ?_ ‹_› | intro _ | apply Kept.getD | apply Kept.ite | apply Kept.itePair | split)

theorem kept_mcPump {K : State} (s : State) (k : Nat) (hs : Kept K s) :
    Kept K (mcPump s k) := by
  unfold mcPump
  try dsimp only
  repeat' (with_reducible first | assumption | apply kept_mcFeed | apply kept_mcPut | apply kept_foldl | apply kept_foldlPair | intro _ | split)

theorem kept_mcAckIn {K : State} (s : State) (i : Nat) (hs : Kept K s) :
    Kept K (mcAckIn s i) := by
  unfold mcAckIn
  try dsimp only
  repeat' (with_reducible first | assumption | apply kept_mcPump | apply kept_mcPut | apply kept_foldl | apply kept_foldlPair | intro _ | apply Kept.ite | apply Kept.itePair | split)

theorem kept_mcCatch {K : State} (s : State) (k : Nat) (hs : Kept K s) :
    Kept K (mcCatch s k) := by
  unfold mcCatch
  try dsimp only
  repeat' (with_reducible first | assumption | apply kept_mcEpoch | apply kept_sendRead | refine Kept.fst ?_ ‹_› | apply Kept.ite | apply Kept.itePair | split)

theorem kept_mcStore {K : State} (s : State) (k : Nat) (m : Mcast) (off : Nat) (bs : List Byte) (hs : Kept K s) :
    Kept K (mcStore s k m off bs).1 := by
  unfold mcStore
  try dsimp only
  repeat' (with_reducible first | assumption | apply kept_vstore | apply kept_mcPump | apply kept_mcPut | refine Kept.fst ?_ ‹_› | split)

theorem kept_mcSend {K : State} (s : State) (i op off : Nat) (hs : Kept K s) :
    Kept K (mcSend s i op off) := by
  unfold mcSend
  try dsimp only
  repeat' (with_reducible first | assumption | apply kept_send)

theorem kept_mcPublish {K : State} (s : State) (i p off : Nat) (hs : Kept K s) :
    Kept K (mcPublish s i p off).1 := by
  unfold mcPublish
  try dsimp only
  repeat' (with_reducible first | assumption | apply kept_mcPump | apply kept_mcPut | apply Kept.ite | apply Kept.itePair | split)

theorem kept_mcDetached {K : State} (s : State) (i off : Nat) (hs : Kept K s) :
    Kept K (mcDetached s i off).1 := by
  unfold mcDetached
  try dsimp only
  repeat' (with_reducible first | assumption | apply kept_mcCatch | apply kept_tally | apply kept_raise | apply kept_mcPut | split)

theorem kept_mcJoin {K : State} (s : State) (i off : Nat) (hs : Kept K s) :
    Kept K (mcJoin s i off).1 := by
  unfold mcJoin
  try dsimp only
  repeat' (with_reducible first | assumption | apply kept_mcSend | apply kept_tally | apply kept_raise | apply kept_mcPut | apply kept_mcPump | apply Kept.ite | apply Kept.itePair | split)

theorem kept_mcAccepted {K : State} (s : State) (i : Nat) (hs : Kept K s) :
    Kept K (mcAccepted s i).1 := by
  unfold mcAccepted
  try dsimp only
  repeat' (with_reducible first | assumption | apply kept_mcPut | split)

theorem kept_mcRefused {K : State} (s : State) (i off : Nat) (hs : Kept K s) :
    Kept K (mcRefused s i off).1 := by
  unfold mcRefused
  try dsimp only
  repeat' (with_reducible first | assumption | apply kept_mcCatch | apply kept_mcPut | split)

theorem kept_mcControl {K : State} (s : State) (i p op off : Nat) (hs : Kept K s) :
    Kept K (mcControl s i p op off).1 := by
  unfold mcControl
  try dsimp only
  repeat' (with_reducible first | assumption | apply kept_mcPublish | apply kept_mcDetached | apply kept_mcJoin | apply kept_mcAccepted | apply kept_mcRefused | refine Kept.fst ?_ ‹_› | split)

theorem kept_mcDetach {K : State} (s : State) (x group n : Nat) (hs : Kept K s) :
    Kept K (mcDetach s x group n) := by
  unfold mcDetach
  try dsimp only
  repeat' (with_reducible first | assumption | apply kept_tally | apply kept_raise | apply kept_mcPut | apply kept_mcPump | apply kept_mcSend | apply Kept.ite | apply Kept.itePair | split)

theorem kept_mcJoinTimer {K : State} (s : State) (x group : Nat) (hs : Kept K s) :
    Kept K (mcJoinTimer s x group) := by
  unfold mcJoinTimer
  try dsimp only
  repeat' (with_reducible first | assumption | apply kept_mcCatch | apply kept_mcSend | apply kept_mcPut | apply Kept.ite | apply Kept.itePair | split)

theorem kept_execChildDetach {K : State} (xdie : Fin 6) (group : Half) (child : Fin 8) (s : State) (hs : Kept K s) :
    ∀ z, execChildDetach xdie group child s = .next z → Kept K z := by
  intro z ht
  unfold execChildDetach at ht
  try dsimp only at ht
  repeat' (first | contradiction | (injection ht with ht; subst ht) | split at ht)
  all_goals (try dsimp only)
  all_goals (repeat' (with_reducible first | assumption | apply kept_alive | apply kept_mcDetach | intro _))

theorem kept_execJoinTimer {K : State} (xdie : Fin 6) (group : Half) (s : State) (hs : Kept K s) :
    ∀ z, execJoinTimer xdie group s = .next z → Kept K z := by
  intro z ht
  unfold execJoinTimer at ht
  try dsimp only at ht
  repeat' (first | contradiction | (injection ht with ht; subst ht) | split at ht)
  all_goals (try dsimp only)
  all_goals (repeat' (with_reducible first | assumption | apply kept_alive | apply kept_mcJoinTimer | intro _))

theorem kept_linkUp {K : State} (s : State) (x p speed : Nat) (hs : Kept K s) :
    Kept K (linkUp s x p speed) := by
  unfold linkUp
  try dsimp only
  repeat' (with_reducible first | assumption | apply kept_tally | apply kept_raise | apply kept_wr | apply Kept.ite | apply Kept.itePair | split)

theorem kept_laneSpare {K : State} (s : State) (x p lane : Nat) (hs : Kept K s) :
    Kept K (laneSpare s x p lane) := by
  unfold laneSpare
  try dsimp only
  repeat' (with_reducible first | assumption | apply kept_wr | apply kept_linkDrop | apply kept_tally | apply kept_raise | apply Kept.ite | apply Kept.itePair | split)

theorem kept_lldpSend {K : State} (s : State) (x p : Nat) (hs : Kept K s) :
    Kept K (lldpSend s x p) := by
  unfold lldpSend
  try dsimp only
  repeat' (with_reducible first | assumption | apply kept_portQueue | apply kept_portPut | apply kept_tally | apply kept_emit | apply Kept.ite | apply Kept.itePair | split)

theorem kept_lldpTake {K : State} (s : State) (x p : Nat) (b : List Byte) (hs : Kept K s) :
    Kept K (lldpTake s x p b) := by
  unfold lldpTake
  try dsimp only
  repeat' (with_reducible first | assumption | apply kept_tally | apply kept_raise | apply kept_portPut | apply Kept.ite | apply Kept.itePair | split)

theorem kept_ptpEvent {K : State} (s : State) (port : PortId) (sent : Bool) (correction : Int) (hs : Kept K s) :
    Kept K (ptpEvent s port sent correction) := by
  unfold ptpEvent
  try dsimp only
  repeat' (with_reducible first | assumption | apply kept_tally | apply kept_emit | apply Kept.ite | apply Kept.itePair | split | ((conv => pattern (State.mk ..)); first | apply Kept.upd))

theorem kept_otherFrame {K : State} (s : State) (port : PortId) (f : RxFrame) (hs : Kept K s) :
    Kept K (otherFrame s port f) := by
  unfold otherFrame
  try dsimp only
  repeat' (with_reducible first | assumption | apply kept_tally | apply kept_emit | apply kept_portQueue | apply Kept.ite | apply Kept.itePair | split)

theorem kept_egressDrop {K : State} (s : State) (x p counter : Nat) (hs : Kept K s) :
    Kept K (egressDrop s x p counter) := by
  unfold egressDrop
  try dsimp only
  repeat' (with_reducible first | assumption | apply kept_tally | apply kept_raise | apply kept_portPut | apply Kept.ite | apply Kept.itePair | split)

theorem kept_egressPass {K : State} (s : State) (port : PortId) (f : TxFrame) (cls : Option Nat) (bytes : List Byte) (hs : Kept K s) :
    Kept K (egressPass s port f cls bytes) := by
  unfold egressPass
  try dsimp only
  repeat' (with_reducible first | assumption | apply kept_emit | apply kept_portPut | apply kept_tally | apply kept_egressDrop | apply Kept.ite | apply Kept.itePair | split)

theorem kept_egressOffer {K : State} (s : State) (port : PortId) (f : TxFrame) (cls : Option Nat) (bytes : List Byte) (hs : Kept K s) :
    Kept K (egressOffer s port f cls bytes) := by
  unfold egressOffer
  try dsimp only
  repeat' (with_reducible first | assumption | apply kept_egressDrop | apply kept_egressPass | split)

theorem kept_egressServe {K : State} (s : State) (port : PortId) (hs : Kept K s) :
    Kept K (egressServe s port) := by
  unfold egressServe
  try dsimp only
  repeat' (with_reducible first | assumption | apply kept_egressOffer | apply kept_portPut | apply Kept.ite | apply Kept.itePair | split)

theorem kept_egressFrame {K : State} (s : State) (port : PortId) (f : Option TxFrame) (hs : Kept K s) :
    Kept K (egressFrame s port f) := by
  unfold egressFrame
  try dsimp only
  repeat' (with_reducible first | assumption | apply kept_egressOffer | apply kept_egressServe | apply Kept.ite | apply Kept.itePair | split)

theorem kept_ringVerified {K : State} (s : State) (r : Ring) (hs : Kept K s) :
    Kept K (ringVerified s r) := by
  unfold ringVerified
  try dsimp only
  repeat' (with_reducible first | assumption | apply kept_wr | apply Kept.ite | apply Kept.itePair | split)

theorem kept_ringSettle {K : State} (s : State) (r : Ring) (hs : Kept K s) :
    Kept K (ringSettle s r) := by
  unfold ringSettle
  try dsimp only
  repeat' (with_reducible first | assumption | apply Kept.ite | apply Kept.itePair | split | ((conv => pattern (State.mk ..)); first | apply Kept.upd))

theorem kept_ringTrained {K : State} (s : State) (r : Ring) (hs : Kept K s) :
    Kept K (ringTrained s r) := by
  unfold ringTrained
  try dsimp only
  repeat' (with_reducible first | assumption | apply kept_setBypassed | apply kept_wr | apply kept_tally | apply kept_raise | apply Kept.ite | apply Kept.itePair | split | ((conv => pattern (State.mk ..)); first | apply Kept.upd | apply Kept.regFilter | apply Kept.memFilter))

theorem kept_ringTimeout {K : State} (s : State) (r : Ring) (hs : Kept K s) :
    Kept K (ringTimeout s r) := by
  unfold ringTimeout
  try dsimp only
  repeat' (with_reducible first | assumption | apply kept_ringDrop | apply Kept.ite | apply Kept.itePair | split)

theorem kept_execNonZazelFrame {K : State} (port : PortId) (frame : RxFrame) (s : State) (hs : Kept K s) :
    ∀ z, execNonZazelFrame port frame s = .next z → Kept K z := by
  intro z ht
  unfold execNonZazelFrame at ht
  try dsimp only at ht
  repeat' (first | contradiction | (injection ht with ht; subst ht) | split at ht)
  all_goals (try dsimp only)
  all_goals (repeat' (with_reducible first | assumption | apply kept_alive | apply kept_otherFrame | intro _))

theorem kept_execLinkUp {K : State} (port : PortId) (speed : Fin 3) (s : State) (hs : Kept K s) :
    ∀ z, execLinkUp port speed s = .next z → Kept K z := by
  intro z ht
  unfold execLinkUp at ht
  try dsimp only at ht
  repeat' (first | contradiction | (injection ht with ht; subst ht) | split at ht)
  all_goals (try dsimp only)
  all_goals (repeat' (with_reducible first | assumption | apply kept_alive | apply kept_linkUp | intro _))

theorem kept_execLinkDown {K : State} (port : PortId) (s : State) (hs : Kept K s) :
    ∀ z, execLinkDown port s = .next z → Kept K z := by
  intro z ht
  unfold execLinkDown at ht
  try dsimp only at ht
  repeat' (first | contradiction | (injection ht with ht; subst ht) | split at ht)
  all_goals (try dsimp only)
  all_goals (repeat' (with_reducible first | assumption | apply kept_alive | apply kept_linkDrop | intro _))

theorem kept_execLaneSparing {K : State} (port : PortId) (lane : Fin 4) (s : State) (hs : Kept K s) :
    ∀ z, execLaneSparing port lane s = .next z → Kept K z := by
  intro z ht
  unfold execLaneSparing at ht
  try dsimp only at ht
  repeat' (first | contradiction | (injection ht with ht; subst ht) | split at ht)
  all_goals (try dsimp only)
  all_goals (repeat' (with_reducible first | assumption | apply kept_alive | apply kept_laneSpare | intro _))

theorem kept_execLldpTransmit {K : State} (port : PortId) (s : State) (hs : Kept K s) :
    ∀ z, execLldpTransmit port s = .next z → Kept K z := by
  intro z ht
  unfold execLldpTransmit at ht
  try dsimp only at ht
  repeat' (first | contradiction | (injection ht with ht; subst ht) | split at ht)
  all_goals (try dsimp only)
  all_goals (repeat' (with_reducible first | assumption | apply kept_alive | apply kept_lldpSend | intro _))

theorem kept_execLldpduReceive {K : State} (port : PortId) (lldpdu : List Byte) (s : State) (hs : Kept K s) :
    ∀ z, execLldpduReceive port lldpdu s = .next z → Kept K z := by
  intro z ht
  unfold execLldpduReceive at ht
  try dsimp only at ht
  repeat' (first | contradiction | (injection ht with ht; subst ht) | split at ht)
  all_goals (try dsimp only)
  all_goals (repeat' (with_reducible first | assumption | apply kept_alive | apply kept_lldpTake | intro _))

theorem kept_execPtpEventMessage {K : State} (port : PortId) (sent : Bool) (correction : Int) (s : State) (hs : Kept K s) :
    ∀ z, execPtpEventMessage port sent correction s = .next z → Kept K z := by
  intro z ht
  unfold execPtpEventMessage at ht
  try dsimp only at ht
  repeat' (first | contradiction | (injection ht with ht; subst ht) | split at ht)
  all_goals (try dsimp only)
  all_goals (repeat' (with_reducible first | assumption | apply kept_alive | apply kept_ptpEvent | intro _))

theorem kept_execEgressFrame {K : State} (port : PortId) (frame : Option TxFrame) (s : State) (hs : Kept K s) :
    ∀ z, execEgressFrame port frame s = .next z → Kept K z := by
  intro z ht
  unfold execEgressFrame at ht
  try dsimp only at ht
  repeat' (first | contradiction | (injection ht with ht; subst ht) | split at ht)
  all_goals (try dsimp only)
  all_goals (repeat' (with_reducible first | assumption | apply kept_alive | apply kept_egressFrame | intro _))

theorem kept_execRingLoopbackVerified {K : State} (ring : Ring) (s : State) (hs : Kept K s) :
    ∀ z, execRingLoopbackVerified ring s = .next z → Kept K z := by
  intro z ht
  unfold execRingLoopbackVerified at ht
  try dsimp only at ht
  repeat' (first | contradiction | (injection ht with ht; subst ht) | split at ht)
  all_goals (try dsimp only)
  all_goals (repeat' (with_reducible first | assumption | apply kept_alive | apply kept_ringVerified | intro _))

theorem kept_execRingSwitchSettled {K : State} (ring : Ring) (s : State) (hs : Kept K s) :
    ∀ z, execRingSwitchSettled ring s = .next z → Kept K z := by
  intro z ht
  unfold execRingSwitchSettled at ht
  try dsimp only at ht
  repeat' (first | contradiction | (injection ht with ht; subst ht) | split at ht)
  all_goals (try dsimp only)
  all_goals (repeat' (with_reducible first | assumption | apply kept_alive | apply kept_ringSettle | intro _))

theorem kept_execRingNeighboursTrained {K : State} (ring : Ring) (s : State) (hs : Kept K s) :
    ∀ z, execRingNeighboursTrained ring s = .next z → Kept K z := by
  intro z ht
  unfold execRingNeighboursTrained at ht
  try dsimp only at ht
  repeat' (first | contradiction | (injection ht with ht; subst ht) | split at ht)
  all_goals (try dsimp only)
  all_goals (repeat' (with_reducible first | assumption | apply kept_alive | apply kept_ringTrained | intro _))

theorem kept_execRingTrainTimeout {K : State} (ring : Ring) (s : State) (hs : Kept K s) :
    ∀ z, execRingTrainTimeout ring s = .next z → Kept K z := by
  intro z ht
  unfold execRingTrainTimeout at ht
  try dsimp only at ht
  repeat' (first | contradiction | (injection ht with ht; subst ht) | split at ht)
  all_goals (try dsimp only)
  all_goals (repeat' (with_reducible first | assumption | apply kept_alive | apply kept_ringTimeout | intro _))

theorem kept_corePut {K : State} (s : State) (c : Nat) (x : CurCore) (hs : Kept K s) :
    Kept K (corePut s c x) := by
  unfold corePut
  try dsimp only
  repeat' (with_reducible first | assumption | apply Kept.ite | apply Kept.itePair | split | ((conv => pattern (State.mk ..)); first | apply Kept.upd))

theorem kept_putEight {K : State} (s : State) (pg off : Nat) (b : List Byte) (hs : Kept K s) :
    Kept K (putEight s pg off b) := by
  unfold putEight
  try dsimp only
  repeat' (with_reducible first | assumption | apply kept_regPut | apply kept_foldl | apply kept_foldlPair | intro _ | split)

theorem kept_showBoot {K : State} (s : State) (c : Nat) (img : List Byte) (recovered : Bool) (hs : Kept K s) :
    Kept K (showBoot s c img recovered) := by
  unfold showBoot
  try dsimp only
  repeat' (with_reducible first | assumption | apply kept_putEight | apply kept_regPut | apply kept_wr)

theorem kept_setRole {K : State} (s : State) (c role synced : Nat) (hs : Kept K s) :
    Kept K (setRole s c role synced) := by
  unfold setRole
  try dsimp only
  repeat' (with_reducible first | assumption | apply kept_wr)

theorem kept_mcastPut {K : State} (s : State) (x : Nat) (b : List Byte) (hs : Kept K s) :
    ∀ z, mcastPut s x b = some z → Kept K z := by
  intro z h
  unfold mcastPut at h
  split at h
  · simp only [Option.some.injEq] at h
    subst h
    exact kept_mcPut _ _ _ hs
  · obtain ⟨n, -, h2⟩ := Option.map_eq_some_iff.1 h
    subst h2
    exact kept_mcPut _ _ _ hs

theorem kept_mcastDrop {K : State} (s : State) (x group : Nat) (hs : Kept K s) :
    Kept K (mcastDrop s x group) := by
  unfold mcastDrop
  try dsimp only
  repeat' (with_reducible first | assumption | ((conv => pattern (State.mk ..)); first | apply Kept.upd | apply Kept.regFilter | apply Kept.memFilter))

theorem kept_maskedPut {K : State} (s : State) (a d m : Nat) (hs : Kept K s) :
    Kept K (maskedPut s a d m) := by
  unfold maskedPut
  try dsimp only
  repeat' (with_reducible first | assumption | apply kept_regPut)

theorem kept_restoreRecord {K : State} (s0 : State) (hs0 : Kept K s0) :
    Kept K (restoreRecord s0) := by
  unfold restoreRecord
  try dsimp only
  repeat' (with_reducible first | assumption | apply kept_regPut | apply kept_wr | refine kept_mcastPut _ _ _ ?_ | apply kept_maskedPut | apply kept_foldl | apply kept_foldlPair | refine Kept.osome ?_ ‹_› | intro _ | apply Kept.getD | split | ((conv => pattern (State.mk ..)); first | apply Kept.upd))

theorem kept_startOwnPage {K : State} (s : State) (pg : Nat) (hs : Kept K s) :
    Kept K (startOwnPage s pg) := by
  unfold startOwnPage
  try dsimp only
  repeat' (with_reducible first | assumption | apply kept_blockStart | apply Kept.ite | apply Kept.itePair | split)

theorem kept_startOwnPages {K : State} (s : State) (hs : Kept K s) :
    Kept K (startOwnPages s) := by
  unfold startOwnPages
  try dsimp only
  repeat' (with_reducible first | assumption | apply kept_startOwnPage | apply kept_foldl | apply kept_foldlPair | intro _ | split)

theorem kept_lockLimiters {K : State} (s : State) (hs : Kept K s) :
    Kept K (lockLimiters s) := by
  unfold lockLimiters
  try dsimp only
  repeat' (with_reducible first | assumption | apply kept_wr | apply kept_foldl | apply kept_foldlPair | intro _ | split)

theorem kept_holdUnowned {K : State} (s : State) (hs : Kept K s) :
    Kept K (holdUnowned s) := by
  unfold holdUnowned
  try dsimp only
  repeat' (with_reducible first | assumption | apply kept_holdAsleep | apply kept_foldl | apply kept_foldlPair | intro _ | split)

theorem kept_activate {K : State} (s : State) (c : Nat) (hs : Kept K s) :
    Kept K (activate s c) := by
  unfold activate
  try dsimp only
  repeat' (with_reducible first | assumption | apply kept_setRole | apply kept_vecTry | apply kept_holdUnowned | apply kept_startOwnPages | apply kept_lockLimiters | apply kept_restoreRecord | ((conv => pattern (State.mk ..)); first | apply Kept.upd))

theorem kept_runImage {K : State} (s : State) (c : Nat) (img : List Byte) (recovered : Bool) (hs : Kept K s) :
    Kept K (runImage s c img recovered) := by
  unfold runImage
  try dsimp only
  repeat' (with_reducible first | assumption | apply kept_corePut | apply kept_showBoot | apply Kept.ite | apply Kept.itePair | split | ((conv => pattern (State.mk ..)); first | apply Kept.upd))

theorem kept_selfTest {K : State} (s : State) (c : Nat) (pass : Bool) (hs : Kept K s) :
    Kept K (selfTest s c pass) := by
  unfold selfTest
  try dsimp only
  repeat' (with_reducible first | assumption | apply kept_corePut | apply kept_setRole | apply kept_setAlert | apply Kept.ite | apply Kept.itePair | split | ((conv => pattern (State.mk ..)); first | apply Kept.upd))

theorem kept_requestRange {K : State} (s : State) (c lo hi : Nat) (hs : Kept K s) :
    Kept K (requestRange s c lo hi) := by
  unfold requestRange
  try dsimp only
  repeat' (with_reducible first | assumption | apply kept_emit | apply kept_portQueue | apply Kept.ite | apply Kept.itePair | split)

theorem kept_beginRecovery {K : State} (s : State) (c : Nat) (hs : Kept K s) :
    Kept K (beginRecovery s c) := by
  unfold beginRecovery
  try dsimp only
  repeat' (with_reducible first | assumption | apply kept_blockStart | apply kept_requestRange | apply kept_corePut | apply Kept.ite | apply Kept.itePair | split)

theorem kept_imageLoaded {K : State} (s : State) (c : Nat) (hs : Kept K s) :
    Kept K (imageLoaded s c) := by
  unfold imageLoaded
  try dsimp only
  repeat' (with_reducible first | assumption | apply kept_runImage | apply kept_activate | apply kept_setRole | apply kept_wr | apply kept_beginRecovery | apply Kept.ite | apply Kept.itePair | split)

theorem kept_grantTimeout {K : State} (s : State) (hs : Kept K s) :
    Kept K (grantTimeout s) := by
  unfold grantTimeout
  try dsimp only
  repeat' (with_reducible first | assumption | apply Kept.ite | apply Kept.itePair | split | ((conv => pattern (State.mk ..)); first | apply Kept.upd))

theorem kept_askRanges {K : State} (s : State) (c : Nat) (hs : Kept K s) :
    Kept K (askRanges s c) := by
  unfold askRanges
  try dsimp only
  repeat' (with_reducible first | assumption | apply kept_requestRange | apply kept_corePut | apply kept_foldl | apply kept_foldlPair | intro _ | split)

theorem kept_runRecovered {K : State} (s : State) (c : Nat) (img : List Byte) (hs : Kept K s) :
    Kept K (runRecovered s c img) := by
  unfold runRecovered
  try dsimp only
  repeat' (with_reducible first | assumption | apply kept_activate | apply kept_runImage | ((conv => pattern (State.mk ..)); first | apply Kept.upd))

theorem kept_rcvData {K : State} (s : State) (off : Nat) (bs : List Byte) (hs : Kept K s) :
    Kept K (rcvData s off bs) := by
  unfold rcvData
  try dsimp only
  repeat' (with_reducible first | assumption | apply kept_corePut | apply kept_beginRecovery | apply kept_wr | apply kept_runRecovered | apply kept_askRanges | apply Kept.ite | apply Kept.itePair | split)

theorem kept_recoveryRetry {K : State} (s : State) (hs : Kept K s) :
    Kept K (recoveryRetry s) := by
  unfold recoveryRetry
  try dsimp only
  repeat' (with_reducible first | assumption | apply kept_askRanges | apply Kept.ite | apply Kept.itePair | split)

theorem kept_recoverySwap {K : State} (s : State) (hs : Kept K s) :
    Kept K (recoverySwap s) := by
  unfold recoverySwap
  try dsimp only
  repeat' (with_reducible first | assumption | apply kept_corePut | apply kept_beginRecovery | apply Kept.ite | apply Kept.itePair | split | ((conv => pattern (State.mk ..)); first | apply Kept.upd))

theorem kept_standbySynced {K : State} (s : State) (hs : Kept K s) :
    Kept K (standbySynced s) := by
  unfold standbySynced
  try dsimp only
  repeat' (with_reducible first | assumption | apply kept_wr | split)

theorem kept_showUpdate {K : State} (s : State) (st : Nat) (hs : Kept K s) :
    Kept K (showUpdate s st) := by
  unfold showUpdate
  try dsimp only
  repeat' (with_reducible first | assumption | apply kept_wr)

theorem kept_updateEnd {K : State} (s : State) (result : Nat) (hs : Kept K s) :
    Kept K (updateEnd s result) := by
  unfold updateEnd
  try dsimp only
  repeat' (with_reducible first | assumption | apply kept_mailDone | apply kept_showUpdate | split | ((conv => pattern (State.mk ..)); first | apply Kept.upd))

theorem kept_coreReset {K : State} (s : State) (c : Nat) (hs : Kept K s) :
    Kept K (coreReset s c) := by
  unfold coreReset
  try dsimp only
  repeat' (with_reducible first | assumption | apply kept_setRole | apply kept_corePut | apply Kept.ite | apply Kept.itePair | split | ((conv => pattern (State.mk ..)); first | apply Kept.upd))

theorem kept_activeExpires {K : State} (s : State) (c : Nat) (hs : Kept K s) :
    Kept K (activeExpires s c) := by
  unfold activeExpires
  try dsimp only
  repeat' (with_reducible first | assumption | apply kept_ringsDrop | apply kept_coreReset | apply kept_setAlert | apply kept_withAlert | intro _ | ((conv => pattern (State.mk ..)); first | apply Kept.upd))

theorem kept_watchdogExpiry {K : State} (s : State) (c : Nat) (hs : Kept K s) :
    Kept K (watchdogExpiry s c) := by
  unfold watchdogExpiry
  try dsimp only
  repeat' (with_reducible first | assumption | apply kept_activeExpires | apply kept_updateEnd | apply kept_coreReset | apply kept_raiseZero | apply kept_setAlert | apply Kept.ite | apply Kept.itePair | split)

theorem kept_watchdogKick {K : State} (s : State) (c : Nat) (hs : Kept K s) :
    Kept K (watchdogKick s c) := by
  unfold watchdogKick
  try dsimp only
  repeat' (with_reducible first | assumption | apply kept_corePut | apply Kept.ite | apply Kept.itePair | split)

theorem kept_ringOpen {K : State} (s : State) (r : Ring) (hs : Kept K s) :
    Kept K (ringOpen s r) := by
  unfold ringOpen
  try dsimp only
  repeat' (with_reducible first | assumption | apply kept_wr | apply Kept.ite | apply Kept.itePair | split | ((conv => pattern (State.mk ..)); first | apply Kept.upd))

theorem kept_updateFinish {K : State} (s : State) (b : Nat) (u : Update) (hs : Kept K s) :
    Kept K (updateFinish s b u) := by
  unfold updateFinish
  try dsimp only
  repeat' (with_reducible first | assumption | apply kept_wr | apply kept_showUpdate | apply kept_mailDone | apply kept_raise | apply kept_foldl | apply kept_foldlPair | intro _ | split | ((conv => pattern (State.mk ..)); first | apply Kept.upd))

theorem kept_takeover {K : State} (s : State) (hs : Kept K s) :
    Kept K (takeover s) := by
  unfold takeover
  try dsimp only
  repeat' (with_reducible first | assumption | apply kept_setRole | apply kept_raise | apply kept_updateFinish | apply kept_updateEnd | apply kept_vecTry | apply kept_ringOpen | apply kept_foldl | apply kept_foldlPair | intro _ | apply Kept.ite | apply Kept.itePair | split | ((conv => pattern (State.mk ..)); first | apply Kept.upd))

theorem kept_quietPoint {K : State} (s : State) (hs : Kept K s) :
    Kept K (quietPoint s) := by
  unfold quietPoint
  try dsimp only
  repeat' (with_reducible first | assumption | apply kept_nextFree | apply kept_setRole | apply kept_runImage | apply kept_wr | apply kept_vecTry | apply kept_updateFinish | apply kept_raise | apply kept_foldl | apply kept_foldlPair | refine Kept.fst ?_ ‹_› | intro _ | apply Kept.ite | apply Kept.itePair | split | ((conv => pattern (State.mk ..)); first | apply Kept.upd))

theorem kept_updateTimeout {K : State} (s : State) (hs : Kept K s) :
    Kept K (updateTimeout s) := by
  unfold updateTimeout
  try dsimp only
  repeat' (with_reducible first | assumption | apply kept_updateEnd | apply kept_setRole | apply kept_runImage | apply Kept.ite | apply Kept.itePair | split)

theorem kept_execWatchdogExpiry {K : State} (core : Fin 2) (s : State) (hs : Kept K s) :
    ∀ z, execWatchdogExpiry core s = .next z → Kept K z := by
  intro z ht
  unfold execWatchdogExpiry at ht
  try dsimp only at ht
  repeat' (first | contradiction | (injection ht with ht; subst ht) | split at ht)
  all_goals (try dsimp only)
  all_goals (repeat' (with_reducible first | assumption | apply kept_alive | apply kept_watchdogExpiry | intro _))

theorem kept_execWatchdogKick {K : State} (core : Fin 2) (s : State) (hs : Kept K s) :
    ∀ z, execWatchdogKick core s = .next z → Kept K z := by
  intro z ht
  unfold execWatchdogKick at ht
  try dsimp only at ht
  repeat' (first | contradiction | (injection ht with ht; subst ht) | split at ht)
  all_goals (try dsimp only)
  all_goals (repeat' (with_reducible first | assumption | apply kept_alive | apply kept_watchdogKick | intro _))

theorem kept_execTakeover {K : State} (s : State) (hs : Kept K s) :
    ∀ z, execTakeover s = .next z → Kept K z := by
  intro z ht
  unfold execTakeover at ht
  try dsimp only at ht
  repeat' (first | contradiction | (injection ht with ht; subst ht) | split at ht)
  all_goals (try dsimp only)
  all_goals (repeat' (with_reducible first | assumption | apply kept_alive | apply kept_takeover | intro _))

theorem kept_execRomSelfTestComplete {K : State} (core : Fin 2) (pass : Bool) (s : State) (hs : Kept K s) :
    ∀ z, execRomSelfTestComplete core pass s = .next z → Kept K z := by
  intro z ht
  unfold execRomSelfTestComplete at ht
  try dsimp only at ht
  repeat' (first | contradiction | (injection ht with ht; subst ht) | split at ht)
  all_goals (try dsimp only)
  all_goals (repeat' (with_reducible first | assumption | apply kept_alive | apply kept_selfTest | intro _))

theorem kept_execImageLoaded {K : State} (core : Fin 2) (s : State) (hs : Kept K s) :
    ∀ z, execImageLoaded core s = .next z → Kept K z := by
  intro z ht
  unfold execImageLoaded at ht
  try dsimp only at ht
  repeat' (first | contradiction | (injection ht with ht; subst ht) | split at ht)
  all_goals (try dsimp only)
  all_goals (repeat' (with_reducible first | assumption | apply kept_alive | apply kept_imageLoaded | intro _))

theorem kept_execFlashGrantTimeout {K : State} (s : State) (hs : Kept K s) :
    ∀ z, execFlashGrantTimeout s = .next z → Kept K z := by
  intro z ht
  unfold execFlashGrantTimeout at ht
  try dsimp only at ht
  repeat' (first | contradiction | (injection ht with ht; subst ht) | split at ht)
  all_goals (try dsimp only)
  all_goals (repeat' (with_reducible first | assumption | apply kept_alive | apply kept_grantTimeout | intro _))

theorem kept_execRcvData {K : State} (offset : Word32) (bytes : List Byte) (s : State) (hs : Kept K s) :
    ∀ z, execRcvData offset bytes s = .next z → Kept K z := by
  intro z ht
  unfold execRcvData at ht
  try dsimp only at ht
  repeat' (first | contradiction | (injection ht with ht; subst ht) | split at ht)
  all_goals (try dsimp only)
  all_goals (repeat' (with_reducible first | assumption | apply kept_alive | apply kept_rcvData | intro _))

theorem kept_execRecoveryRetryTimer {K : State} (s : State) (hs : Kept K s) :
    ∀ z, execRecoveryRetryTimer s = .next z → Kept K z := by
  intro z ht
  unfold execRecoveryRetryTimer at ht
  try dsimp only at ht
  repeat' (first | contradiction | (injection ht with ht; subst ht) | split at ht)
  all_goals (try dsimp only)
  all_goals (repeat' (with_reducible first | assumption | apply kept_alive | apply kept_recoveryRetry | intro _))

theorem kept_execRecoveryRoleTimeout {K : State} (s : State) (hs : Kept K s) :
    ∀ z, execRecoveryRoleTimeout s = .next z → Kept K z := by
  intro z ht
  unfold execRecoveryRoleTimeout at ht
  try dsimp only at ht
  repeat' (first | contradiction | (injection ht with ht; subst ht) | split at ht)
  all_goals (try dsimp only)
  all_goals (repeat' (with_reducible first | assumption | apply kept_alive | apply kept_recoverySwap | intro _))

theorem kept_execStandbySynced {K : State} (s : State) (hs : Kept K s) :
    ∀ z, execStandbySynced s = .next z → Kept K z := by
  intro z ht
  unfold execStandbySynced at ht
  try dsimp only at ht
  repeat' (first | contradiction | (injection ht with ht; subst ht) | split at ht)
  all_goals (try dsimp only)
  all_goals (repeat' (with_reducible first | assumption | apply kept_alive | apply kept_standbySynced | intro _))

theorem kept_execQuietPoint {K : State} (s : State) (hs : Kept K s) :
    ∀ z, execQuietPoint s = .next z → Kept K z := by
  intro z ht
  unfold execQuietPoint at ht
  try dsimp only at ht
  repeat' (first | contradiction | (injection ht with ht; subst ht) | split at ht)
  all_goals (try dsimp only)
  all_goals (repeat' (with_reducible first | assumption | apply kept_alive | apply kept_quietPoint | intro _))

theorem kept_execUpdateQuietTimeout {K : State} (s : State) (hs : Kept K s) :
    ∀ z, execUpdateQuietTimeout s = .next z → Kept K z := by
  intro z ht
  unfold execUpdateQuietTimeout at ht
  try dsimp only at ht
  repeat' (first | contradiction | (injection ht with ht; subst ht) | split at ht)
  all_goals (try dsimp only)
  all_goals (repeat' (with_reducible first | assumption | apply kept_alive | apply kept_updateTimeout | intro _))

theorem kept_redPut {K : State} (s : State) (p : Nat) (r : RedRun) (hs : Kept K s) :
    Kept K (redPut s p r) := by
  unfold redPut
  try dsimp only
  repeat' (with_reducible first | assumption | apply kept_partPut | apply Kept.ite | apply Kept.itePair | split)

theorem kept_redFail {K : State} (s : State) (x p rid cause : Nat) (hs : Kept K s) :
    Kept K (redFail s x p rid cause) := by
  unfold redFail
  try dsimp only
  repeat' (with_reducible first | assumption | apply kept_collFail | apply kept_redPut | apply Kept.ite | apply Kept.itePair | split)

theorem kept_redFailData {K : State} (s : State) (x p rid va : Nat) (e : AccErr) (hs : Kept K s) :
    Kept K (redFailData s x p rid va e) := by
  unfold redFailData
  try dsimp only
  repeat' (with_reducible first | assumption | apply kept_redFail | apply kept_recordAccess)

theorem kept_keepBlock {K : State} (s : State) (x p rid code o block : Nat) (b : List Byte) (hs : Kept K s) :
    Kept K (keepBlock s x p rid code o block b).1 := by
  unfold keepBlock
  try dsimp only
  repeat' (with_reducible first | assumption | apply kept_vstore | apply kept_redPut | refine Kept.fst ?_ ‹_› | split)

theorem kept_keepBlocks {K : State} (s : State) (x p rid code o first : Nat) (bs : List (List Byte)) (hs : Kept K s) :
    Kept K (keepBlocks s x p rid code o first bs).1 := by
  induction bs generalizing s x p rid code o first with
  | nil =>
    unfold keepBlocks
    try dsimp only
    all_goals (repeat' (with_reducible first | assumption | apply kept_keepBlock | refine Kept.fst ?_ ‹_› | split))
  | cons e r ih =>
    unfold keepBlocks
    try dsimp only
    repeat' (with_reducible first | assumption | apply ih | apply kept_keepBlock | refine Kept.fst ?_ ‹_› | split)

theorem kept_sendSeg {K : State} (s : State) (i epoch kind : Nat) (h : SegHdr) (a b : Nat) (bs : List Byte) (hs : Kept K s) :
    Kept K (sendSeg s i epoch kind h a b bs) := by
  unfold sendSeg
  try dsimp only
  repeat' (with_reducible first | assumption | apply kept_send)

theorem kept_sendBlocks {K : State} (s : State) (x p rid : Nat) (p_ : Point) (o dest first : Nat) (bs : List (List Byte)) (hs : Kept K s) :
    Kept K (sendBlocks s x p rid p_ o dest first bs) := by
  unfold sendBlocks
  try dsimp only
  repeat' (with_reducible first | assumption | apply kept_sendSeg | apply kept_redPut | apply kept_foldl | apply kept_foldlPair | intro _ | apply Kept.ite | apply Kept.itePair | split)

theorem kept_countPoints {K : State} (s : State) (x p rid g : Nat) (r : RedRun) (bs : List (List Byte)) (c : Counts) (hs : Kept K s) :
    Kept K (countPoints s x p rid g r bs c) := by
  unfold countPoints
  try dsimp only
  repeat' (with_reducible first | assumption | apply kept_tally | apply kept_addCounts | apply kept_redFailData | refine Kept.fst ?_ ‹_› | split)

theorem kept_leafHeal {K : State} (s : State) (p : Nat) (r : RedRun) (o : Nat) (hs : Kept K s) :
    Kept K (leafHeal s p r o) := by
  unfold leafHeal
  try dsimp only
  repeat' (with_reducible first | assumption | apply kept_vheal | apply Kept.ite | apply Kept.itePair | split)

theorem kept_fireOwner {K : State} (s : State) (x p rid g o : Nat) (fails : Option (Half × Nat)) (hs : Kept K s) :
    Kept K (fireOwner s x p rid g o fails) := by
  unfold fireOwner
  try dsimp only
  repeat' (with_reducible first | assumption | apply kept_redFailData | apply kept_countPoints | apply kept_leafHeal | apply kept_keepBlocks | apply kept_sendBlocks | refine Kept.fst ?_ ‹_› | intro _ | apply Kept.getD | apply Kept.ite | apply Kept.itePair | split)

theorem kept_redFire {K : State} (s : State) (x p rid : Nat) (fails : Option (Half × Nat)) (hs : Kept K s) :
    Kept K (redFire s x p rid fails) := by
  unfold redFire
  try dsimp only
  repeat' (with_reducible first | assumption | apply kept_redFail | apply kept_redPut | apply kept_tally | apply kept_fireOwner | apply kept_foldl | apply kept_foldlPair | intro _ | apply Kept.ite | apply Kept.itePair | split)

theorem kept_peerEpoch {K : State} (s : State) (p i : Nat) (hs : Kept K s) :
    Kept K (peerEpoch s p i).1 := by
  unfold peerEpoch
  try dsimp only
  repeat' (with_reducible first | assumption | apply kept_nextFree | refine Kept.fst ?_ ‹_› | apply Kept.ite | apply Kept.itePair | split)

theorem kept_vaultWrite {K : State} (s : State) (p off : Nat) (bs : List Byte) (cls : Nat) (hs : Kept K s) :
    Kept K (vaultWrite s p off bs cls).1 := by
  unfold vaultWrite
  try dsimp only
  repeat' (with_reducible first | assumption | apply kept_peerEpoch | apply kept_sendWrite | apply kept_foldl | apply kept_foldlPair | refine Kept.fst ?_ ‹_› | intro _ | split)

theorem kept_slotRecord {K : State} (s : State) (p n state : Nat) (hs : Kept K s) :
    Kept K (slotRecord s p n state) := by
  unfold slotRecord
  try dsimp only
  repeat' (with_reducible first | assumption | apply kept_vaultWrite | apply kept_resPut | refine Kept.fst ?_ ‹_› | split)

theorem kept_mirrorRoot {K : State} (s : State) (x p rid n block : Nat) (bs : List Byte) (hs : Kept K s) :
    Kept K (mirrorRoot s x p rid n block bs) := by
  unfold mirrorRoot
  try dsimp only
  repeat' (with_reducible first | assumption | apply kept_slotRecord | apply kept_vaultWrite | apply kept_tally | apply kept_resPut | refine Kept.fst ?_ ‹_› | apply Kept.ite | apply Kept.itePair | split)

theorem kept_writeRoot {K : State} (s : State) (x p rid o block : Nat) (sums : List Nat) (hs : Kept K s) :
    Kept K (writeRoot s x p rid o block sums) := by
  unfold writeRoot
  try dsimp only
  repeat' (with_reducible first | assumption | apply kept_vstore | apply kept_redFailData | apply kept_mirrorRoot | apply kept_redPut | refine Kept.fst ?_ ‹_› | split)

theorem kept_placePoint {K : State} (s : State) (x p rid o block : Nat) (pt : Point) (b : List Byte) (hs : Kept K s) :
    Kept K (placePoint s x p rid o block pt b) := by
  unfold placePoint
  try dsimp only
  repeat' (with_reducible first | assumption | apply kept_redPut | apply kept_sendBlocks | apply Kept.ite | apply Kept.itePair | split)

theorem kept_runPoint {K : State} (s : State) (x p rid g o block : Nat) (pt : Point) (r : RedRun) (a b : Child) (hs : Kept K s) :
    Kept K (runPoint s x p rid g o block pt r a b) := by
  unfold runPoint
  try dsimp only
  repeat' (with_reducible first | assumption | apply kept_writeRoot | apply kept_placePoint | apply kept_countPoints | apply Kept.ite | apply Kept.itePair | split)

theorem kept_pointCompute {K : State} (s : State) (x p rid code o block : Nat) (fails : Bool) (hs : Kept K s) :
    Kept K (pointCompute s x p rid code o block fails) := by
  unfold pointCompute
  try dsimp only
  repeat' (with_reducible first | assumption | apply kept_redFailData | apply kept_runPoint | apply Kept.ite | apply Kept.itePair | split)

theorem kept_execReductionFire {K : State} (xdie : Fin 6) (p : Fin 64) (run : FireRun) (s : State) (hs : Kept K s) :
    ∀ z, execReductionFire xdie p run s = .next z → Kept K z := by
  intro z ht
  unfold execReductionFire at ht
  try dsimp only at ht
  repeat' (first | contradiction | (injection ht with ht; subst ht) | split at ht)
  all_goals (try dsimp only)
  all_goals (repeat' (with_reducible first | assumption | apply kept_alive | apply kept_redFire | intro _))

theorem kept_execPointCompute {K : State} (xdie : Fin 6) (p : Fin 64) (rid : Half) (point : BitVec 24) (owner : Half) (run : PointRun) (s : State) (hs : Kept K s) :
    ∀ z, execPointCompute xdie p rid point owner run s = .next z → Kept K z := by
  intro z ht
  unfold execPointCompute at ht
  try dsimp only at ht
  repeat' (first | contradiction | (injection ht with ht; subst ht) | split at ht)
  all_goals (try dsimp only)
  all_goals (repeat' (with_reducible first | assumption | apply kept_alive | apply kept_pointCompute | intro _))

theorem kept_collStale {K : State} (s : State) (x p : Nat) (hs : Kept K s) :
    Kept K (collStale s x p) := by
  unfold collStale
  try dsimp only
  repeat' (with_reducible first | assumption | apply kept_recordErr | apply kept_tally | apply kept_raise)

theorem kept_relaySeg {K : State} (s : State) (x i : Nat) (ms : List Byte) (count : Nat) (k : Pkt) (h : SegHdr) (kind a b : Nat) (bs : List Byte) (hs : Kept K s) :
    Kept K (relaySeg s x i ms count k h kind a b bs).1 := by
  unfold relaySeg
  try dsimp only
  repeat' (with_reducible first | assumption | apply kept_tally | apply kept_pump | apply kept_enqueue | apply kept_sessPut | apply Kept.ite | apply Kept.itePair | split)

theorem kept_refuseSeg {K : State} (s : State) (x p : Nat) (rid : Option Nat) (a : Answer) (hs : Kept K s) :
    Kept K (refuseSeg s x p rid a).1 := by
  unfold refuseSeg
  try dsimp only
  repeat' (with_reducible first | assumption | apply kept_collStale | apply kept_redFail | split)

theorem kept_storeBlocks {K : State} (s : State) (x p : Nat) (h : SegHdr) (first nblk : Nat) (bs : List Byte) (r : RedRun) (hs : Kept K s) :
    Kept K (storeBlocks s x p h first nblk bs r).1 := by
  unfold storeBlocks
  try dsimp only
  repeat' (with_reducible first | assumption | apply kept_refuseSeg | apply kept_keepBlocks | apply kept_redFailData | refine Kept.fst ?_ ‹_› | apply Kept.ite | apply Kept.itePair | split)

theorem kept_takeBlocks {K : State} (s : State) (i p : Nat) (k : Pkt) (h : SegHdr) (first nblk : Nat) (bs : List Byte) (hs : Kept K s) :
    Kept K (takeBlocks s i p k h first nblk bs).1 := by
  unfold takeBlocks
  try dsimp only
  repeat' (with_reducible first | assumption | apply kept_refuseSeg | apply kept_relaySeg | apply kept_storeBlocks | refine Kept.fst ?_ ‹_› | apply Kept.ite | apply Kept.itePair | split)

theorem kept_sendCombine {K : State} (s : State) (p kind dest : Nat) (c : Combined) (hs : Kept K s) :
    Kept K (sendCombine s p kind dest c) := by
  unfold sendCombine
  try dsimp only
  repeat' (with_reducible first | assumption | apply kept_tally | apply kept_sendMessage)

theorem kept_putRecords {K : State} (s : State) (p g n : Nat) (es : List (Nat × List Byte)) (rs : List Byte) (hs : Kept K s) :
    Kept K (putRecords s p g n es rs) := by
  induction es generalizing s p g n rs with
  | nil =>
    unfold putRecords
    try dsimp only
    all_goals (repeat' (with_reducible first | assumption | apply kept_vstore | apply kept_recordAccess | refine Kept.fst ?_ ‹_› | split))
  | cons e r ih =>
    unfold putRecords
    try dsimp only
    repeat' (with_reducible first | assumption | apply ih | apply kept_vstore | apply kept_recordAccess | refine Kept.fst ?_ ‹_› | split)

theorem kept_applyResult {K : State} (s : State) (p : Nat) (c : Combined) (hs : Kept K s) :
    Kept K (applyResult s p c) := by
  unfold applyResult
  try dsimp only
  repeat' (with_reducible first | assumption | apply kept_partPut | apply kept_sendCombine | apply kept_putRecords | apply kept_recordAccess | apply kept_tally | apply kept_raise | apply kept_skipStep | apply kept_foldl | apply kept_foldlPair | intro _ | apply Kept.ite | apply Kept.itePair | split)

theorem kept_combinePump {K : State} (s : State) (p : Nat) (hs : Kept K s) :
    Kept K (combinePump s p) := by
  unfold combinePump
  try dsimp only
  repeat' (with_reducible first | assumption | apply kept_partPut | apply kept_applyResult | apply kept_sendCombine | apply kept_foldl | apply kept_foldlPair | intro _ | apply Kept.ite | apply Kept.itePair | split)

theorem kept_ownEntry {K : State} (s : State) (p g : Nat) (alone : Bool) (fails : Option Nat) (hs : Kept K s) :
    Kept K (ownEntry s p g alone fails).1 := by
  unfold ownEntry
  try dsimp only
  repeat' (with_reducible first | assumption | apply kept_recordAccess | apply Kept.ite | apply Kept.itePair | split)

theorem kept_combineEntry {K : State} (s : State) (p : Nat) (fails : Option Nat) (hs : Kept K s) :
    Kept K (combineEntry s p fails) := by
  unfold combineEntry
  try dsimp only
  repeat' (with_reducible first | assumption | apply kept_combinePump | apply kept_ownEntry | apply kept_wr | apply kept_partPut | apply kept_slotRecord | apply kept_applyResult | apply kept_collFail | apply kept_foldl | apply kept_foldlPair | refine Kept.fst ?_ ‹_› | intro _ | apply Kept.ite | apply Kept.itePair | split)

theorem kept_takeUp {K : State} (s : State) (i p : Nat) (k : Pkt) (off : Nat) (bs : List Byte) (hs : Kept K s) :
    Kept K (takeUp s i p k off bs) := by
  unfold takeUp
  try dsimp only
  repeat' (with_reducible first | assumption | apply kept_combinePump | apply kept_partPut | intro _ | apply Kept.getD)

theorem kept_takeDown {K : State} (s : State) (p : Nat) (k : Pkt) (off : Nat) (bs : List Byte) (hs : Kept K s) :
    Kept K (takeDown s p k off bs) := by
  unfold takeDown
  try dsimp only
  repeat' (with_reducible first | assumption | apply kept_partPut | apply kept_applyResult | intro _ | apply Kept.getD | apply Kept.ite | apply Kept.itePair | split)

theorem kept_takeCombine {K : State} (s : State) (i p kind : Nat) (k : Pkt) (h : SegHdr) (off : Nat) (bs : List Byte) (hs : Kept K s) :
    Kept K (takeCombine s i p kind k h off bs).1 := by
  unfold takeCombine
  try dsimp only
  repeat' (with_reducible first | assumption | apply kept_relaySeg | apply kept_takeUp | apply kept_takeDown | apply kept_refuseSeg | refine Kept.fst ?_ ‹_› | apply Kept.ite | apply Kept.itePair | split)

theorem kept_chanStop {K : State} (s : State) (x p ch : Nat) (hs : Kept K s) :
    Kept K (chanStop s x p ch) := by
  unfold chanStop
  try dsimp only
  repeat' (with_reducible first | assumption | apply kept_partPut | apply kept_regPut | apply kept_raise | apply kept_recordErr)

theorem kept_chanData {K : State} (s : State) (x p ch va : Nat) (e : AccErr) (hs : Kept K s) :
    Kept K (chanData s x p ch va e) := by
  unfold chanData
  try dsimp only
  repeat' (with_reducible first | assumption | apply kept_chanStop | apply kept_recordAccess)

theorem kept_advanceTail {K : State} (s : State) (p qid n : Nat) (hs : Kept K s) :
    ∀ z, advanceTail s p qid n = some z → Kept K z := by
  intro z ht
  unfold advanceTail at ht
  try dsimp only at ht
  repeat' (first | contradiction | (injection ht with ht; subst ht) | split at ht)
  all_goals (try dsimp only)
  all_goals (repeat' (with_reducible first | assumption | apply kept_noteTail | apply kept_wr | apply Kept.ite | apply Kept.itePair | split))

theorem kept_chanStore {K : State} (s : State) (x p ch va : Nat) (bs : List Byte) (hs : Kept K s) :
    Kept K (chanStore s x p ch va bs) := by
  unfold chanStore
  try dsimp only
  repeat' (with_reducible first | assumption | apply kept_vstore | apply kept_chanData | refine Kept.fst ?_ ‹_› | split)

theorem kept_chanArrive {K : State} (s : State) (x p ch : Nat) (hs : Kept K s) :
    Kept K (chanArrive s x p ch) := by
  unfold chanArrive
  try dsimp only
  repeat' (with_reducible first | assumption | apply kept_chanData | refine kept_advanceTail _ _ _ _ ?_ | apply kept_chanStop | apply kept_chanStore | apply kept_tally | refine Kept.osome ?_ ‹_› | intro _ | apply Kept.ite | apply Kept.itePair | split)

theorem kept_chanRelease {K : State} (s : State) (x p ch : Nat) (hs : Kept K s) :
    Kept K (chanRelease s x p ch) := by
  unfold chanRelease
  try dsimp only
  repeat' (with_reducible first | assumption | apply kept_chanData | apply kept_chanStore | apply kept_peerEpoch | apply kept_tally | apply kept_sendSeg | refine Kept.fst ?_ ‹_› | apply Kept.ite | apply Kept.itePair | split)

theorem kept_takeCredit {K : State} (s : State) (i p : Nat) (k : Pkt) (h : SegHdr) (hs : Kept K s) :
    Kept K (takeCredit s i p k h).1 := by
  unfold takeCredit
  try dsimp only
  repeat' (with_reducible first | assumption | apply kept_chanData | refine kept_advanceTail _ _ _ _ ?_ | apply kept_chanStop | apply kept_refuseSeg | refine Kept.fst ?_ ‹_› | refine Kept.osome ?_ ‹_› | intro _ | apply Kept.ite | apply Kept.itePair | split)

theorem kept_countSlot {K : State} (s : State) (x p ch : Nat) (b : List Byte) (lo hi j : Nat) (hs : Kept K s) :
    Kept K (countSlot s x p ch b lo hi j) := by
  unfold countSlot
  try dsimp only
  repeat' (with_reducible first | assumption | apply kept_chanData | apply kept_chanStop | apply kept_chanStore | apply Kept.ite | apply Kept.itePair | split)

theorem kept_countWindows {K : State} (s : State) (x p lo hi : Nat) (hs : Kept K s) :
    Kept K (countWindows s x p lo hi) := by
  unfold countWindows
  try dsimp only
  repeat' (with_reducible first | assumption | apply kept_chanData | apply kept_countSlot | apply kept_foldl | apply kept_foldlPair | intro _ | apply Kept.ite | apply Kept.itePair | split)

theorem kept_execCombineEntry {K : State} (run : CombineRun) (s : State) (hs : Kept K s) :
    ∀ z, execCombineEntry run s = .next z → Kept K z := by
  intro z ht
  unfold execCombineEntry at ht
  try dsimp only at ht
  repeat' (first | contradiction | (injection ht with ht; subst ht) | split at ht)
  all_goals (try dsimp only)
  all_goals (repeat' (with_reducible first | assumption | apply kept_alive | apply kept_combineEntry | intro _))

theorem kept_execChannelArrival {K : State} (xdie : Fin 6) (p : Fin 64) (ch : Half) (s : State) (hs : Kept K s) :
    ∀ z, execChannelArrival xdie p ch s = .next z → Kept K z := by
  intro z ht
  unfold execChannelArrival at ht
  try dsimp only at ht
  repeat' (first | contradiction | (injection ht with ht; subst ht) | split at ht)
  all_goals (try dsimp only)
  all_goals (repeat' (with_reducible first | assumption | apply kept_alive | apply kept_chanArrive | intro _))

theorem kept_execChannelRelease {K : State} (xdie : Fin 6) (p : Fin 64) (ch : Half) (s : State) (hs : Kept K s) :
    ∀ z, execChannelRelease xdie p ch s = .next z → Kept K z := by
  intro z ht
  unfold execChannelRelease at ht
  try dsimp only at ht
  repeat' (first | contradiction | (injection ht with ht; subst ht) | split at ht)
  all_goals (try dsimp only)
  all_goals (repeat' (with_reducible first | assumption | apply kept_alive | apply kept_chanRelease | intro _))

end Sys2Proof.Machine
end

