-- ==== Sys2Proof/Laws/KeptRows.lean ====
section
/-! SUPPORT. What each operation keeps (Sys2Proof.Machine.Kept): drain, integrity, mailbox, observation, resilience, register effects, received packets, messages and requests. -/

namespace Sys2Proof.Machine

theorem kept_commandRow {K : State} (s : State) (g q op : Nat) (check : State → Nat → List Byte → Check) (start : State → Nat → List Byte → State) (hs : Kept K s) (hstart : ∀ x0 x1 x2, Kept K x0 → Kept K (start x0 x1 x2)) :
    ∀ z, commandRow s g q op check start = .next z → Kept K z := by
  intro z ht
  unfold commandRow at ht
  try dsimp only at ht
  repeat' (first | contradiction | (injection ht with ht; subst ht) | split at ht)
  all_goals (try dsimp only)
  all_goals (repeat' (with_reducible first | assumption | apply kept_alive | apply kept_acceptRow | apply hstart | intro _))

theorem kept_endNow {K : State} (s : State) (g q index status : Nat) (b : List Byte) (hs : Kept K s) :
    Kept K (endNow s g q index status b) := by
  unfold endNow
  try dsimp only
  repeat' (with_reducible first | assumption | apply kept_completeCmd)

theorem kept_startFence {K : State} (s : State) (g q index : Nat) (b : List Byte) (hs : Kept K s) :
    Kept K (startFence s g q index b) := by
  unfold startFence
  try dsimp only
  repeat' (with_reducible first | assumption | apply kept_endNow | apply Kept.ite | apply Kept.itePair | split)

theorem kept_startStepEnd {K : State} (s : State) (g q index : Nat) (b : List Byte) (hs : Kept K s) :
    Kept K (startStepEnd s g q index b) := by
  unfold startStepEnd
  try dsimp only
  repeat' (with_reducible first | assumption | apply kept_endNow | apply kept_qauxPut)

theorem kept_startFrame {K : State} (s : State) (g q index : Nat) (b : List Byte) (hs : Kept K s) :
    Kept K (startFrame s g q index b) := by
  unfold startFrame
  try dsimp only
  repeat' (with_reducible first | assumption | apply kept_tally | apply kept_endNow | apply kept_voidPart | apply kept_qauxPut | apply Kept.ite | apply Kept.itePair | split)

theorem kept_startTransfer {K : State} (s : State) (g q index : Nat) (b : List Byte) (hs : Kept K s) :
    Kept K (startTransfer s g q index b) := by
  unfold startTransfer
  try dsimp only
  repeat' (with_reducible first | assumption | apply kept_addBegun | apply kept_giveJob)

theorem kept_startRotate {K : State} (s : State) (g q index : Nat) (b : List Byte) (hs : Kept K s) :
    Kept K (startRotate s g q index b) := by
  unfold startRotate
  try dsimp only
  repeat' (with_reducible first | assumption | apply kept_addBegun | intro _ | apply Kept.getD | apply Kept.ite | apply Kept.itePair | split)

theorem kept_checkedCensus {K : State} (s : State) (g : Nat) (c : Begun) (fails : Option Nat) (hs : Kept K s) :
    Kept K (checkedCensus s g c fails).1 := by
  unfold checkedCensus
  try dsimp only
  repeat' (with_reducible first | assumption | apply kept_arrayCensus | refine Kept.fst ?_ ‹_› | intro _ | apply Kept.getD | split)

theorem kept_closeArray {K : State} (s : State) (g : Nat) (c : Begun) (fails : Option Nat) (hs : Kept K s) :
    Kept K (closeArray s g c fails) := by
  unfold closeArray
  try dsimp only
  repeat' (with_reducible first | assumption | apply kept_checkedCensus | apply kept_completeBegun | apply kept_recordAccess | apply kept_begunPut | refine Kept.fst ?_ ‹_› | split)

theorem kept_commandCompletion {K : State} (s : State) (g q : Nat) (run : CmdRun) (hs : Kept K s) :
    Kept K (commandCompletion s g q run) := by
  unfold commandCompletion
  try dsimp only
  repeat' (with_reducible first | assumption | apply kept_closeArray | apply kept_completeBegun | apply kept_runVector | apply kept_runAttention | apply kept_runSketch | apply Kept.ite | apply Kept.itePair | split)

theorem kept_execNop {K : State} (g : Fin 256) (q : Fin 4) (s : State) (hs : Kept K s) :
    ∀ z, execNop g q s = .next z → Kept K z := by
  intro z ht
  unfold execNop at ht
  refine kept_commandRow _ _ _ _ _ _ ?_ ?_ z ht
  all_goals (repeat' (with_reducible first | assumption | refine kept_commandRow _ _ _ _ _ _ ?_ ?_ | apply kept_endNow | intro _))

theorem kept_execTransfer {K : State} (g : Fin 256) (q : Fin 4) (s : State) (hs : Kept K s) :
    ∀ z, execTransfer g q s = .next z → Kept K z := by
  intro z ht
  unfold execTransfer at ht
  refine kept_commandRow _ _ _ _ _ _ ?_ ?_ z ht
  all_goals (repeat' (with_reducible first | assumption | refine kept_commandRow _ _ _ _ _ _ ?_ ?_ | apply kept_startTransfer | intro _))

theorem kept_execRotate {K : State} (g : Fin 256) (q : Fin 4) (s : State) (hs : Kept K s) :
    ∀ z, execRotate g q s = .next z → Kept K z := by
  intro z ht
  unfold execRotate at ht
  refine kept_commandRow _ _ _ _ _ _ ?_ ?_ z ht
  all_goals (repeat' (with_reducible first | assumption | refine kept_commandRow _ _ _ _ _ _ ?_ ?_ | apply kept_startRotate | intro _))

theorem kept_execFence {K : State} (g : Fin 256) (q : Fin 4) (s : State) (hs : Kept K s) :
    ∀ z, execFence g q s = .next z → Kept K z := by
  intro z ht
  unfold execFence at ht
  refine kept_commandRow _ _ _ _ _ _ ?_ ?_ z ht
  all_goals (repeat' (with_reducible first | assumption | refine kept_commandRow _ _ _ _ _ _ ?_ ?_ | apply kept_startFence | intro _))

theorem kept_execStepEnd {K : State} (g : Fin 256) (q : Fin 4) (s : State) (hs : Kept K s) :
    ∀ z, execStepEnd g q s = .next z → Kept K z := by
  intro z ht
  unfold execStepEnd at ht
  refine kept_commandRow _ _ _ _ _ _ ?_ ?_ z ht
  all_goals (repeat' (with_reducible first | assumption | refine kept_commandRow _ _ _ _ _ _ ?_ ?_ | apply kept_startStepEnd | intro _))

theorem kept_execFrame {K : State} (g : Fin 256) (q : Fin 4) (s : State) (hs : Kept K s) :
    ∀ z, execFrame g q s = .next z → Kept K z := by
  intro z ht
  unfold execFrame at ht
  refine kept_commandRow _ _ _ _ _ _ ?_ ?_ z ht
  all_goals (repeat' (with_reducible first | assumption | refine kept_commandRow _ _ _ _ _ _ ?_ ?_ | apply kept_startFrame | intro _))

theorem kept_execCommandCompletion {K : State} (g : Fin 256) (q : Fin 4) (run : CmdRun) (s : State) (hs : Kept K s) :
    ∀ z, execCommandCompletion g q run s = .next z → Kept K z := by
  intro z ht
  unfold execCommandCompletion at ht
  try dsimp only at ht
  repeat' (first | contradiction | (injection ht with ht; subst ht) | split at ht)
  all_goals (try dsimp only)
  all_goals (repeat' (with_reducible first | assumption | apply kept_alive | apply kept_commandCompletion | intro _))

theorem kept_takeMirror {K : State} (s : State) (hs : Kept K s) :
    Kept K (takeMirror s) := by
  unfold takeMirror
  try dsimp only
  repeat' (with_reducible first | assumption | apply Kept.ite | apply Kept.itePair | split | ((conv => pattern (State.mk ..)); first | apply Kept.upd))

theorem kept_restBlock {K : State} (s : State) (pg : Nat) (hs : Kept K s) :
    Kept K (restBlock s pg) := by
  unfold restBlock
  try dsimp only
  repeat' (with_reducible first | assumption | apply kept_linkDrop | apply kept_dropLoads | apply Kept.ite | apply Kept.itePair | split)

theorem kept_drainDone {K : State} (s : State) (pg : Nat) (hs : Kept K s) :
    Kept K (drainDone s pg) := by
  unfold drainDone
  try dsimp only
  repeat' (with_reducible first | assumption | apply kept_restBlock | apply kept_blockDrained | apply kept_stopProgress | apply Kept.ite | apply Kept.itePair | split)

theorem kept_blockFails {K : State} (s : State) (pg : Nat) (f : PageFault) (hs : Kept K s) :
    Kept K (blockFails s pg f) := by
  unfold blockFails
  try dsimp only
  repeat' (with_reducible first | assumption | apply kept_channelFails | apply kept_pageFault | split)

theorem kept_drainRun {K : State} (s : State) (d : DrainRun) (hs : Kept K s) :
    Kept K (drainRun s d) := by
  unfold drainRun
  try dsimp only
  repeat' (with_reducible first | assumption | apply kept_takeMirror | apply kept_drainDone | apply kept_blockFails | apply Kept.ite | apply Kept.itePair | split)

theorem kept_coalExpiry {K : State} (s : State) (v : Nat) (hs : Kept K s) :
    Kept K (coalExpiry s v) := by
  unfold coalExpiry
  try dsimp only
  repeat' (with_reducible first | assumption | apply kept_vecDeliver | intro _ | apply Kept.getD | apply Kept.ite | apply Kept.itePair | split)

theorem kept_execDrainComplete {K : State} (run : DrainRun) (s : State) (hs : Kept K s) :
    ∀ z, execDrainComplete run s = .next z → Kept K z := by
  intro z ht
  unfold execDrainComplete at ht
  try dsimp only at ht
  repeat' (first | contradiction | (injection ht with ht; subst ht) | split at ht)
  all_goals (try dsimp only)
  all_goals (repeat' (with_reducible first | assumption | apply kept_alive | apply kept_drainRun | intro _))

theorem kept_execCoalUsExpiry {K : State} (vec : Fin 4096) (s : State) (hs : Kept K s) :
    ∀ z, execCoalUsExpiry vec s = .next z → Kept K z := by
  intro z ht
  unfold execCoalUsExpiry at ht
  try dsimp only at ht
  repeat' (first | contradiction | (injection ht with ht; subst ht) | split at ht)
  all_goals (try dsimp only)
  all_goals (repeat' (with_reducible first | assumption | apply kept_alive | apply kept_coalExpiry | intro _))

theorem kept_cvTake {K : State} (s : State) (x u : Nat) (bs : List Byte) (hs : Kept K s) :
    Kept K (cvTake s x u bs) := by
  unfold cvTake
  try dsimp only
  repeat' (with_reducible first | assumption | apply kept_tally | apply kept_wr)

theorem kept_cvEnd {K : State} (s : State) (x u : Nat) (hs : Kept K s) :
    Kept K (cvEnd s x u) := by
  unfold cvEnd
  try dsimp only
  repeat' (with_reducible first | assumption | apply kept_tally | apply kept_wr | apply kept_raise | apply Kept.ite | apply Kept.itePair | split)

theorem kept_cvFail {K : State} (s : State) (x u part va : Nat) (e : AccErr) (hs : Kept K s) :
    Kept K (cvFail s x u part va e) := by
  unfold cvFail
  try dsimp only
  repeat' (with_reducible first | assumption | apply kept_wr | apply kept_recordErr | apply kept_recordBad | split)

theorem kept_cvRun {K : State} (s : State) (x u : Nat) (phys : Bool) (part fuel a n : Nat) (hs : Kept K s) :
    Kept K (cvRun s x u phys part fuel a n) := by
  induction fuel generalizing s x u phys part a n with
  | zero =>
    unfold cvRun
    try dsimp only
    all_goals (repeat' (with_reducible first | assumption | apply kept_cvEnd | apply kept_cvFail | apply kept_cvTake | apply kept_healRange | apply kept_vheal | apply Kept.ite | apply Kept.itePair | split))
  | succ n ih =>
    unfold cvRun
    try dsimp only
    repeat' (with_reducible first | assumption | apply ih | apply kept_cvEnd | apply kept_cvFail | apply kept_cvTake | apply kept_healRange | apply kept_vheal | apply Kept.ite | apply Kept.itePair | split)

theorem kept_cvComplete {K : State} (s : State) (x u : Nat) (hs : Kept K s) :
    Kept K (cvComplete s x u) := by
  unfold cvComplete
  try dsimp only
  repeat' (with_reducible first | assumption | apply kept_cvRun | intro _ | apply Kept.getD | apply Kept.ite | apply Kept.itePair | split)

theorem kept_scanEnd {K : State} (s : State) (x st : Nat) (hs : Kept K s) :
    Kept K (scanEnd s x st) := by
  unfold scanEnd
  try dsimp only
  repeat' (with_reducible first | assumption | apply kept_wr | apply kept_raise | apply kept_cvEnd | apply Kept.ite | apply Kept.itePair | split)

theorem kept_scanBad {K : State} (s : State) (x a : Nat) (hs : Kept K s) :
    Kept K (scanBad s x a) := by
  unfold scanBad
  try dsimp only
  repeat' (with_reducible first | assumption | apply kept_bump | apply kept_regPut | apply kept_countBad | apply kept_raise | apply kept_recordErr | apply kept_wr | apply Kept.ite | apply Kept.itePair | split)

theorem kept_scanFeed {K : State} (s : State) (x a : Nat) (hs : Kept K s) :
    Kept K (scanFeed s x a) := by
  unfold scanFeed
  try dsimp only
  repeat' (with_reducible first | assumption | apply kept_cvTake | apply Kept.ite | apply Kept.itePair | split)

theorem kept_scanRun {K : State} (s : State) (x n a : Nat) (hs : Kept K s) :
    Kept K (scanRun s x n a) := by
  induction n generalizing s x a with
  | zero =>
    unfold scanRun
    try dsimp only
    all_goals (repeat' (with_reducible first | assumption | apply kept_scanEnd | apply kept_tally | apply kept_wr | apply kept_scanFeed | apply kept_bump | apply kept_countWords | apply kept_healGranule | apply kept_scanBad | apply Kept.ite | apply Kept.itePair | split))
  | succ n ih =>
    unfold scanRun
    try dsimp only
    repeat' (with_reducible first | assumption | apply ih | apply kept_scanEnd | apply kept_tally | apply kept_wr | apply kept_scanFeed | apply kept_bump | apply kept_countWords | apply kept_healGranule | apply kept_scanBad | apply Kept.ite | apply Kept.itePair | split)

theorem kept_scanComplete {K : State} (s : State) (x : Nat) (hs : Kept K s) :
    Kept K (scanComplete s x) := by
  unfold scanComplete
  try dsimp only
  repeat' (with_reducible first | assumption | apply kept_scanRun | apply Kept.ite | apply Kept.itePair | split)

theorem kept_scrubBad {K : State} (s : State) (a : Nat) (hs : Kept K s) :
    Kept K (scrubBad s a) := by
  unfold scrubBad
  try dsimp only
  repeat' (with_reducible first | assumption | apply kept_regPut | apply kept_bump | apply kept_countBad | apply kept_raise | apply kept_recordErr)

theorem kept_scrubGranule {K : State} (s : State) (a : Nat) (hs : Kept K s) :
    Kept K (scrubGranule s a) := by
  unfold scrubGranule
  try dsimp only
  repeat' (with_reducible first | assumption | apply kept_tally | apply kept_healGranule | apply kept_countWords | apply kept_scrubBad | split)

theorem kept_scrubCount {K : State} (s : State) (k : Nat) (hs : Kept K s) :
    Kept K (scrubCount s k) := by
  unfold scrubCount
  try dsimp only
  repeat' (with_reducible first | assumption | ((conv => pattern (State.mk ..)); first | apply Kept.upd))

theorem kept_patrolScrub {K : State} (s : State) (k : Nat) (hs : Kept K s) :
    Kept K (patrolScrub s k) := by
  unfold patrolScrub
  try dsimp only
  repeat' (with_reducible first | assumption | apply kept_tally | apply kept_scrubGranule | apply kept_scrubCount | apply kept_touchStack | apply kept_wr | apply Kept.ite | apply Kept.itePair | split)

theorem kept_cabinetScrub {K : State} (s : State) (pg bank : Nat) (hs : Kept K s) :
    Kept K (cabinetScrub s pg bank) := by
  unfold cabinetScrub
  try dsimp only
  repeat' (with_reducible first | assumption | apply kept_scrubGranule | apply kept_scrubCount | apply kept_tally | apply Kept.ite | apply Kept.itePair | split)

theorem kept_execCvRunComplete {K : State} (xdie : Fin 6) (u : Fin 8) (s : State) (hs : Kept K s) :
    ∀ z, execCvRunComplete xdie u s = .next z → Kept K z := by
  intro z ht
  unfold execCvRunComplete at ht
  try dsimp only at ht
  repeat' (first | contradiction | (injection ht with ht; subst ht) | split at ht)
  all_goals (try dsimp only)
  all_goals (repeat' (with_reducible first | assumption | apply kept_alive | apply kept_cvComplete | intro _))

theorem kept_execScanComplete {K : State} (xdie : Fin 6) (s : State) (hs : Kept K s) :
    ∀ z, execScanComplete xdie s = .next z → Kept K z := by
  intro z ht
  unfold execScanComplete at ht
  try dsimp only at ht
  repeat' (first | contradiction | (injection ht with ht; subst ht) | split at ht)
  all_goals (try dsimp only)
  all_goals (repeat' (with_reducible first | assumption | apply kept_alive | apply kept_scanComplete | intro _))

theorem kept_execPatrolScrub {K : State} (stack : Nat) (s : State) (hs : Kept K s) :
    ∀ z, execPatrolScrub stack s = .next z → Kept K z := by
  intro z ht
  unfold execPatrolScrub at ht
  try dsimp only at ht
  repeat' (first | contradiction | (injection ht with ht; subst ht) | split at ht)
  all_goals (try dsimp only)
  all_goals (repeat' (with_reducible first | assumption | apply kept_alive | apply kept_patrolScrub | intro _ | apply Kept.ite | apply Kept.itePair | split))

theorem kept_execCabinetScrub {K : State} (g : GalRef) (bank : Fin 64) (s : State) (hs : Kept K s) :
    ∀ z, execCabinetScrub g bank s = .next z → Kept K z := by
  intro z ht
  unfold execCabinetScrub at ht
  try dsimp only at ht
  repeat' (first | contradiction | (injection ht with ht; subst ht) | split at ht)
  all_goals (try dsimp only)
  all_goals (repeat' (with_reducible first | assumption | apply kept_alive | apply kept_cabinetScrub | intro _))

theorem kept_mailRow {K : State} (s : State) (i k op : Nat) (f : State → List Byte → State × MailEnd) (hs : Kept K s) (hf : ∀ x0 x1, Kept K x0 → Kept K (f x0 x1).1) :
    Kept K (mailRow s i k op f) := by
  unfold mailRow
  try dsimp only
  repeat' (with_reducible first | assumption | apply kept_mailDone | apply kept_journalOpen | apply kept_mbxPut | apply hf | refine Kept.fst ?_ ‹_› | intro _ | apply Kept.ite | apply Kept.itePair | split)

theorem kept_mailAuthSet {K : State} (s : State) (b : List Byte) (hs : Kept K s) :
    Kept K (mailAuthSet s b).1 := by
  unfold mailAuthSet
  try dsimp only
  repeat' (with_reducible first | assumption | apply kept_putRecord | apply Kept.ite | apply Kept.itePair | split)

theorem kept_mailAuthDel {K : State} (s : State) (b : List Byte) (hs : Kept K s) :
    Kept K (mailAuthDel s b).1 := by
  unfold mailAuthDel
  try dsimp only
  repeat' (with_reducible first | assumption | apply kept_putRecord)

theorem kept_mailSessOpen {K : State} (s : State) (i k : Nat) (b : List Byte) (hs : Kept K s) :
    Kept K (mailSessOpen s i k b).1 := by
  unfold mailSessOpen
  try dsimp only
  repeat' (with_reducible first | assumption | refine kept_sendInit _ _ _ _ _ _ _ ?_ | refine Kept.osome ?_ ‹_› | intro _ | apply Kept.ite | apply Kept.itePair | split)

theorem kept_mailSessClose {K : State} (s : State) (b : List Byte) (hs : Kept K s) :
    Kept K (mailSessClose s b).1 := by
  unfold mailSessClose
  try dsimp only
  repeat' (with_reducible first | assumption | apply kept_closeWith | apply Kept.ite | apply Kept.itePair | split)

theorem kept_mailVecSet {K : State} (s : State) (b : List Byte) (hs : Kept K s) :
    Kept K (mailVecSet s b).1 := by
  unfold mailVecSet
  try dsimp only
  repeat' (with_reducible first | assumption | apply kept_journalled | apply kept_regPut | apply Kept.ite | apply Kept.itePair | split)

theorem kept_mailMcastSet {K : State} (s : State) (b : List Byte) (hs : Kept K s) :
    Kept K (mailMcastSet s b).1 := by
  unfold mailMcastSet
  try dsimp only
  repeat' (with_reducible first | assumption | refine kept_mcastPut _ _ _ ?_ | apply kept_putRecord | refine Kept.osome ?_ ‹_› | intro _ | apply Kept.ite | apply Kept.itePair | split)

theorem kept_mailMcastDel {K : State} (s : State) (b : List Byte) (hs : Kept K s) :
    Kept K (mailMcastDel s b).1 := by
  unfold mailMcastDel
  try dsimp only
  repeat' (with_reducible first | assumption | apply kept_mcastDrop | apply kept_putRecord | apply Kept.ite | apply Kept.itePair | split)

theorem kept_mailReset {K : State} (s : State) (b : List Byte) (hs : Kept K s) :
    Kept K (mailReset s b).1 := by
  unfold mailReset
  try dsimp only
  repeat' (with_reducible first | assumption | apply kept_wr | apply kept_journalOpen | apply Kept.ite | apply Kept.itePair | split | ((conv => pattern (State.mk ..)); first | apply Kept.upd))

theorem kept_mailUpdate {K : State} (s : State) (i k : Nat) (b : List Byte) (hs : Kept K s) :
    Kept K (mailUpdate s i k b).1 := by
  unfold mailUpdate
  try dsimp only
  repeat' (with_reducible first | assumption | apply kept_setRole | apply kept_showUpdate | apply kept_runImage | apply Kept.ite | apply Kept.itePair | split | ((conv => pattern (State.mk ..)); first | apply Kept.upd))

theorem kept_mailAttest {K : State} (s : State) (b : List Byte) (hs : Kept K s) :
    Kept K (mailAttest s b).1 := by
  unfold mailAttest
  try dsimp only
  repeat' (with_reducible first | assumption | split)

theorem kept_svnAdvance {K : State} (s : State) (a : Nat) (hs : Kept K s) :
    Kept K (svnAdvance s a) := by
  unfold svnAdvance
  try dsimp only
  repeat' (with_reducible first | assumption | ((conv => pattern (State.mk ..)); first | apply Kept.upd | refine Kept.updFuses (fuses_svn _ _) ?_ | refine Kept.updFuses (fuses_or _ _) ?_))

theorem kept_mailSvn {K : State} (s : State) (hs : Kept K s) :
    Kept K (mailSvn s).1 := by
  unfold mailSvn
  try dsimp only
  repeat' (with_reducible first | assumption | apply kept_svnAdvance | apply kept_journalled | apply Kept.ite | apply Kept.itePair | split)

theorem kept_mailRevoke {K : State} (s : State) (b : List Byte) (hs : Kept K s) :
    Kept K (mailRevoke s b).1 := by
  unfold mailRevoke
  try dsimp only
  repeat' (with_reducible first | assumption | apply kept_journalled | apply Kept.ite | apply Kept.itePair | split | ((conv => pattern (State.mk ..)); first | apply Kept.upd | refine Kept.updFuses (fuses_svn _ _) ?_ | refine Kept.updFuses (fuses_or _ _) ?_))

theorem kept_execAuthSet {K : State} (session : Half) (k : Fin 16) (s : State) (hs : Kept K s) :
    ∀ z, execAuthSet session k s = .next z → Kept K z := by
  intro z ht
  unfold execAuthSet at ht
  try dsimp only at ht
  repeat' (first | contradiction | (injection ht with ht; subst ht) | split at ht)
  all_goals (try dsimp only)
  all_goals (repeat' (with_reducible first | assumption | apply kept_alive | apply kept_mailRow | apply kept_mailAuthSet | refine Kept.fst ?_ ‹_› | intro _ | split))

theorem kept_execAuthDel {K : State} (session : Half) (k : Fin 16) (s : State) (hs : Kept K s) :
    ∀ z, execAuthDel session k s = .next z → Kept K z := by
  intro z ht
  unfold execAuthDel at ht
  try dsimp only at ht
  repeat' (first | contradiction | (injection ht with ht; subst ht) | split at ht)
  all_goals (try dsimp only)
  all_goals (repeat' (with_reducible first | assumption | apply kept_alive | apply kept_mailRow | apply kept_mailAuthDel | refine Kept.fst ?_ ‹_› | intro _ | split))

theorem kept_execSessOpen {K : State} (session : Half) (k : Fin 16) (s : State) (hs : Kept K s) :
    ∀ z, execSessOpen session k s = .next z → Kept K z := by
  intro z ht
  unfold execSessOpen at ht
  try dsimp only at ht
  repeat' (first | contradiction | (injection ht with ht; subst ht) | split at ht)
  all_goals (try dsimp only)
  all_goals (repeat' (with_reducible first | assumption | apply kept_alive | apply kept_mailRow | apply kept_mailSessOpen | refine Kept.fst ?_ ‹_› | intro _ | split))

theorem kept_execSessClose {K : State} (session : Half) (k : Fin 16) (s : State) (hs : Kept K s) :
    ∀ z, execSessClose session k s = .next z → Kept K z := by
  intro z ht
  unfold execSessClose at ht
  try dsimp only at ht
  repeat' (first | contradiction | (injection ht with ht; subst ht) | split at ht)
  all_goals (try dsimp only)
  all_goals (repeat' (with_reducible first | assumption | apply kept_alive | apply kept_mailRow | apply kept_mailSessClose | refine Kept.fst ?_ ‹_› | intro _ | split))

theorem kept_execVecSet {K : State} (session : Half) (k : Fin 16) (s : State) (hs : Kept K s) :
    ∀ z, execVecSet session k s = .next z → Kept K z := by
  intro z ht
  unfold execVecSet at ht
  try dsimp only at ht
  repeat' (first | contradiction | (injection ht with ht; subst ht) | split at ht)
  all_goals (try dsimp only)
  all_goals (repeat' (with_reducible first | assumption | apply kept_alive | apply kept_mailRow | apply kept_mailVecSet | refine Kept.fst ?_ ‹_› | intro _ | split))

theorem kept_execMcastSet {K : State} (session : Half) (k : Fin 16) (s : State) (hs : Kept K s) :
    ∀ z, execMcastSet session k s = .next z → Kept K z := by
  intro z ht
  unfold execMcastSet at ht
  try dsimp only at ht
  repeat' (first | contradiction | (injection ht with ht; subst ht) | split at ht)
  all_goals (try dsimp only)
  all_goals (repeat' (with_reducible first | assumption | apply kept_alive | apply kept_mailRow | apply kept_mailMcastSet | refine Kept.fst ?_ ‹_› | intro _ | split))

theorem kept_execMcastDel {K : State} (session : Half) (k : Fin 16) (s : State) (hs : Kept K s) :
    ∀ z, execMcastDel session k s = .next z → Kept K z := by
  intro z ht
  unfold execMcastDel at ht
  try dsimp only at ht
  repeat' (first | contradiction | (injection ht with ht; subst ht) | split at ht)
  all_goals (try dsimp only)
  all_goals (repeat' (with_reducible first | assumption | apply kept_alive | apply kept_mailRow | apply kept_mailMcastDel | refine Kept.fst ?_ ‹_› | intro _ | split))

theorem kept_execMailboxReset {K : State} (session : Half) (k : Fin 16) (s : State) (hs : Kept K s) :
    ∀ z, execMailboxReset session k s = .next z → Kept K z := by
  intro z ht
  unfold execMailboxReset at ht
  try dsimp only at ht
  repeat' (first | contradiction | (injection ht with ht; subst ht) | split at ht)
  all_goals (try dsimp only)
  all_goals (repeat' (with_reducible first | assumption | apply kept_alive | apply kept_mailRow | apply kept_mailReset | refine Kept.fst ?_ ‹_› | intro _ | split))

theorem kept_execUpdate {K : State} (session : Half) (k : Fin 16) (s : State) (hs : Kept K s) :
    ∀ z, execUpdate session k s = .next z → Kept K z := by
  intro z ht
  unfold execUpdate at ht
  try dsimp only at ht
  repeat' (first | contradiction | (injection ht with ht; subst ht) | split at ht)
  all_goals (try dsimp only)
  all_goals (repeat' (with_reducible first | assumption | apply kept_alive | apply kept_mailRow | apply kept_mailUpdate | refine Kept.fst ?_ ‹_› | intro _ | split))

theorem kept_execAttest {K : State} (session : Half) (k : Fin 16) (s : State) (hs : Kept K s) :
    ∀ z, execAttest session k s = .next z → Kept K z := by
  intro z ht
  unfold execAttest at ht
  try dsimp only at ht
  repeat' (first | contradiction | (injection ht with ht; subst ht) | split at ht)
  all_goals (try dsimp only)
  all_goals (repeat' (with_reducible first | assumption | apply kept_alive | apply kept_mailRow | apply kept_mailAttest | refine Kept.fst ?_ ‹_› | intro _ | split))

theorem kept_execSvnAdvance {K : State} (session : Half) (k : Fin 16) (s : State) (hs : Kept K s) :
    ∀ z, execSvnAdvance session k s = .next z → Kept K z := by
  intro z ht
  unfold execSvnAdvance at ht
  try dsimp only at ht
  repeat' (first | contradiction | (injection ht with ht; subst ht) | split at ht)
  all_goals (try dsimp only)
  all_goals (repeat' (with_reducible first | assumption | apply kept_alive | apply kept_mailRow | apply kept_mailSvn | refine Kept.fst ?_ ‹_› | intro _ | split))

theorem kept_execKeyRevoke {K : State} (session : Half) (k : Fin 16) (s : State) (hs : Kept K s) :
    ∀ z, execKeyRevoke session k s = .next z → Kept K z := by
  intro z ht
  unfold execKeyRevoke at ht
  try dsimp only at ht
  repeat' (first | contradiction | (injection ht with ht; subst ht) | split at ht)
  all_goals (try dsimp only)
  all_goals (repeat' (with_reducible first | assumption | apply kept_alive | apply kept_mailRow | apply kept_mailRevoke | refine Kept.fst ?_ ‹_› | intro _ | split))

theorem kept_counterOverflow {K : State} (s : State) (pg i w : Nat) (hs : Kept K s) :
    Kept K (counterOverflow s pg i w) := by
  unfold counterOverflow
  try dsimp only
  repeat' (with_reducible first | assumption | apply kept_tally | apply Kept.ite | apply Kept.itePair | split)

theorem kept_streamStore {K : State} (s : State) (j a : Nat) (bs : List Byte) (hs : Kept K s) :
    Kept K (streamStore s j a bs).1 := by
  unfold streamStore
  try dsimp only
  repeat' (with_reducible first | assumption | apply kept_store | apply kept_vstore | refine Kept.fst ?_ ‹_› | apply Kept.ite | apply Kept.itePair | split)

theorem kept_streamFail {K : State} (s : State) (j va : Nat) (e : AccErr) (hs : Kept K s) :
    Kept K (streamFail s j va e) := by
  unfold streamFail
  try dsimp only
  repeat' (with_reducible first | assumption | apply kept_tally | apply kept_streamOff | apply kept_raise | apply kept_recordErr | apply kept_recordBad | apply Kept.ite | apply Kept.itePair | split)

theorem kept_streamPut {K : State} (s : State) (j : Nat) (x : Stream) (hs : Kept K s) :
    Kept K (streamPut s j x) := by
  unfold streamPut
  try dsimp only
  repeat' (with_reducible first | assumption | ((conv => pattern (State.mk ..)); first | apply Kept.upd))

theorem kept_missSamples {K : State} (s : State) (j n : Nat) (event : Bool) (hs : Kept K s) :
    Kept K (missSamples s j n event) := by
  unfold missSamples
  try dsimp only
  repeat' (with_reducible first | assumption | apply kept_tally | apply kept_bump | apply kept_raise | apply kept_streamPut | apply Kept.ite | apply Kept.itePair | split)

theorem kept_writeSample {K : State} (s : State) (j : Nat) (x : Stream) (hs : Kept K s) :
    Kept K (writeSample s j x).1 := by
  unfold writeSample
  try dsimp only
  repeat' (with_reducible first | assumption | apply kept_streamStore | apply kept_tally | refine Kept.fst ?_ ‹_› | split)

theorem kept_dumpSample {K : State} (s : State) (j : Nat) (hs : Kept K s) :
    Kept K (dumpSample s j) := by
  unfold dumpSample
  try dsimp only
  repeat' (with_reducible first | assumption | apply kept_writeSample | apply kept_streamFail | apply kept_missSamples | apply kept_wr | apply kept_streamPut | refine Kept.fst ?_ ‹_› | apply Kept.ite | apply Kept.itePair | split)

theorem kept_provenance {K : State} (s : State) (op : MicroOp) (hs : Kept K s) :
    Kept K (provenance s op) := by
  unfold provenance
  try dsimp only
  repeat' (with_reducible first | assumption | apply kept_tally | apply kept_vstore | apply kept_wr | apply kept_recordErr | apply kept_recordBad | apply kept_raise | refine Kept.fst ?_ ‹_› | apply Kept.ite | apply Kept.itePair | split)

theorem kept_obsPut {K : State} (s : State) (o : Obs) (hs : Kept K s) :
    Kept K (obsPut s o) := by
  unfold obsPut
  try dsimp only
  repeat' (with_reducible first | assumption | ((conv => pattern (State.mk ..)); first | apply Kept.upd))

theorem kept_trigOut {K : State} (s : State) (hs : Kept K s) :
    Kept K (trigOut s) := by
  unfold trigOut
  try dsimp only
  repeat' (with_reducible first | assumption | apply kept_wr | apply kept_obsPut | apply Kept.ite | apply Kept.itePair | split)

theorem kept_obsFrame {K : State} (s : State) (n : Nat) (hs : Kept K s) :
    Kept K (obsFrame s n) := by
  unfold obsFrame
  try dsimp only
  repeat' (with_reducible first | assumption | apply kept_emit | apply kept_obsPut | apply kept_trigOut | apply Kept.ite | apply Kept.itePair | split)

theorem kept_trigIn {K : State} (s : State) (hs : Kept K s) :
    Kept K (trigIn s) := by
  unfold trigIn
  try dsimp only
  repeat' (with_reducible first | assumption | apply kept_wr | apply kept_obsPut | apply Kept.ite | apply Kept.itePair | split)

theorem kept_trigPostStop {K : State} (s : State) (hs : Kept K s) :
    Kept K (trigPostStop s) := by
  unfold trigPostStop
  try dsimp only
  repeat' (with_reducible first | assumption | apply kept_wr | apply kept_obsPut | apply Kept.ite | apply Kept.itePair | split)

theorem kept_trigRestart {K : State} (s : State) (hs : Kept K s) :
    Kept K (trigRestart s) := by
  unfold trigRestart
  try dsimp only
  repeat' (with_reducible first | assumption | apply kept_wr | apply kept_obsPut)

theorem kept_trigOutEnd {K : State} (s : State) (hs : Kept K s) :
    Kept K (trigOutEnd s) := by
  unfold trigOutEnd
  try dsimp only
  repeat' (with_reducible first | assumption | apply kept_obsPut | apply Kept.ite | apply Kept.itePair | split)

theorem kept_unlockNew {K : State} (s : State) (hs : Kept K s) :
    Kept K (unlockNew s) := by
  unfold unlockNew
  try dsimp only
  repeat' (with_reducible first | assumption | apply kept_regPut | apply kept_putRecord | apply kept_obsPut | apply kept_foldl | apply kept_foldlPair | intro _ | split)

theorem kept_unlockCheck {K : State} (s : State) (hs : Kept K s) :
    Kept K (unlockCheck s) := by
  unfold unlockCheck
  try dsimp only
  repeat' (with_reducible first | assumption | apply kept_wr | apply kept_obsPut | apply Kept.ite | apply Kept.itePair | split)

theorem kept_unlockLock {K : State} (s : State) (hs : Kept K s) :
    Kept K (unlockLock s) := by
  unfold unlockLock
  try dsimp only
  repeat' (with_reducible first | assumption | apply kept_wr)

theorem kept_jtag {K : State} (s : State) (code : Nat) (hs : Kept K s) :
    Kept K (jtag s code) := by
  unfold jtag
  try dsimp only
  repeat' (with_reducible first | assumption | apply kept_nextFree | apply kept_emit | apply kept_obsPut | refine Kept.fst ?_ ‹_› | apply Kept.ite | apply Kept.itePair | split)

theorem kept_preload {K : State} (s : State) (cells : Nat) (hs : Kept K s) :
    Kept K (preload s cells) := by
  unfold preload
  try dsimp only
  repeat' (with_reducible first | assumption | apply kept_jtag | apply kept_obsPut | apply Kept.ite | apply Kept.itePair | split)

theorem kept_execCounterOverflow {K : State} (page : BitVec 12) (i : Fin 248) (weight : BitVec 48) (s : State) (hs : Kept K s) :
    ∀ z, execCounterOverflow page i weight s = .next z → Kept K z := by
  intro z ht
  unfold execCounterOverflow at ht
  try dsimp only at ht
  repeat' (first | contradiction | (injection ht with ht; subst ht) | split at ht)
  all_goals (try dsimp only)
  all_goals (repeat' (with_reducible first | assumption | apply kept_alive | apply kept_counterOverflow | intro _))

theorem kept_execDumpSample {K : State} (j : Fin 16) (s : State) (hs : Kept K s) :
    ∀ z, execDumpSample j s = .next z → Kept K z := by
  intro z ht
  unfold execDumpSample at ht
  try dsimp only at ht
  repeat' (first | contradiction | (injection ht with ht; subst ht) | split at ht)
  all_goals (try dsimp only)
  all_goals (repeat' (with_reducible first | assumption | apply kept_alive | apply kept_dumpSample | intro _))

theorem kept_execProvenanceRecord {K : State} (op : MicroOp) (s : State) (hs : Kept K s) :
    ∀ z, execProvenanceRecord op s = .next z → Kept K z := by
  intro z ht
  unfold execProvenanceRecord at ht
  try dsimp only at ht
  repeat' (first | contradiction | (injection ht with ht; subst ht) | split at ht)
  all_goals (try dsimp only)
  all_goals (repeat' (with_reducible first | assumption | apply kept_alive | apply kept_provenance | intro _))

theorem kept_execTrigIn {K : State} (s : State) (hs : Kept K s) :
    ∀ z, execTrigIn s = .next z → Kept K z := by
  intro z ht
  unfold execTrigIn at ht
  try dsimp only at ht
  repeat' (first | contradiction | (injection ht with ht; subst ht) | split at ht)
  all_goals (try dsimp only)
  all_goals (repeat' (with_reducible first | assumption | apply kept_alive | apply kept_trigIn | intro _))

theorem kept_execTrigPostStop {K : State} (s : State) (hs : Kept K s) :
    ∀ z, execTrigPostStop s = .next z → Kept K z := by
  intro z ht
  unfold execTrigPostStop at ht
  try dsimp only at ht
  repeat' (first | contradiction | (injection ht with ht; subst ht) | split at ht)
  all_goals (try dsimp only)
  all_goals (repeat' (with_reducible first | assumption | apply kept_alive | apply kept_trigPostStop | intro _))

theorem kept_execTrigOutPulseEnd {K : State} (s : State) (hs : Kept K s) :
    ∀ z, execTrigOutPulseEnd s = .next z → Kept K z := by
  intro z ht
  unfold execTrigOutPulseEnd at ht
  try dsimp only at ht
  repeat' (first | contradiction | (injection ht with ht; subst ht) | split at ht)
  all_goals (try dsimp only)
  all_goals (repeat' (with_reducible first | assumption | apply kept_alive | apply kept_trigOutEnd | intro _))

theorem kept_execObservationFrame {K : State} (pin : Fin 16) (s : State) (hs : Kept K s) :
    ∀ z, execObservationFrame pin s = .next z → Kept K z := by
  intro z ht
  unfold execObservationFrame at ht
  try dsimp only at ht
  repeat' (first | contradiction | (injection ht with ht; subst ht) | split at ht)
  all_goals (try dsimp only)
  all_goals (repeat' (with_reducible first | assumption | apply kept_alive | apply kept_obsFrame | intro _))

theorem kept_execExtest {K : State} (s : State) (hs : Kept K s) :
    ∀ z, execExtest s = .next z → Kept K z := by
  intro z ht
  unfold execExtest at ht
  try dsimp only at ht
  repeat' (first | contradiction | (injection ht with ht; subst ht) | split at ht)
  all_goals (try dsimp only)
  all_goals (repeat' (with_reducible first | assumption | apply kept_jtag))

theorem kept_execSamplePreload {K : State} (cells : BitVec 26) (s : State) (hs : Kept K s) :
    ∀ z, execSamplePreload cells s = .next z → Kept K z := by
  intro z ht
  unfold execSamplePreload at ht
  try dsimp only at ht
  repeat' (first | contradiction | (injection ht with ht; subst ht) | split at ht)
  all_goals (try dsimp only)
  all_goals (repeat' (with_reducible first | assumption | apply kept_preload))

theorem kept_execIdcode {K : State} (s : State) (hs : Kept K s) :
    ∀ z, execIdcode s = .next z → Kept K z := by
  intro z ht
  unfold execIdcode at ht
  try dsimp only at ht
  repeat' (first | contradiction | (injection ht with ht; subst ht) | split at ht)
  all_goals (try dsimp only)
  all_goals (repeat' (with_reducible first | assumption | apply kept_jtag))

theorem kept_execBypass {K : State} (s : State) (hs : Kept K s) :
    ∀ z, execBypass s = .next z → Kept K z := by
  intro z ht
  unfold execBypass at ht
  try dsimp only at ht
  repeat' (first | contradiction | (injection ht with ht; subst ht) | split at ht)
  all_goals (try dsimp only)
  all_goals (repeat' (with_reducible first | assumption | apply kept_jtag))

theorem kept_execTrstNAssert {K : State} (s : State) (hs : Kept K s) :
    ∀ z, execTrstNAssert s = .next z → Kept K z := by
  intro z ht
  unfold execTrstNAssert at ht
  try dsimp only at ht
  repeat' (first | contradiction | (injection ht with ht; subst ht) | split at ht)
  all_goals (try dsimp only)
  all_goals (repeat' (with_reducible first | assumption | apply kept_obsPut))

theorem kept_vaultPieces {K : State} (s : State) (p base : Nat) (ps : List (Nat × List Byte)) (hs : Kept K s) :
    Kept K (vaultPieces s p base ps).1 := by
  unfold vaultPieces
  try dsimp only
  repeat' (with_reducible first | assumption | apply kept_vaultWrite | apply kept_tally | apply kept_foldl | apply kept_foldlPair | refine Kept.fst ?_ ‹_› | intro _ | split)

theorem kept_vaultStream {K : State} (s : State) (p : Nat) (hs : Kept K s) :
    Kept K (vaultStream s p) := by
  unfold vaultStream
  try dsimp only
  repeat' (with_reducible first | assumption | apply kept_vaultWrite | apply kept_resPut | apply kept_recordAccess | apply kept_vaultPieces | refine Kept.fst ?_ ‹_› | apply Kept.ite | apply Kept.itePair | split)

theorem kept_halfSealed {K : State} (s : State) (p : Nat) (hs : Kept K s) :
    Kept K (halfSealed s p) := by
  unfold halfSealed
  try dsimp only
  repeat' (with_reducible first | assumption | apply kept_vaultWrite | apply kept_tally | apply kept_resPut | refine Kept.fst ?_ ‹_› | apply Kept.ite | apply Kept.itePair | split)

theorem kept_flashWrite {K : State} (s : State) (p slot fuel off : Nat) (bs : List Byte) (hs : Kept K s) :
    Kept K (flashWrite s p slot fuel off bs).1 := by
  induction fuel generalizing s p slot off bs with
  | zero =>
    unfold flashWrite
    try dsimp only
    all_goals (repeat' (with_reducible first | assumption | apply kept_store | refine Kept.fst ?_ ‹_› | apply Kept.ite | apply Kept.itePair | split))
  | succ n ih =>
    unfold flashWrite
    try dsimp only
    repeat' (with_reducible first | assumption | apply ih | apply kept_store | refine Kept.fst ?_ ‹_› | apply Kept.ite | apply Kept.itePair | split)

theorem kept_flashImageTo {K : State} (s : State) (p slot c : Nat) (hs : Kept K s) :
    Kept K (flashImageTo s p slot c).1 := by
  unfold flashImageTo
  try dsimp only
  repeat' (with_reducible first | assumption | apply kept_resPut | apply kept_recordAccess | apply kept_flashWrite | apply kept_imageSkipped | apply kept_recordErr | apply kept_tally | apply kept_foldl | apply kept_foldlPair | refine Kept.fst ?_ ‹_› | intro _ | split)

theorem kept_flashImage {K : State} (s : State) (p : Nat) (hs : Kept K s) :
    Kept K (flashImage s p) := by
  unfold flashImage
  try dsimp only
  repeat' (with_reducible first | assumption | apply kept_flashImageTo | apply kept_resPut | refine Kept.fst ?_ ‹_› | apply Kept.ite | apply Kept.itePair | split)

theorem kept_flashDone {K : State} (s : State) (p : Nat) (hs : Kept K s) :
    Kept K (flashDone s p) := by
  unfold flashDone
  try dsimp only
  repeat' (with_reducible first | assumption | apply kept_resPut | apply kept_store | apply kept_tally | apply kept_raise | refine Kept.fst ?_ ‹_› | split)

theorem kept_storeStart {K : State} (s : State) (p : Nat) (hs : Kept K s) :
    Kept K (storeStart s p) := by
  unfold storeStart
  try dsimp only
  repeat' (with_reducible first | assumption | apply kept_nextFree | apply kept_sendWrite | apply kept_tally | apply kept_resPut | apply kept_recordBad | apply kept_foldl | apply kept_foldlPair | refine Kept.fst ?_ ‹_› | intro _ | split)

theorem kept_storeCopy {K : State} (s : State) (p : Nat) (hs : Kept K s) :
    Kept K (storeCopy s p) := by
  unfold storeCopy
  try dsimp only
  repeat' (with_reducible first | assumption | apply kept_resPut | apply kept_storeStart | apply Kept.ite | apply Kept.itePair | split)

theorem kept_resAcked {K : State} (s : State) (i p : Nat) (msg : Word32) (hs : Kept K s) :
    Kept K (resAcked s i p msg) := by
  unfold resAcked
  try dsimp only
  repeat' (with_reducible first | assumption | apply kept_resPut | apply kept_tally | apply kept_raise | apply kept_recordErr | intro _ | apply Kept.getD | apply Kept.ite | apply Kept.itePair | split)

theorem kept_resRefused {K : State} (s : State) (i p : Nat) (msg : Word32) (hs : Kept K s) :
    Kept K (resRefused s i p msg) := by
  unfold resRefused
  try dsimp only
  repeat' (with_reducible first | assumption | apply kept_vaultFailed | apply kept_resPut | apply Kept.ite | apply Kept.itePair | split)

theorem kept_collAcked {K : State} (s : State) (i p : Nat) (msg : Word32) (hs : Kept K s) :
    Kept K (collAcked s i p msg) := by
  unfold collAcked
  try dsimp only
  repeat' (with_reducible first | assumption | apply kept_partPut | apply Kept.ite | apply Kept.itePair | split)

theorem kept_collRefused {K : State} (s : State) (i p : Nat) (msg : Word32) (code : Nat) (hs : Kept K s) :
    Kept K (collRefused s i p msg code) := by
  unfold collRefused
  try dsimp only
  repeat' (with_reducible first | assumption | apply kept_redFail | apply kept_collAcked | apply kept_foldl | apply kept_foldlPair | intro _ | split)

theorem kept_holdCleared {K : State} (s : State) (p : Nat) (hs : Kept K s) :
    Kept K (holdCleared s p) := by
  unfold holdCleared
  try dsimp only
  repeat' (with_reducible first | assumption | apply kept_applyResult | apply kept_combinePump | split)

theorem kept_resRow {K : State} (s : State) (p op : Nat) (f : State → State) (hs : Kept K s) (hf : ∀ x0, Kept K x0 → Kept K (f x0)) :
    Kept K (resRow s p op f) := by
  unfold resRow
  try dsimp only
  repeat' (with_reducible first | assumption | apply kept_resEnd | apply hf | intro _ | apply Kept.ite | apply Kept.itePair | split)

theorem kept_clearWires {K : State} (s : State) (p g n : Nat) (hs : Kept K s) :
    Kept K (clearWires s p g n) := by
  unfold clearWires
  try dsimp only
  repeat' (with_reducible first | assumption | apply kept_skipEntry | apply kept_foldl | apply kept_foldlPair | intro _ | split)

theorem kept_resRestart {K : State} (s : State) (p : Nat) (hs : Kept K s) :
    Kept K (resRestart s p) := by
  unfold resRestart
  try dsimp only
  repeat' (with_reducible first | assumption | apply kept_resEnd | apply kept_clearWires | apply kept_partPut | apply kept_slotRecord | apply kept_collStart | apply kept_redFire | apply kept_foldl | apply kept_foldlPair | intro _ | apply Kept.ite | apply Kept.itePair | split)

theorem kept_resFinish {K : State} (s : State) (p : Nat) (hs : Kept K s) :
    Kept K (resFinish s p) := by
  unfold resFinish
  try dsimp only
  repeat' (with_reducible first | assumption | apply kept_resEnd | apply kept_sendCombine | apply kept_foldl | apply kept_foldlPair | intro _ | apply Kept.ite | apply Kept.itePair | split)

theorem kept_restoreEnd {K : State} (s : State) (p code : Nat) (hs : Kept K s) :
    Kept K (restoreEnd s p code) := by
  unfold restoreEnd
  try dsimp only
  repeat' (with_reducible first | assumption | apply kept_resEnd | apply kept_resPut)

theorem kept_restoreRead {K : State} (s : State) (p i addr len at_ : Nat) (hs : Kept K s) :
    Kept K (restoreRead s p i addr len at_) := by
  unfold restoreRead
  try dsimp only
  repeat' (with_reducible first | assumption | apply kept_peerEpoch | apply kept_sendRead | apply kept_foldl | apply kept_foldlPair | refine Kept.fst ?_ ‹_› | intro _ | split)

theorem kept_resRestore {K : State} (s : State) (p : Nat) (hs : Kept K s) :
    Kept K (resRestore s p) := by
  unfold resRestore
  try dsimp only
  repeat' (with_reducible first | assumption | apply kept_restoreEnd | apply kept_resEnd | apply kept_readDesc | apply kept_restoreRead | apply kept_resPut | refine Kept.fst ?_ ‹_› | apply Kept.ite | apply Kept.itePair | split)

theorem kept_restoreShard {K : State} (s : State) (p : Nat) (b : List Byte) (dir : List (List Byte)) (d : List Byte) (hs : Kept K s) :
    Kept K (restoreShard s p b dir d).1 := by
  unfold restoreShard
  try dsimp only
  repeat' (with_reducible first | assumption | apply kept_vstore | apply kept_foldl | apply kept_foldlPair | refine Kept.fst ?_ ‹_› | intro _ | split)

theorem kept_restoreShards {K : State} (s : State) (p : Nat) (b : List Byte) (dir ds : List (List Byte)) (hs : Kept K s) :
    Kept K (restoreShards s p b dir ds).1 := by
  induction ds generalizing s p b dir with
  | nil =>
    unfold restoreShards
    try dsimp only
    all_goals (repeat' (with_reducible first | assumption | apply kept_restoreShard | refine Kept.fst ?_ ‹_› | split))
  | cons e r ih =>
    unfold restoreShards
    try dsimp only
    repeat' (with_reducible first | assumption | apply ih | apply kept_restoreShard | refine Kept.fst ?_ ‹_› | split)

theorem kept_restoreCommon {K : State} (s : State) (p : Nat) (cs : List (Nat × Nat)) (b : List Byte) (hs : Kept K s) :
    Kept K (restoreCommon s p cs b).1 := by
  induction cs generalizing s p b with
  | nil =>
    unfold restoreCommon
    try dsimp only
    all_goals (repeat' (with_reducible first | assumption | apply kept_vstore | refine Kept.fst ?_ ‹_› | split))
  | cons e r ih =>
    unfold restoreCommon
    try dsimp only
    repeat' (with_reducible first | assumption | apply ih | apply kept_vstore | refine Kept.fst ?_ ‹_› | split)

theorem kept_putImageWord {K : State} (s : State) (v a w : Nat) (hs : Kept K s) :
    Kept K (putImageWord s v a w) := by
  unfold putImageWord
  try dsimp only
  repeat' (with_reducible first | assumption | apply kept_wr | apply kept_regPut | apply Kept.ite | apply Kept.itePair | split)

theorem kept_putImage {K : State} (s : State) (p v : Nat) (b : List Byte) (hs : Kept K s) :
    Kept K (putImage s p v b) := by
  unfold putImage
  try dsimp only
  repeat' (with_reducible first | assumption | apply kept_putImageWord | apply kept_wr | apply kept_partPut | apply kept_foldl | apply kept_foldlPair | intro _ | split)

theorem kept_entriesClear {K : State} (s : State) (p : Nat) (hs : Kept K s) :
    Kept K (entriesClear s p) := by
  unfold entriesClear
  try dsimp only
  repeat' (with_reducible first | assumption | apply kept_skipEntry | apply kept_foldl | apply kept_foldlPair | intro _ | split)

theorem kept_restoreFinish {K : State} (s : State) (p : Nat) (r : Restore) (common : List Byte) (hs : Kept K s) :
    Kept K (restoreFinish s p r common) := by
  unfold restoreFinish
  try dsimp only
  repeat' (with_reducible first | assumption | apply kept_restoreEnd | apply kept_recordAccess | apply kept_restoreCommon | apply kept_putImage | apply kept_entriesClear | refine Kept.fst ?_ ‹_› | split)

theorem kept_restoreHalf {K : State} (s : State) (p : Nat) (r : Restore) (b : List Byte) (hs : Kept K s) :
    Kept K (restoreHalf s p r b) := by
  unfold restoreHalf
  try dsimp only
  repeat' (with_reducible first | assumption | apply kept_restoreEnd | apply kept_recordAccess | apply kept_restoreShards | apply kept_restoreFinish | apply kept_restoreRead | apply kept_resPut | apply kept_foldl | apply kept_foldlPair | refine Kept.fst ?_ ‹_› | intro _ | apply Kept.ite | apply Kept.itePair | split)

theorem kept_restoreNext {K : State} (s : State) (p : Nat) (r : Restore) (hs : Kept K s) :
    Kept K (restoreNext s p r) := by
  unfold restoreNext
  try dsimp only
  repeat' (with_reducible first | assumption | apply kept_restoreEnd | apply kept_restoreRead | apply kept_resPut | apply kept_restoreHalf | apply kept_restoreFinish | split)

theorem kept_restoreData {K : State} (s : State) (p off : Nat) (bs : List Byte) (hs : Kept K s) :
    Kept K (restoreData s p off bs) := by
  unfold restoreData
  try dsimp only
  repeat' (with_reducible first | assumption | apply kept_resPut | apply kept_restoreNext | apply Kept.ite | apply Kept.itePair | split)

theorem kept_restoreRefused {K : State} (s : State) (p code detail : Nat) (hs : Kept K s) :
    Kept K (restoreRefused s p code detail) := by
  unfold restoreRefused
  try dsimp only
  repeat' (with_reducible first | assumption | apply kept_restoreEnd | apply kept_recordErr | apply Kept.ite | apply Kept.itePair | split)

theorem kept_resReplay {K : State} (s : State) (p : Nat) (hs : Kept K s) :
    Kept K (resReplay s p) := by
  unfold resReplay
  try dsimp only
  repeat' (with_reducible first | assumption | apply kept_resEnd | apply kept_recordAccess | apply kept_partPut | apply Kept.ite | apply Kept.itePair | split)

theorem kept_mirrorAgain {K : State} (s : State) (p : Nat) (hs : Kept K s) :
    Kept K (mirrorAgain s p) := by
  unfold mirrorAgain
  try dsimp only
  repeat' (with_reducible first | assumption | apply kept_redFailData | apply kept_mirrorRoot | apply kept_foldl | apply kept_foldlPair | intro _ | split)

theorem kept_resRepoint {K : State} (s : State) (p : Nat) (hs : Kept K s) :
    Kept K (resRepoint s p) := by
  unfold resRepoint
  try dsimp only
  repeat' (with_reducible first | assumption | apply kept_readDesc | apply kept_resEnd | apply kept_resPut | apply kept_mirrorAgain | refine Kept.fst ?_ ‹_› | apply Kept.ite | apply Kept.itePair | split)

theorem kept_resFlashNow {K : State} (s : State) (p : Nat) (hs : Kept K s) :
    Kept K (resFlashNow s p) := by
  unfold resFlashNow
  try dsimp only
  repeat' (with_reducible first | assumption | apply kept_resEnd | apply kept_flashImageTo | refine Kept.fst ?_ ‹_› | apply Kept.ite | apply Kept.itePair | split)

theorem kept_resStoreNow {K : State} (s : State) (p : Nat) (hs : Kept K s) :
    Kept K (resStoreNow s p) := by
  unfold resStoreNow
  try dsimp only
  repeat' (with_reducible first | assumption | apply kept_resEnd | apply kept_storeStart | apply Kept.ite | apply Kept.itePair | split)

theorem kept_execVaultImageStream {K : State} (p : Fin 64) (s : State) (hs : Kept K s) :
    ∀ z, execVaultImageStream p s = .next z → Kept K z := by
  intro z ht
  unfold execVaultImageStream at ht
  try dsimp only at ht
  repeat' (first | contradiction | (injection ht with ht; subst ht) | split at ht)
  all_goals (try dsimp only)
  all_goals (repeat' (with_reducible first | assumption | apply kept_alive | apply kept_vaultStream | intro _))

theorem kept_execHalfSealed {K : State} (p : Fin 64) (s : State) (hs : Kept K s) :
    ∀ z, execHalfSealed p s = .next z → Kept K z := by
  intro z ht
  unfold execHalfSealed at ht
  try dsimp only at ht
  repeat' (first | contradiction | (injection ht with ht; subst ht) | split at ht)
  all_goals (try dsimp only)
  all_goals (repeat' (with_reducible first | assumption | apply kept_alive | apply kept_halfSealed | intro _))

theorem kept_execFlashImage {K : State} (p : Fin 64) (s : State) (hs : Kept K s) :
    ∀ z, execFlashImage p s = .next z → Kept K z := by
  intro z ht
  unfold execFlashImage at ht
  try dsimp only at ht
  repeat' (first | contradiction | (injection ht with ht; subst ht) | split at ht)
  all_goals (try dsimp only)
  all_goals (repeat' (with_reducible first | assumption | apply kept_alive | apply kept_flashImage | intro _))

theorem kept_execFlashImageDone {K : State} (p : Fin 64) (s : State) (hs : Kept K s) :
    ∀ z, execFlashImageDone p s = .next z → Kept K z := by
  intro z ht
  unfold execFlashImageDone at ht
  try dsimp only at ht
  repeat' (first | contradiction | (injection ht with ht; subst ht) | split at ht)
  all_goals (try dsimp only)
  all_goals (repeat' (with_reducible first | assumption | apply kept_alive | apply kept_flashDone | intro _))

theorem kept_execStoreCopy {K : State} (p : Fin 64) (s : State) (hs : Kept K s) :
    ∀ z, execStoreCopy p s = .next z → Kept K z := by
  intro z ht
  unfold execStoreCopy at ht
  try dsimp only at ht
  repeat' (first | contradiction | (injection ht with ht; subst ht) | split at ht)
  all_goals (try dsimp only)
  all_goals (repeat' (with_reducible first | assumption | apply kept_alive | apply kept_storeCopy | intro _))

theorem kept_execRestart {K : State} (p : Fin 64) (s : State) (hs : Kept K s) :
    ∀ z, execRestart p s = .next z → Kept K z := by
  intro z ht
  unfold execRestart at ht
  try dsimp only at ht
  repeat' (first | contradiction | (injection ht with ht; subst ht) | split at ht)
  all_goals (try dsimp only)
  all_goals (repeat' (with_reducible first | assumption | apply kept_alive | apply kept_resRow | apply kept_resRestart | intro _))

theorem kept_execFinish {K : State} (p : Fin 64) (s : State) (hs : Kept K s) :
    ∀ z, execFinish p s = .next z → Kept K z := by
  intro z ht
  unfold execFinish at ht
  try dsimp only at ht
  repeat' (first | contradiction | (injection ht with ht; subst ht) | split at ht)
  all_goals (try dsimp only)
  all_goals (repeat' (with_reducible first | assumption | apply kept_alive | apply kept_resRow | apply kept_resFinish | intro _))

theorem kept_execRestore {K : State} (p : Fin 64) (s : State) (hs : Kept K s) :
    ∀ z, execRestore p s = .next z → Kept K z := by
  intro z ht
  unfold execRestore at ht
  try dsimp only at ht
  repeat' (first | contradiction | (injection ht with ht; subst ht) | split at ht)
  all_goals (try dsimp only)
  all_goals (repeat' (with_reducible first | assumption | apply kept_alive | apply kept_resRow | apply kept_resRestore | intro _))

theorem kept_execReplay {K : State} (p : Fin 64) (s : State) (hs : Kept K s) :
    ∀ z, execReplay p s = .next z → Kept K z := by
  intro z ht
  unfold execReplay at ht
  try dsimp only at ht
  repeat' (first | contradiction | (injection ht with ht; subst ht) | split at ht)
  all_goals (try dsimp only)
  all_goals (repeat' (with_reducible first | assumption | apply kept_alive | apply kept_resRow | apply kept_resReplay | intro _))

theorem kept_execRepoint {K : State} (p : Fin 64) (s : State) (hs : Kept K s) :
    ∀ z, execRepoint p s = .next z → Kept K z := by
  intro z ht
  unfold execRepoint at ht
  try dsimp only at ht
  repeat' (first | contradiction | (injection ht with ht; subst ht) | split at ht)
  all_goals (try dsimp only)
  all_goals (repeat' (with_reducible first | assumption | apply kept_alive | apply kept_resRow | apply kept_resRepoint | intro _))

theorem kept_execFlashNow {K : State} (p : Fin 64) (s : State) (hs : Kept K s) :
    ∀ z, execFlashNow p s = .next z → Kept K z := by
  intro z ht
  unfold execFlashNow at ht
  try dsimp only at ht
  repeat' (first | contradiction | (injection ht with ht; subst ht) | split at ht)
  all_goals (try dsimp only)
  all_goals (repeat' (with_reducible first | assumption | apply kept_alive | apply kept_resRow | apply kept_resFlashNow | intro _))

theorem kept_execStoreNow {K : State} (p : Fin 64) (s : State) (hs : Kept K s) :
    ∀ z, execStoreNow p s = .next z → Kept K z := by
  intro z ht
  unfold execStoreNow at ht
  try dsimp only at ht
  repeat' (first | contradiction | (injection ht with ht; subst ht) | split at ht)
  all_goals (try dsimp only)
  all_goals (repeat' (with_reducible first | assumption | apply kept_alive | apply kept_resRow | apply kept_resStoreNow | intro _))

theorem kept_ctrlWrite {K : State} (s : State) (w : WReq) (hs : Kept K s) :
    Kept K (ctrlWrite s w) := by
  unfold ctrlWrite
  try dsimp only
  repeat' (with_reducible first | assumption | apply kept_enterLow | apply kept_idleCheck | apply kept_leaveLow | apply kept_startPage | apply kept_blockStop | apply kept_voidPart | apply kept_blockClearFault | apply Kept.ite | apply Kept.itePair | split)

theorem kept_raiseBits {K : State} (s : State) (w : WReq) (bs : List Nat) (hs : Kept K s) :
    Kept K (raiseBits s w bs) := by
  unfold raiseBits
  try dsimp only
  repeat' (with_reducible first | assumption | apply kept_vecRaise | apply kept_foldl | apply kept_foldlPair | intro _ | split)

theorem kept_enableEvents {K : State} (s : State) (w : WReq) (hs : Kept K s) :
    Kept K (enableEvents s w) := by
  unfold enableEvents
  try dsimp only
  repeat' (with_reducible first | assumption | apply kept_raiseBits)

theorem kept_clearEvents {K : State} (s : State) (w : WReq) (hs : Kept K s) :
    Kept K (clearEvents s w) := by
  unfold clearEvents
  try dsimp only
  repeat' (with_reducible first | assumption | apply kept_raiseBits | apply kept_wr)

theorem kept_clearError {K : State} (s : State) (pg : Nat) (hs : Kept K s) :
    Kept K (clearError s pg) := by
  unfold clearError
  try dsimp only
  repeat' (with_reducible first | assumption | apply kept_regPut)

theorem kept_zeroLedger {K : State} (s : State) (pg : Nat) (hs : Kept K s) :
    Kept K (zeroLedger s pg) := by
  unfold zeroLedger
  try dsimp only
  repeat' (with_reducible first | assumption | ((conv => pattern (State.mk ..)); first | apply Kept.upd | apply Kept.regFilter | apply Kept.memFilter))

theorem kept_idleUnits {K : State} (s : State) (x : Nat) (hs : Kept K s) :
    Kept K (idleUnits s x) := by
  unfold idleUnits
  try dsimp only
  repeat' (with_reducible first | assumption | apply kept_wr | apply kept_foldl | apply kept_foldlPair | intro _ | split)

theorem kept_ownerChanged {K : State} (s : State) (w : WReq) (hs : Kept K s) :
    Kept K (ownerChanged s w) := by
  unfold ownerChanged
  try dsimp only
  repeat' (with_reducible first | assumption | apply kept_zeroLedger | apply kept_idleUnits | apply Kept.ite | apply Kept.itePair | split)

theorem kept_headerWrite {K : State} (s : State) (w : WReq) (hs : Kept K s) :
    Kept K (headerWrite s w) := by
  unfold headerWrite
  try dsimp only
  repeat' (with_reducible first | assumption | apply kept_ctrlWrite | apply kept_clearEvents | apply kept_enableEvents | apply kept_clearError | apply kept_ownerChanged | apply Kept.ite | apply Kept.itePair | split)

theorem kept_watchWrite {K : State} (s : State) (w : WReq) (k : Nat) (hs : Kept K s) :
    Kept K (watchWrite s w k) := by
  unfold watchWrite
  try dsimp only
  repeat' (with_reducible first | assumption | apply kept_wr | apply Kept.ite | apply Kept.itePair | split)

theorem kept_galleryWrite {K : State} (s : State) (w : WReq) (hs : Kept K s) :
    Kept K (galleryWrite s w) := by
  unfold galleryWrite
  try dsimp only
  repeat' (with_reducible first | assumption | apply kept_noteTail | apply kept_queueResume | apply kept_queueFlush | apply kept_watchWrite | apply Kept.ite | apply Kept.itePair | split)

theorem kept_resumeMover {K : State} (s : State) (g m : Nat) (hs : Kept K s) :
    Kept K (resumeMover s g m) := by
  unfold resumeMover
  try dsimp only
  repeat' (with_reducible first | assumption | apply kept_wr | apply kept_moverResume | apply Kept.ite | apply Kept.itePair | split)

theorem kept_abortMover {K : State} (s : State) (g m : Nat) (hs : Kept K s) :
    Kept K (abortMover s g m) := by
  unfold abortMover
  try dsimp only
  repeat' (with_reducible first | assumption | apply kept_tally | apply kept_raise | apply kept_wr | apply kept_commitFail | apply kept_recordErr | apply kept_moverAbort | apply Kept.ite | apply Kept.itePair | split)

theorem kept_moversWrite {K : State} (s : State) (w : WReq) (hs : Kept K s) :
    Kept K (moversWrite s w) := by
  unfold moversWrite
  try dsimp only
  repeat' (with_reducible first | assumption | (intro hx; simp only [GalShaped, setAt, List.length_set, List.length_map] at hx ⊢; exact hx) | exact fun _ => galShaped_idle _ | apply kept_resumeMover | apply kept_abortMover | apply kept_galPut | apply Kept.ite | apply Kept.itePair | split)

theorem kept_swapGalleries {K : State} (s : State) (a b : Nat) (hs : Kept K s) :
    Kept K (swapGalleries s a b) := by
  unfold swapGalleries
  dsimp only
  apply kept_galPutFrom _ _ _ (fun w => hs.shape w a)
  apply kept_galPutFrom _ _ _ (fun w => hs.shape w b)
  refine ⟨hs.code, hs.stepping, hs.fuse, hs.pending, hs.mem, fun _ => ?_, hs.shape⟩
  show twf (fun a => BitVec.ofNat 64 (resetOf s.code s.fuses a)) _ = true
  generalize hl : s.regs = l
  clear hl
  suffices ∀ t, twf (fun a => BitVec.ofNat 64 (resetOf s.code s.fuses a)) t = true →
      twf (fun a => BitVec.ofNat 64 (resetOf s.code s.fuses a))
        (l.foldl (fun t e => tput (BitVec.ofNat 64 (resetOf s.code s.fuses (swapAddr a b e.1))) t (swapAddr a b e.1) e.2) t) = true from
    this [] rfl
  induction l with
  | nil => intro t ht; exact ht
  | cons e r ih => intro t ht; exact ih _ (twf_tput (fun a => BitVec.ofNat 64 (resetOf s.code s.fuses a)) _ _ _ ht)

theorem kept_markFailed {K : State} (s : State) (c g : Nat) (v : Bool) (hs : Kept K s) :
    Kept K (markFailed s c g v) := by
  unfold markFailed
  try dsimp only
  repeat' (with_reducible first | assumption | apply kept_wr | apply kept_tally | apply Kept.ite | apply Kept.itePair | split)

theorem kept_mapSpare {K : State} (s : State) (c k g : Nat) (hs : Kept K s) :
    Kept K (mapSpare s c k g) := by
  unfold mapSpare
  try dsimp only
  repeat' (with_reducible first | assumption | apply kept_swapGalleries | apply kept_dropLead | apply kept_saveConfig | apply kept_markFailed | apply kept_joinStep | apply kept_wr | apply kept_tally | split)

theorem kept_unmapSpare {K : State} (s : State) (c k g : Nat) (hs : Kept K s) :
    Kept K (unmapSpare s c k g) := by
  unfold unmapSpare
  try dsimp only
  repeat' (with_reducible first | assumption | apply kept_markFailed | apply kept_wr | apply kept_swapGalleries | ((conv => pattern (State.mk ..)); first | apply Kept.upd))

theorem kept_spareWrite {K : State} (s : State) (w : WReq) (hs : Kept K s) :
    Kept K (spareWrite s w) := by
  unfold spareWrite
  try dsimp only
  repeat' (with_reducible first | assumption | apply kept_unmapSpare | apply kept_mapSpare | apply kept_regPut | apply kept_putRecord | apply kept_foldl | apply kept_foldlPair | intro _ | apply Kept.ite | apply Kept.itePair | split)

theorem kept_railWrite {K : State} (s : State) (w : WReq) (hs : Kept K s) :
    Kept K (railWrite s w) := by
  unfold railWrite
  try dsimp only
  repeat' (with_reducible first | assumption | apply kept_wr | apply kept_applyDuty | apply kept_tally | apply Kept.ite | apply Kept.itePair | split)

theorem kept_ringWrite {K : State} (s : State) (w : WReq) (hs : Kept K s) :
    Kept K (ringWrite s w) := by
  unfold ringWrite
  try dsimp only
  repeat' (with_reducible first | assumption | apply kept_ringOpen | apply kept_ringDrop | apply kept_foldl | apply kept_foldlPair | intro _ | apply Kept.ite | apply Kept.itePair | split)

theorem kept_checkWrite {K : State} (s : State) (w : WReq) (hs : Kept K s) :
    Kept K (checkWrite s w) := by
  unfold checkWrite
  try dsimp only
  repeat' (with_reducible first | assumption | apply kept_wr | apply Kept.ite | apply Kept.itePair | split)

theorem kept_scanBegin {K : State} (s : State) (x : Nat) (hs : Kept K s) :
    Kept K (scanBegin s x) := by
  unfold scanBegin
  try dsimp only
  repeat' (with_reducible first | assumption | apply kept_wr | apply Kept.ite | apply Kept.itePair | split)

theorem kept_scanWrite {K : State} (s : State) (w : WReq) (hs : Kept K s) :
    Kept K (scanWrite s w) := by
  unfold scanWrite
  try dsimp only
  repeat' (with_reducible first | assumption | apply kept_scanBegin | apply kept_scanEnd | apply kept_regPut | apply Kept.ite | apply Kept.itePair | split)

theorem kept_resWrite {K : State} (s : State) (w : WReq) (hs : Kept K s) :
    Kept K (resWrite s w) := by
  unfold resWrite
  try dsimp only
  repeat' (with_reducible first | assumption | apply kept_holdCleared | apply kept_wr | apply kept_resPut | apply Kept.ite | apply Kept.itePair | split)

theorem kept_idleWrite {K : State} (s : State) (w : WReq) (hs : Kept K s) :
    Kept K (idleWrite s w) := by
  unfold idleWrite
  try dsimp only
  repeat' (with_reducible first | assumption | apply kept_tally | apply kept_wr | apply kept_leaveIdle | apply Kept.ite | apply Kept.itePair | split | ((conv => pattern (State.mk ..)); first | apply Kept.upd))

theorem kept_powerWrite {K : State} (s : State) (w : WReq) (hs : Kept K s) :
    Kept K (powerWrite s w) := by
  unfold powerWrite
  try dsimp only
  repeat' (with_reducible first | assumption | apply kept_idleWrite | apply kept_journalOpen | apply kept_wr | apply Kept.ite | apply Kept.itePair | split | ((conv => pattern (State.mk ..)); first | apply Kept.upd))

theorem kept_curatorWrite {K : State} (s : State) (w : WReq) (hs : Kept K s) :
    Kept K (curatorWrite s w) := by
  unfold curatorWrite
  try dsimp only
  repeat' (with_reducible first | assumption | apply kept_watchdogKick | apply kept_journalled | apply kept_svnAdvance | apply Kept.ite | apply Kept.itePair | split | ((conv => pattern (State.mk ..)); first | apply Kept.upd | refine Kept.updFuses (fuses_svn _ _) ?_ | refine Kept.updFuses (fuses_or _ _) ?_))

theorem kept_streamBegin {K : State} (s : State) (j cfg : Nat) (hs : Kept K s) :
    Kept K (streamBegin s j cfg) := by
  unfold streamBegin
  try dsimp only
  repeat' (with_reducible first | assumption | apply kept_streamFail | apply kept_wr | apply kept_streamPut | split)

theorem kept_dumpWrite {K : State} (s : State) (w : WReq) (hs : Kept K s) :
    Kept K (dumpWrite s w) := by
  unfold dumpWrite
  try dsimp only
  repeat' (with_reducible first | assumption | apply kept_putGrants | apply kept_streamBegin | apply kept_streamOff | apply Kept.ite | apply Kept.itePair | split)

theorem kept_muxWrite {K : State} (s : State) (w : WReq) (hs : Kept K s) :
    Kept K (muxWrite s w) := by
  unfold muxWrite
  try dsimp only
  repeat' (with_reducible first | assumption | apply kept_trigOut | apply kept_trigRestart | apply kept_unlockNew | apply kept_unlockCheck | apply kept_unlockLock | apply Kept.ite | apply Kept.itePair | split)

theorem kept_vectorWrite {K : State} (s : State) (w : WReq) (hs : Kept K s) :
    Kept K (vectorWrite s w) := by
  unfold vectorWrite
  try dsimp only
  repeat' (with_reducible first | assumption | apply kept_vecDeliver | apply Kept.ite | apply Kept.itePair | split)

theorem kept_partGo {K : State} (s : State) (hs : Kept K s) :
    Kept K (partGo s) := by
  unfold partGo
  try dsimp only
  repeat' (with_reducible first | assumption | apply kept_journalOpen | apply kept_wr | ((conv => pattern (State.mk ..)); first | apply Kept.upd))

theorem kept_blockWrite {K : State} (s : State) (w : WReq) (hs : Kept K s) :
    Kept K (blockWrite s w) := by
  unfold blockWrite
  try dsimp only
  repeat' (with_reducible first | assumption | apply kept_galleryWrite | apply kept_clearBays | apply kept_moversWrite | apply kept_spareWrite | apply kept_startMirror | apply kept_railWrite | apply kept_ringWrite | apply kept_checkWrite | apply kept_scanWrite | apply kept_partGo | apply kept_curatorWrite | apply kept_resWrite | apply kept_powerWrite | apply kept_dumpWrite | apply kept_muxWrite | apply kept_vectorWrite | apply Kept.ite | apply Kept.itePair | split)

theorem kept_keepWord {K : State} (s : State) (w : WReq) (hs : Kept K s) :
    Kept K (keepWord s w) := by
  unfold keepWord
  try dsimp only
  repeat' (with_reducible first | assumption | apply kept_regPut | apply Kept.ite | apply Kept.itePair | split | ((conv => pattern (State.mk ..)); first | apply Kept.upd | apply Kept.regFilter | apply Kept.memFilter))

theorem kept_applyWrite {K : State} (s : State) (w : WReq) (hs : Kept K s) :
    Kept K (applyWrite s w) := by
  unfold applyWrite
  try dsimp only
  repeat' (with_reducible first | assumption | apply kept_headerWrite | apply kept_keepWord | apply kept_withAlert | apply kept_powerWrite | apply kept_blockWrite | intro _ | apply Kept.ite | apply Kept.itePair | split)

theorem kept_refused {K : State} (s : State) (w : WReq) (st code : Nat) (hs : Kept K s) :
    Kept K (refused s w st code).1 := by
  unfold refused
  try dsimp only
  repeat' (with_reducible first | assumption | apply kept_raise | apply kept_recordErr | apply Kept.ite | apply Kept.itePair | split)

theorem kept_withReg {K : State} (s : State) (who : Princ) (addr data mask : Nat) (f : WReq → State × Nat × Word64) (hs : Kept K s) (hf : ∀ x0, Kept K (f x0).1) :
    Kept K (withReg s who addr data mask f).1 := by
  unfold withReg
  try dsimp only
  repeat' (with_reducible first | assumption | apply kept_refused | apply hf | refine Kept.fst ?_ ‹_› | intro _ | apply Kept.getD | apply Kept.ite | apply Kept.itePair | split)

theorem kept_doRead {K : State} (s : State) (who : Princ) (addr : Nat) (hs : Kept K s) :
    Kept K (doRead s who addr).1 := by
  unfold doRead
  try dsimp only
  repeat' (with_reducible first | assumption | apply kept_withReg | refine Kept.fst ?_ ‹_› | intro _ | apply Kept.getD | apply Kept.ite | apply Kept.itePair | split)

theorem kept_doWrite {K : State} (s : State) (who : Princ) (addr data mask : Nat) (hs : Kept K s) :
    Kept K (doWrite s who addr data mask).1 := by
  unfold doWrite
  try dsimp only
  repeat' (with_reducible first | assumption | apply kept_withReg | apply kept_refused | apply kept_applyWrite | refine Kept.fst ?_ ‹_› | intro _ | apply Kept.ite | apply Kept.itePair | split)

theorem kept_owe {K : State} (s : State) (i : Nat) (hs : Kept K s) :
    Kept K (owe s i) := by
  unfold owe
  try dsimp only
  repeat' (with_reducible first | assumption | apply kept_sendAck | apply kept_sessPut | apply Kept.ite | apply Kept.itePair | split)

theorem kept_refuseMsg {K : State} (s : State) (i : Nat) (msg : Word32) (code detail : Nat) (hs : Kept K s) :
    Kept K (refuseMsg s i msg code detail) := by
  unfold refuseMsg
  try dsimp only
  repeat' (with_reducible first | assumption | apply kept_sendStatus | apply kept_sessPut | split)

theorem kept_authFail {K : State} (s : State) (i : Nat) (x : Sess) (hs : Kept K s) :
    Kept K (authFail s i x) := by
  unfold authFail
  try dsimp only
  repeat' (with_reducible first | assumption | apply kept_tally | apply kept_raise | apply kept_sessPut | apply Kept.ite | apply Kept.itePair | split)

theorem kept_staleRecord {K : State} (s : State) (i p : Nat) (hs : Kept K s) :
    Kept K (staleRecord s i p) := by
  unfold staleRecord
  try dsimp only
  repeat' (with_reducible first | assumption | apply kept_recordErr)

theorem kept_withStale {K : State} (s : State) (i : Nat) (x : Sess) (a : Answer) (hs : Kept K s) :
    Kept K (withStale s i x a).1 := by
  unfold withStale
  try dsimp only
  repeat' (with_reducible first | assumption | apply kept_staleRecord | split)

theorem kept_bulkError {K : State} (s : State) (i p va : Nat) (e : AccErr) (hs : Kept K s) :
    Kept K (bulkError s i p va e).1 := by
  unfold bulkError
  try dsimp only
  repeat' (with_reducible first | assumption | apply kept_recordBad | apply kept_recordErr | split)

theorem kept_adminWrite {K : State} (s : State) (i addr len off : Nat) (bs : List Byte) (hs : Kept K s) :
    Kept K (adminWrite s i addr len off bs).1 := by
  unfold adminWrite
  try dsimp only
  repeat' (with_reducible first | assumption | apply kept_mboxWrite | apply kept_store | apply kept_recordBad | refine Kept.fst ?_ ‹_› | apply Kept.ite | apply Kept.itePair | split)

theorem kept_takeWrite {K : State} (s : State) (i : Nat) (x : Sess) (k : Pkt) (addr len off : Nat) (bs : List Byte) (hs : Kept K s) :
    Kept K (takeWrite s i x k addr len off bs).1 := by
  unfold takeWrite
  try dsimp only
  repeat' (with_reducible first | assumption | apply kept_tally | apply kept_adminWrite | apply kept_vstore | apply kept_bulkError | apply kept_countWindows | apply kept_withStale | refine Kept.fst ?_ ‹_› | apply Kept.ite | apply Kept.itePair | split)

theorem kept_answerRead {K : State} (s : State) (i : Nat) (k : Pkt) (rtag : Nat) (bs : List Byte) (hs : Kept K s) :
    Kept K (answerRead s i k rtag bs) := by
  unfold answerRead
  try dsimp only
  repeat' (with_reducible first | assumption | apply kept_sendMessage | apply kept_sessPut | split)

theorem kept_adminRead {K : State} (s : State) (i addr n : Nat) (hs : Kept K s) :
    Kept K (adminRead s i addr n).1 := by
  unfold adminRead
  try dsimp only
  repeat' (with_reducible first | assumption | apply kept_healRange | apply kept_recordBad | apply Kept.ite | apply Kept.itePair | split)

theorem kept_partRead {K : State} (s : State) (i p addr n : Nat) (hs : Kept K s) :
    Kept K (partRead s i p addr n).1 := by
  unfold partRead
  try dsimp only
  repeat' (with_reducible first | assumption | apply kept_bulkError | refine Kept.fst ?_ ‹_› | apply Kept.ite | apply Kept.itePair | split)

theorem kept_takeRead {K : State} (s : State) (i : Nat) (x : Sess) (k : Pkt) (addr n rtag : Nat) (hs : Kept K s) :
    Kept K (takeRead s i x k addr n rtag).1 := by
  unfold takeRead
  try dsimp only
  repeat' (with_reducible first | assumption | apply kept_adminRead | apply kept_partRead | apply kept_answerRead | apply kept_withStale | refine Kept.fst ?_ ‹_› | apply Kept.ite | apply Kept.itePair | split)

theorem kept_moverData {K : State} (s : State) (pg m i tag : Nat) (bs : List Byte) (hs : Kept K s) :
    Kept K (moverData s pg m i tag bs) := by
  unfold moverData
  try dsimp only
  repeat' (with_reducible first | assumption | apply kept_putJobs | apply Kept.ite | apply Kept.itePair | split)

theorem kept_ownerData {K : State} (s : State) (i tag : Nat) (o : RdOwner) (off : Nat) (bs : List Byte) (last : Bool) (hs : Kept K s) :
    Kept K (ownerData s i tag o off bs last) := by
  unfold ownerData
  try dsimp only
  repeat' (with_reducible first | assumption | apply kept_moverData | apply kept_commitWait | apply kept_restoreData | apply kept_mcStore | apply kept_mcCatch | refine Kept.fst ?_ ‹_› | apply Kept.ite | apply Kept.itePair | split)

theorem kept_takeData {K : State} (s : State) (i : Nat) (x : Sess) (tag off : Nat) (bs : List Byte) (hs : Kept K s) :
    Kept K (takeData s i x tag off bs).1 := by
  unfold takeData
  try dsimp only
  repeat' (with_reducible first | assumption | apply kept_ownerData | apply kept_sessPut | apply kept_tally | apply Kept.ite | apply Kept.itePair | split)

theorem kept_takeStatus {K : State} (s : State) (i : Nat) (x : Sess) (msg : Word32) (code detail : Nat) (hs : Kept K s) :
    Kept K (takeStatus s i x msg code detail) := by
  unfold takeStatus
  try dsimp only
  repeat' (with_reducible first | assumption | apply kept_restoreRefused | apply kept_sessPut | apply kept_readFailed | apply kept_writeFailed | apply kept_resRefused | apply kept_collRefused | apply Kept.ite | apply Kept.itePair | split)

theorem kept_takeDoorbell {K : State} (s : State) (i : Nat) (x : Sess) (id tail epoch : Nat) (hs : Kept K s) :
    Kept K (takeDoorbell s i x id tail epoch).1 := by
  unfold takeDoorbell
  try dsimp only
  repeat' (with_reducible first | assumption | apply kept_doWrite | apply kept_withStale | refine Kept.fst ?_ ‹_› | apply Kept.ite | apply Kept.itePair | split)

theorem kept_takeMcast {K : State} (s : State) (i : Nat) (x : Sess) (op off : Nat) (hs : Kept K s) :
    Kept K (takeMcast s i x op off).1 := by
  unfold takeMcast
  try dsimp only
  repeat' (with_reducible first | assumption | apply kept_mcControl | refine Kept.fst ?_ ‹_› | apply Kept.ite | apply Kept.itePair | split)

theorem kept_takeConfirm {K : State} (s : State) (i : Nat) (x : Sess) (sig : List Byte) (hs : Kept K s) :
    Kept K (takeConfirm s i x sig) := by
  unfold takeConfirm
  try dsimp only
  repeat' (with_reducible first | assumption | apply kept_openSession | apply kept_closeWith | apply Kept.ite | apply Kept.itePair | split)

theorem kept_runOpd {K : State} (s : State) (who : Princ) (o : RegOpd) (hs : Kept K s) :
    Kept K (runOpd s who o).1 := by
  unfold runOpd
  try dsimp only
  repeat' (with_reducible first | assumption | apply kept_doRead | apply kept_doWrite | refine Kept.fst ?_ ‹_› | split)

theorem kept_nextOpd {K : State} (who : Princ) (stop : Bool) (a : State × Bool × List (Nat × Word64)) (o : RegOpd) (ha : Kept K a.1) :
    Kept K (nextOpd who stop a o).1 := by
  unfold nextOpd
  try dsimp only
  repeat' (with_reducible first | assumption | apply kept_runOpd | refine Kept.fst ?_ ‹_› | apply Kept.ite | apply Kept.itePair | split)

theorem kept_runRegMsg {K : State} (s : State) (i : Nat) (stop : Bool) (ops : List RegOpd) (hs : Kept K s) :
    Kept K (runRegMsg s i stop ops) := by
  unfold runRegMsg
  try dsimp only
  repeat' (with_reducible first | assumption | apply kept_nextOpd | apply kept_send | apply kept_foldl | apply kept_foldlPair | refine Kept.fst ?_ ‹_› | intro _ | split)

theorem kept_runControl {K : State} (s : State) (i : Nat) (x : Sess) (c : Ctl) (hs : Kept K s) :
    Kept K (runControl s i x c).1 := by
  unfold runControl
  try dsimp only
  repeat' (with_reducible first | assumption | apply kept_takeDoorbell | apply kept_takeMcast | apply kept_takeStatus | apply kept_takeConfirm | apply kept_closeSession | apply kept_runRegMsg | refine Kept.fst ?_ ‹_› | apply Kept.ite | apply Kept.itePair | split)

theorem kept_runHeld {K : State} (s : State) (i fuel : Nat) (hs : Kept K s) :
    Kept K (runHeld s i fuel) := by
  induction fuel generalizing s i with
  | zero =>
    unfold runHeld
    try dsimp only
    all_goals (repeat' (with_reducible first | assumption | apply kept_runControl | apply kept_sessPut | apply kept_refuseMsg | refine Kept.fst ?_ ‹_› | split))
  | succ n ih =>
    unfold runHeld
    try dsimp only
    repeat' (with_reducible first | assumption | apply ih | apply kept_runControl | apply kept_sessPut | apply kept_refuseMsg | refine Kept.fst ?_ ‹_› | split)

theorem kept_takeControlAt {K : State} (s : State) (i : Nat) (q : Word32) (c : Ctl) (hs : Kept K s) :
    Kept K (takeControlAt s i q c) := by
  unfold takeControlAt
  try dsimp only
  repeat' (with_reducible first | assumption | apply kept_tally | apply kept_owe | apply kept_runHeld | apply kept_sessPut | apply Kept.ite | apply Kept.itePair | split)

theorem kept_takeControl {K : State} (s : State) (i : Nat) (k : Pkt) (c : Ctl) (hs : Kept K s) :
    Kept K (takeControl s i k c) := by
  unfold takeControl
  try dsimp only
  repeat' (with_reducible first | assumption | apply kept_takeControlAt)

theorem kept_takeBulk {K : State} (s : State) (i : Nat) (k : Pkt) (f : State → Sess → State × Answer) (hs : Kept K s) (hf : ∀ x0 x1, Kept K x0 → Kept K (f x0 x1).1) :
    Kept K (takeBulk s i k f) := by
  unfold takeBulk
  try dsimp only
  repeat' (with_reducible first | assumption | apply kept_sessPut | apply kept_owe | apply kept_runHeld | apply kept_refuseMsg | apply hf | refine Kept.fst ?_ ‹_› | intro _ | apply Kept.ite | apply Kept.itePair | split)

theorem kept_messageAcked {K : State} (s : State) (i : Nat) (x : Sess) (k : TxPkt) (hs : Kept K s) :
    Kept K (messageAcked s i x k) := by
  unfold messageAcked
  try dsimp only
  repeat' (with_reducible first | assumption | apply kept_mapWaits | apply kept_sessPut | apply kept_resAcked | apply kept_collAcked | apply Kept.ite | apply Kept.itePair | split)

theorem kept_takeAck {K : State} (s : State) (i : Nat) (k : Pkt) (hs : Kept K s) :
    Kept K (takeAck s i k) := by
  unfold takeAck
  try dsimp only
  repeat' (with_reducible first | assumption | apply kept_pump | apply kept_sessPut | apply kept_tally | apply kept_messageAcked | apply kept_mcAckIn | apply kept_resend | apply kept_runHeld | apply kept_foldl | apply kept_foldlPair | intro _ | apply Kept.ite | apply Kept.itePair | split)

theorem kept_openIfConfirmed {K : State} (s : State) (i : Nat) (x : Sess) (k : Pkt) (hs : Kept K s) :
    Kept K (openIfConfirmed s i x k) := by
  unfold openIfConfirmed
  try dsimp only
  repeat' (with_reducible first | assumption | apply kept_openSession | apply Kept.ite | apply Kept.itePair | split)

theorem kept_noteSeen {K : State} (s : State) (i : Nat) (x : Sess) (k : Pkt) (hs : Kept K s) :
    Kept K (noteSeen s i x k) := by
  unfold noteSeen
  try dsimp only
  repeat' (with_reducible first | assumption | apply kept_sessPut)

theorem kept_noteRx {K : State} (s : State) (i : Nat) (x : Sess) (k : Pkt) (ty : Kind) (hs : Kept K s) :
    Kept K (noteRx s i x k ty) := by
  unfold noteRx
  try dsimp only
  repeat' (with_reducible first | assumption | apply kept_tally | apply kept_noteSeen)

theorem kept_sequenced {K : State} (s : State) (i : Nat) (k : Pkt) (ty : Kind) (f : State → State) (hs : Kept K s) (hf : ∀ x0, Kept K x0 → Kept K (f x0)) :
    Kept K (sequenced s i k ty f) := by
  unfold sequenced
  try dsimp only
  repeat' (with_reducible first | assumption | apply kept_takeControl | apply kept_takeBulk | apply kept_sendAck | apply kept_tally | apply hf | intro _ | apply Kept.ite | apply Kept.itePair | split)

theorem kept_countFrame {K : State} (s : State) (k : Pkt) (x : Sess) (crc : Bool) (hs : Kept K s) :
    Kept K (countFrame s k x crc) := by
  unfold countFrame
  try dsimp only
  repeat' (with_reducible first | assumption | apply kept_tally | apply Kept.ite | apply Kept.itePair | split)

theorem kept_takePacket {K : State} (s : State) (i : Nat) (x : Sess) (k : Pkt) (ty : Kind) (f : State → State) (hs : Kept K s) (hf : ∀ x0, Kept K x0 → Kept K (f x0)) :
    Kept K (takePacket s i x k ty f) := by
  unfold takePacket
  try dsimp only
  repeat' (with_reducible first | assumption | apply kept_openIfConfirmed | apply kept_noteRx | apply kept_sequenced | apply kept_takeAck | apply hf | intro _ | apply Kept.ite | apply Kept.itePair | split)

theorem kept_receive {K : State} (s : State) (k : Pkt) (ty : Kind) (crc : Option (List Byte)) (f : State → State) (hs : Kept K s) (hf : ∀ x0, Kept K x0 → Kept K (f x0)) :
    Kept K (receive s k ty crc f) := by
  unfold receive
  try dsimp only
  repeat' (with_reducible first | assumption | apply kept_countFrame | apply kept_authFail | apply kept_closeOut | apply kept_sendStatus | apply kept_noteSeen | apply kept_takePacket | apply kept_tally | apply hf | intro _ | apply Kept.ite | apply Kept.itePair | split)

theorem kept_receiveSeg {K : State} (s : State) (k : Pkt) (a b bs : List Byte) (f : State → Sess → State × Answer) (hs : Kept K s) (hf : ∀ x0 x1, Kept K x0 → Kept K (f x0 x1).1) :
    Kept K (receiveSeg s k a b bs f) := by
  unfold receiveSeg
  try dsimp only
  repeat' (with_reducible first | assumption | apply kept_receive | apply kept_takeBulk | apply kept_tally | apply hf | refine Kept.fst ?_ ‹_› | intro _ | split)

theorem kept_takeStream {K : State} (s : State) (i : Nat) (x : Sess) (k : Pkt) (group off : Nat) (bs : List Byte) (hs : Kept K s) :
    Kept K (takeStream s i x k group off bs).1 := by
  unfold takeStream
  try dsimp only
  repeat' (with_reducible first | assumption | apply kept_mcStore | apply kept_bulkError | apply kept_withStale | refine Kept.fst ?_ ‹_› | apply Kept.ite | apply Kept.itePair | split)

theorem kept_execDoorbell {K : State} (pkt : Pkt) (queueId : Half) (tail : Word32) (s : State) (hs : Kept K s) :
    ∀ z, execDoorbell pkt queueId tail s = .next z → Kept K z := by
  intro z ht
  unfold execDoorbell at ht
  try dsimp only at ht
  repeat' (first | contradiction | (injection ht with ht; subst ht) | split at ht)
  all_goals (try dsimp only)
  all_goals (repeat' (with_reducible first | assumption | apply kept_alive | apply kept_receive | apply kept_takeControl | intro _))

theorem kept_execBulkWrite {K : State} (pkt : Pkt) (addr : Word64) (msgLen offset : Word32) (payload : List Byte) (s : State) (hs : Kept K s) :
    ∀ z, execBulkWrite pkt addr msgLen offset payload s = .next z → Kept K z := by
  intro z ht
  unfold execBulkWrite at ht
  try dsimp only at ht
  repeat' (first | contradiction | (injection ht with ht; subst ht) | split at ht)
  all_goals (try dsimp only)
  all_goals (repeat' (with_reducible first | assumption | apply kept_alive | apply kept_receive | apply kept_takeBulk | apply kept_takeWrite | refine Kept.fst ?_ ‹_› | intro _ | split))

theorem kept_execBulkRead {K : State} (pkt : Pkt) (addr : Word64) (len rtag : Word32) (s : State) (hs : Kept K s) :
    ∀ z, execBulkRead pkt addr len rtag s = .next z → Kept K z := by
  intro z ht
  unfold execBulkRead at ht
  try dsimp only at ht
  repeat' (first | contradiction | (injection ht with ht; subst ht) | split at ht)
  all_goals (try dsimp only)
  all_goals (repeat' (with_reducible first | assumption | apply kept_alive | apply kept_receive | apply kept_takeBulk | apply kept_takeRead | refine Kept.fst ?_ ‹_› | intro _ | split))

theorem kept_execBulkRdata {K : State} (pkt : Pkt) (rtag offset : Word32) (payload : List Byte) (s : State) (hs : Kept K s) :
    ∀ z, execBulkRdata pkt rtag offset payload s = .next z → Kept K z := by
  intro z ht
  unfold execBulkRdata at ht
  try dsimp only at ht
  repeat' (first | contradiction | (injection ht with ht; subst ht) | split at ht)
  all_goals (try dsimp only)
  all_goals (repeat' (with_reducible first | assumption | apply kept_alive | apply kept_receive | apply kept_takeBulk | apply kept_takeData | refine Kept.fst ?_ ‹_› | intro _ | split))

theorem kept_execStatus {K : State} (pkt : Pkt) (msg : Word32) (code : Byte) (detail : Word64) (s : State) (hs : Kept K s) :
    ∀ z, execStatus pkt msg code detail s = .next z → Kept K z := by
  intro z ht
  unfold execStatus at ht
  try dsimp only at ht
  repeat' (first | contradiction | (injection ht with ht; subst ht) | split at ht)
  all_goals (try dsimp only)
  all_goals (repeat' (with_reducible first | assumption | apply kept_alive | apply kept_receive | apply kept_takeControl | intro _))

theorem kept_execBlocks {K : State} (pkt : Pkt) (hdr : SegHdr) (first : Word32) (nblk : Half) (payload : List Byte) (s : State) (hs : Kept K s) :
    ∀ z, execBlocks pkt hdr first nblk payload s = .next z → Kept K z := by
  intro z ht
  unfold execBlocks at ht
  try dsimp only at ht
  repeat' (first | contradiction | (injection ht with ht; subst ht) | split at ht)
  all_goals (try dsimp only)
  all_goals (repeat' (with_reducible first | assumption | apply kept_alive | apply kept_receiveSeg | apply kept_takeBlocks | refine Kept.fst ?_ ‹_› | intro _ | split))

theorem kept_execCombineUp {K : State} (pkt : Pkt) (hdr : SegHdr) (offset : Word32) (payload : List Byte) (s : State) (hs : Kept K s) :
    ∀ z, execCombineUp pkt hdr offset payload s = .next z → Kept K z := by
  intro z ht
  unfold execCombineUp at ht
  try dsimp only at ht
  repeat' (first | contradiction | (injection ht with ht; subst ht) | split at ht)
  all_goals (try dsimp only)
  all_goals (repeat' (with_reducible first | assumption | apply kept_alive | apply kept_receiveSeg | apply kept_takeCombine | refine Kept.fst ?_ ‹_› | intro _ | split))

theorem kept_execCombineDown {K : State} (pkt : Pkt) (hdr : SegHdr) (offset : Word32) (payload : List Byte) (s : State) (hs : Kept K s) :
    ∀ z, execCombineDown pkt hdr offset payload s = .next z → Kept K z := by
  intro z ht
  unfold execCombineDown at ht
  try dsimp only at ht
  repeat' (first | contradiction | (injection ht with ht; subst ht) | split at ht)
  all_goals (try dsimp only)
  all_goals (repeat' (with_reducible first | assumption | apply kept_alive | apply kept_receiveSeg | apply kept_takeCombine | refine Kept.fst ?_ ‹_› | intro _ | split))

theorem kept_execCredit {K : State} (pkt : Pkt) (hdr : SegHdr) (slot : Word32) (s : State) (hs : Kept K s) :
    ∀ z, execCredit pkt hdr slot s = .next z → Kept K z := by
  intro z ht
  unfold execCredit at ht
  try dsimp only at ht
  repeat' (first | contradiction | (injection ht with ht; subst ht) | split at ht)
  all_goals (try dsimp only)
  all_goals (repeat' (with_reducible first | assumption | apply kept_alive | apply kept_receiveSeg | apply kept_takeCredit | refine Kept.fst ?_ ‹_› | intro _ | split))

theorem kept_execMcastSeg {K : State} (pkt : Pkt) (group : Half) (offset : Word64) (payload : List Byte) (s : State) (hs : Kept K s) :
    ∀ z, execMcastSeg pkt group offset payload s = .next z → Kept K z := by
  intro z ht
  unfold execMcastSeg at ht
  try dsimp only at ht
  repeat' (first | contradiction | (injection ht with ht; subst ht) | split at ht)
  all_goals (try dsimp only)
  all_goals (repeat' (with_reducible first | assumption | apply kept_alive | apply kept_receive | apply kept_takeBulk | apply kept_takeStream | refine Kept.fst ?_ ‹_› | intro _ | split))

theorem kept_receiveMcast {K : State} (s : State) (pkt : Pkt) (op : Nat) (offset : Word64) (hs : Kept K s) :
    Kept K (receiveMcast s pkt op offset) := by
  unfold receiveMcast
  try dsimp only
  repeat' (with_reducible first | assumption | apply kept_receive | apply kept_takeControl | intro _)

theorem kept_execPublish {K : State} (pkt : Pkt) (offset : Word64) (s : State) (hs : Kept K s) :
    ∀ z, execPublish pkt offset s = .next z → Kept K z := by
  intro z ht
  unfold execPublish at ht
  try dsimp only at ht
  repeat' (first | contradiction | (injection ht with ht; subst ht) | split at ht)
  all_goals (try dsimp only)
  all_goals (repeat' (with_reducible first | assumption | apply kept_alive | apply kept_receiveMcast | intro _))

theorem kept_execDetach {K : State} (pkt : Pkt) (offset : Word64) (s : State) (hs : Kept K s) :
    ∀ z, execDetach pkt offset s = .next z → Kept K z := by
  intro z ht
  unfold execDetach at ht
  try dsimp only at ht
  repeat' (first | contradiction | (injection ht with ht; subst ht) | split at ht)
  all_goals (try dsimp only)
  all_goals (repeat' (with_reducible first | assumption | apply kept_alive | apply kept_receiveMcast | intro _))

theorem kept_execJoin {K : State} (pkt : Pkt) (offset : Word64) (s : State) (hs : Kept K s) :
    ∀ z, execJoin pkt offset s = .next z → Kept K z := by
  intro z ht
  unfold execJoin at ht
  try dsimp only at ht
  repeat' (first | contradiction | (injection ht with ht; subst ht) | split at ht)
  all_goals (try dsimp only)
  all_goals (repeat' (with_reducible first | assumption | apply kept_alive | apply kept_receiveMcast | intro _))

theorem kept_execAccept {K : State} (pkt : Pkt) (offset : Word64) (s : State) (hs : Kept K s) :
    ∀ z, execAccept pkt offset s = .next z → Kept K z := by
  intro z ht
  unfold execAccept at ht
  try dsimp only at ht
  repeat' (first | contradiction | (injection ht with ht; subst ht) | split at ht)
  all_goals (try dsimp only)
  all_goals (repeat' (with_reducible first | assumption | apply kept_alive | apply kept_receiveMcast | intro _))

theorem kept_execRefuse {K : State} (pkt : Pkt) (offset : Word64) (s : State) (hs : Kept K s) :
    ∀ z, execRefuse pkt offset s = .next z → Kept K z := by
  intro z ht
  unfold execRefuse at ht
  try dsimp only at ht
  repeat' (first | contradiction | (injection ht with ht; subst ht) | split at ht)
  all_goals (try dsimp only)
  all_goals (repeat' (with_reducible first | assumption | apply kept_alive | apply kept_receiveMcast | intro _))

theorem kept_execScConfirm {K : State} (pkt : Pkt) (signature : List Byte) (s : State) (hs : Kept K s) :
    ∀ z, execScConfirm pkt signature s = .next z → Kept K z := by
  intro z ht
  unfold execScConfirm at ht
  try dsimp only at ht
  repeat' (first | contradiction | (injection ht with ht; subst ht) | split at ht)
  all_goals (try dsimp only)
  all_goals (repeat' (with_reducible first | assumption | apply kept_alive | apply kept_receive | apply kept_takeControl | intro _))

theorem kept_execScClose {K : State} (pkt : Pkt) (cause : Byte) (s : State) (hs : Kept K s) :
    ∀ z, execScClose pkt cause s = .next z → Kept K z := by
  intro z ht
  unfold execScClose at ht
  try dsimp only at ht
  repeat' (first | contradiction | (injection ht with ht; subst ht) | split at ht)
  all_goals (try dsimp only)
  all_goals (repeat' (with_reducible first | assumption | apply kept_alive | apply kept_receive | apply kept_takeControl | intro _))

theorem kept_execAck {K : State} (pkt : Pkt) (s : State) (hs : Kept K s) :
    ∀ z, execAck pkt s = .next z → Kept K z := by
  intro z ht
  unfold execAck at ht
  try dsimp only at ht
  repeat' (first | contradiction | (injection ht with ht; subst ht) | split at ht)
  all_goals (try dsimp only)
  all_goals (repeat' (with_reducible first | assumption | apply Kept.ident | apply kept_alive | apply kept_receive | intro _))

theorem kept_beginReg {K : State} (s : State) (i : Nat) (k : Pkt) (head : Nat) (hs : Kept K s) :
    Kept K (beginReg s i k head) := by
  unfold beginReg
  try dsimp only
  repeat' (with_reducible first | assumption | apply kept_takeControl | apply Kept.ite | apply Kept.itePair | split | ((conv => pattern (State.mk ..)); first | apply Kept.upd))

theorem kept_beginMsg {K : State} (s : State) (src : Source) (pos : MsgPos) (hs : Kept K s) :
    Kept K (beginMsg s src pos) := by
  unfold beginMsg
  try dsimp only
  repeat' (with_reducible first | assumption | apply kept_receive | apply kept_beginReg | intro _ | apply Kept.ite | apply Kept.itePair | split | ((conv => pattern (State.mk ..)); first | apply Kept.upd))

theorem kept_endReg {K : State} (s : State) (i : Nat) (q : Word32) (answer : Out) (hs : Kept K s) :
    Kept K (endReg s i q answer) := by
  unfold endReg
  try dsimp only
  repeat' (with_reducible first | assumption | apply kept_send | apply kept_sessPut | apply kept_sendAck | apply kept_runHeld | apply Kept.ite | apply Kept.itePair | split)

theorem kept_endMsg {K : State} (s : State) (src : Source) (q : Word32) (results : List (Nat × Word64)) (hs : Kept K s) :
    Kept K (endMsg s src q results) := by
  unfold endMsg
  try dsimp only
  repeat' (with_reducible first | assumption | apply kept_emit | apply kept_endReg | split | ((conv => pattern (State.mk ..)); first | apply Kept.upd))

theorem kept_runOp {K : State} (s : State) (src : Source) (pos : MsgPos) (w : Princ) (m : MsgProgress) (op : State → Princ → State × Nat × Word64) (hs : Kept K s) (hop : ∀ x0 x1, Kept K x0 → Kept K (op x0 x1).1) :
    Kept K (runOp s src pos w m op) := by
  unfold runOp
  try dsimp only
  repeat' (with_reducible first | assumption | apply kept_endMsg | apply hop | refine Kept.fst ?_ ‹_› | intro _ | apply Kept.ite | apply Kept.itePair | split | ((conv => pattern (State.mk ..)); first | apply Kept.upd))

theorem kept_keepOp {K : State} (s : State) (src : Source) (pos : MsgPos) (m : MsgProgress) (l : List RegOpd) (o : RegOpd) (hs : Kept K s) :
    Kept K (keepOp s src pos m l o) := by
  unfold keepOp
  try dsimp only
  repeat' (with_reducible first | assumption | apply kept_takeControlAt | apply Kept.ite | apply Kept.itePair | split | ((conv => pattern (State.mk ..)); first | apply Kept.upd))

theorem kept_regOp {K : State} (s : State) (src : Source) (pos : MsgPos) (code : Nat) (o : RegOpd) (op : State → Princ → State × Nat × Word64) (hs : Kept K s) (hop : ∀ x0 x1, Kept K x0 → Kept K (op x0 x1).1) :
    Kept K (regOp s src pos code o op) := by
  unfold regOp
  try dsimp only
  repeat' (with_reducible first | assumption | apply kept_beginMsg | apply kept_keepOp | apply kept_runOp | apply hop | refine Kept.fst ?_ ‹_› | intro _ | apply Kept.ite | apply Kept.itePair | split)

theorem kept_execRead {K : State} (src : Source) (addr : Word64) (pos : MsgPos) (s : State) (hs : Kept K s) :
    ∀ z, execRead src addr pos s = .next z → Kept K z := by
  intro z ht
  unfold execRead at ht
  try dsimp only at ht
  repeat' (first | contradiction | (injection ht with ht; subst ht) | split at ht)
  all_goals (try dsimp only)
  all_goals (repeat' (with_reducible first | assumption | apply kept_alive | apply kept_regOp | apply kept_doRead | refine Kept.fst ?_ ‹_› | intro _ | split))

theorem kept_execWrite {K : State} (src : Source) (addr data : Word64) (pos : MsgPos) (s : State) (hs : Kept K s) :
    ∀ z, execWrite src addr data pos s = .next z → Kept K z := by
  intro z ht
  unfold execWrite at ht
  try dsimp only at ht
  repeat' (first | contradiction | (injection ht with ht; subst ht) | split at ht)
  all_goals (try dsimp only)
  all_goals (repeat' (with_reducible first | assumption | apply kept_alive | apply kept_regOp | apply kept_doWrite | refine Kept.fst ?_ ‹_› | intro _ | split))

theorem kept_execWriteMasked {K : State} (src : Source) (addr data mask : Word64) (pos : MsgPos) (s : State) (hs : Kept K s) :
    ∀ z, execWriteMasked src addr data mask pos s = .next z → Kept K z := by
  intro z ht
  unfold execWriteMasked at ht
  try dsimp only at ht
  repeat' (first | contradiction | (injection ht with ht; subst ht) | split at ht)
  all_goals (try dsimp only)
  all_goals (repeat' (with_reducible first | assumption | apply kept_alive | apply kept_regOp | apply kept_doWrite | refine Kept.fst ?_ ‹_› | intro _ | split))

theorem kept_readBack {K : State} (f : State → Nat → State) (s : State) (p : Nat) (hf : ∀ x0 x1, Kept K x0 → Kept K (f x0 x1)) (hs : Kept K s) :
    Kept K (readBack f s p) := by
  unfold readBack
  try dsimp only
  repeat' (with_reducible first | assumption | apply kept_takeover | apply kept_activeExpires | apply hf | intro _ | apply Kept.getD | apply Kept.ite | apply Kept.itePair | split | ((conv => pattern (State.mk ..)); first | apply Kept.upd | apply Kept.regFilter | apply Kept.memFilter))

theorem kept_partRow {K : State} (op : Nat) (f : State → Nat → State) (s : State) (hf : ∀ x0 x1, Kept K x0 → Kept K (f x0 x1)) (hs : Kept K s) :
    ∀ z, partRow op f s = .next z → Kept K z := by
  intro z ht
  unfold partRow at ht
  try dsimp only at ht
  repeat' (first | contradiction | (injection ht with ht; subst ht) | split at ht)
  all_goals (try dsimp only)
  all_goals (repeat' (with_reducible first | assumption | apply kept_alive | apply kept_requestEnd | apply kept_readBack | apply hf | intro _ | apply Kept.ite | apply Kept.itePair | split))

theorem kept_execCreate {K : State} (s : State) (hs : Kept K s) :
    ∀ z, execCreate s = .next z → Kept K z := by
  intro z ht
  unfold execCreate at ht
  refine kept_partRow _ _ _ ?_ ?_ z ht
  all_goals (repeat' (with_reducible first | assumption | refine kept_partRow _ _ _ ?_ ?_ | apply kept_partCreate | intro _))

theorem kept_execGrow {K : State} (s : State) (hs : Kept K s) :
    ∀ z, execGrow s = .next z → Kept K z := by
  intro z ht
  unfold execGrow at ht
  refine kept_partRow _ _ _ ?_ ?_ z ht
  all_goals (repeat' (with_reducible first | assumption | refine kept_partRow _ _ _ ?_ ?_ | apply kept_partGrow | intro _))

theorem kept_execShrink {K : State} (s : State) (hs : Kept K s) :
    ∀ z, execShrink s = .next z → Kept K z := by
  intro z ht
  unfold execShrink at ht
  refine kept_partRow _ _ _ ?_ ?_ z ht
  all_goals (repeat' (with_reducible first | assumption | refine kept_partRow _ _ _ ?_ ?_ | apply kept_partShrink | intro _))

theorem kept_execStart {K : State} (s : State) (hs : Kept K s) :
    ∀ z, execStart s = .next z → Kept K z := by
  intro z ht
  unfold execStart at ht
  refine kept_partRow _ _ _ ?_ ?_ z ht
  all_goals (repeat' (with_reducible first | assumption | refine kept_partRow _ _ _ ?_ ?_ | apply kept_partStart | intro _))

theorem kept_execStop {K : State} (s : State) (hs : Kept K s) :
    ∀ z, execStop s = .next z → Kept K z := by
  intro z ht
  unfold execStop at ht
  refine kept_partRow _ _ _ ?_ ?_ z ht
  all_goals (repeat' (with_reducible first | assumption | refine kept_partRow _ _ _ ?_ ?_ | apply kept_partStop | intro _))

theorem kept_execReset {K : State} (s : State) (hs : Kept K s) :
    ∀ z, execReset s = .next z → Kept K z := by
  intro z ht
  unfold execReset at ht
  refine kept_partRow _ _ _ ?_ ?_ z ht
  all_goals (repeat' (with_reducible first | assumption | refine kept_partRow _ _ _ ?_ ?_ | apply kept_partReset | intro _))

theorem kept_execDestroy {K : State} (s : State) (hs : Kept K s) :
    ∀ z, execDestroy s = .next z → Kept K z := by
  intro z ht
  unfold execDestroy at ht
  refine kept_partRow _ _ _ ?_ ?_ z ht
  all_goals (repeat' (with_reducible first | assumption | refine kept_partRow _ _ _ ?_ ?_ | apply kept_partDestroy | intro _))

theorem kept_execAdmitPart {K : State} (s : State) (hs : Kept K s) :
    ∀ z, execAdmitPart s = .next z → Kept K z := by
  intro z ht
  unfold execAdmitPart at ht
  refine kept_partRow _ _ _ ?_ ?_ z ht
  all_goals (repeat' (with_reducible first | assumption | refine kept_partRow _ _ _ ?_ ?_ | apply kept_partAdmit | intro _))

theorem kept_execSetL1 {K : State} (s : State) (hs : Kept K s) :
    ∀ z, execSetL1 s = .next z → Kept K z := by
  intro z ht
  unfold execSetL1 at ht
  refine kept_partRow _ _ _ ?_ ?_ z ht
  all_goals (repeat' (with_reducible first | assumption | refine kept_partRow _ _ _ ?_ ?_ | apply kept_partSetL1 | intro _))

theorem kept_soleOp {K : State} (s : State) (i : Half) (op : State → Princ → State × Nat × Word64) (hs : Kept K s) (hop : ∀ x0 x1, Kept K x0 → Kept K (op x0 x1).1) :
    Kept K (soleOp s i op) := by
  unfold soleOp
  try dsimp only
  repeat' (with_reducible first | assumption | apply kept_tally | apply kept_sessPut | apply kept_takeControlAt | apply kept_endReg | apply hop | refine Kept.fst ?_ ‹_› | intro _ | apply Kept.ite | apply Kept.itePair | split)

theorem kept_askOp {K : State} (s : State) (src : Source) (op : State → Princ → State × Nat × Word64) (hs : Kept K s) (hop : ∀ x0 x1, Kept K x0 → Kept K (op x0 x1).1) :
    Kept K (askOp s src op) := by
  unfold askOp
  try dsimp only
  repeat' (with_reducible first | assumption | apply kept_emit | apply kept_soleOp | apply hop | refine Kept.fst ?_ ‹_› | intro _ | split)

theorem kept_askWord {K : State} (s : State) (src : Source) (addr : Nat) (data : Word64) (hs : Kept K s) :
    Kept K (askWord s src addr data) := by
  unfold askWord
  try dsimp only
  repeat' (with_reducible first | assumption | apply kept_askOp | apply kept_doWrite | refine Kept.fst ?_ ‹_› | intro _ | split)

theorem kept_askField {K : State} (s : State) (src : Source) (pg : Nat) (f : FRef) (v : Nat) (hs : Kept K s) :
    Kept K (askField s src pg f v) := by
  unfold askField
  try dsimp only
  repeat' (with_reducible first | assumption | apply kept_askOp | apply kept_doWrite | refine Kept.fst ?_ ‹_› | intro _ | split)

theorem kept_execRequestRunning {K : State} (src : Source) (page : BitVec 12) (s : State) (hs : Kept K s) :
    ∀ z, execRequestRunning src page s = .next z → Kept K z := by
  intro z ht
  unfold execRequestRunning at ht
  try dsimp only at ht
  repeat' (first | contradiction | (injection ht with ht; subst ht) | split at ht)
  all_goals (try dsimp only)
  all_goals (repeat' (with_reducible first | assumption | apply kept_alive | apply kept_askField | intro _))

theorem kept_execRequestStopped {K : State} (src : Source) (page : BitVec 12) (s : State) (hs : Kept K s) :
    ∀ z, execRequestStopped src page s = .next z → Kept K z := by
  intro z ht
  unfold execRequestStopped at ht
  try dsimp only at ht
  repeat' (first | contradiction | (injection ht with ht; subst ht) | split at ht)
  all_goals (try dsimp only)
  all_goals (repeat' (with_reducible first | assumption | apply kept_alive | apply kept_askField | intro _))

theorem kept_execClearFault {K : State} (src : Source) (page : BitVec 12) (s : State) (hs : Kept K s) :
    ∀ z, execClearFault src page s = .next z → Kept K z := by
  intro z ht
  unfold execClearFault at ht
  try dsimp only at ht
  repeat' (first | contradiction | (injection ht with ht; subst ht) | split at ht)
  all_goals (try dsimp only)
  all_goals (repeat' (with_reducible first | assumption | apply kept_alive | apply kept_askField | intro _))

theorem kept_execNapEntry {K : State} (src : Source) (g : GalRef) (s : State) (hs : Kept K s) :
    ∀ z, execNapEntry src g s = .next z → Kept K z := by
  intro z ht
  unfold execNapEntry at ht
  try dsimp only at ht
  repeat' (first | contradiction | (injection ht with ht; subst ht) | split at ht)
  all_goals (try dsimp only)
  all_goals (repeat' (with_reducible first | assumption | apply kept_alive | apply kept_askField | intro _))

theorem kept_execSleepEntry {K : State} (src : Source) (g : GalRef) (s : State) (hs : Kept K s) :
    ∀ z, execSleepEntry src g s = .next z → Kept K z := by
  intro z ht
  unfold execSleepEntry at ht
  try dsimp only at ht
  repeat' (first | contradiction | (injection ht with ht; subst ht) | split at ht)
  all_goals (try dsimp only)
  all_goals (repeat' (with_reducible first | assumption | apply kept_alive | apply kept_askField | intro _))

theorem kept_execLowPowerExit {K : State} (src : Source) (g : GalRef) (s : State) (hs : Kept K s) :
    ∀ z, execLowPowerExit src g s = .next z → Kept K z := by
  intro z ht
  unfold execLowPowerExit at ht
  try dsimp only at ht
  repeat' (first | contradiction | (injection ht with ht; subst ht) | split at ht)
  all_goals (try dsimp only)
  all_goals (repeat' (with_reducible first | assumption | apply kept_alive | apply kept_askField | intro _))

theorem kept_execEvtEnWrite {K : State} (src : Source) (page : BitVec 12) (data : Word64) (s : State) (hs : Kept K s) :
    ∀ z, execEvtEnWrite src page data s = .next z → Kept K z := by
  intro z ht
  unfold execEvtEnWrite at ht
  try dsimp only at ht
  repeat' (first | contradiction | (injection ht with ht; subst ht) | split at ht)
  all_goals (try dsimp only)
  all_goals (repeat' (with_reducible first | assumption | apply kept_alive | apply kept_askWord | intro _))

theorem kept_execVecDestWrite {K : State} (src : Source) (vec : Fin 4096) (data : Word64) (s : State) (hs : Kept K s) :
    ∀ z, execVecDestWrite src vec data s = .next z → Kept K z := by
  intro z ht
  unfold execVecDestWrite at ht
  try dsimp only at ht
  repeat' (first | contradiction | (injection ht with ht; subst ht) | split at ht)
  all_goals (try dsimp only)
  all_goals (repeat' (with_reducible first | assumption | apply kept_alive | apply kept_askWord | intro _))

theorem kept_execBayClearFault {K : State} (src : Source) (g : Fin 256) (mask : BitVec 4) (s : State) (hs : Kept K s) :
    ∀ z, execBayClearFault src g mask s = .next z → Kept K z := by
  intro z ht
  unfold execBayClearFault at ht
  try dsimp only at ht
  repeat' (first | contradiction | (injection ht with ht; subst ht) | split at ht)
  all_goals (try dsimp only)
  all_goals (repeat' (with_reducible first | assumption | apply kept_alive | apply kept_askField | intro _))

theorem kept_execSpareMapping {K : State} (die : Fin 4) (data : Word64) (s : State) (hs : Kept K s) :
    ∀ z, execSpareMapping die data s = .next z → Kept K z := by
  intro z ht
  unfold execSpareMapping at ht
  try dsimp only at ht
  repeat' (first | contradiction | (injection ht with ht; subst ht) | split at ht)
  all_goals (try dsimp only)
  all_goals (repeat' (with_reducible first | assumption | apply kept_alive | apply kept_askWord | intro _))

theorem kept_execMoverResume {K : State} (src : Source) (g : Fin 256) (m : Fin 2) (s : State) (hs : Kept K s) :
    ∀ z, execMoverResume src g m s = .next z → Kept K z := by
  intro z ht
  unfold execMoverResume at ht
  try dsimp only at ht
  repeat' (first | contradiction | (injection ht with ht; subst ht) | split at ht)
  all_goals (try dsimp only)
  all_goals (repeat' (with_reducible first | assumption | apply kept_alive | apply kept_askField | intro _))

theorem kept_execMoverAbort {K : State} (src : Source) (g : Fin 256) (m : Fin 2) (s : State) (hs : Kept K s) :
    ∀ z, execMoverAbort src g m s = .next z → Kept K z := by
  intro z ht
  unfold execMoverAbort at ht
  try dsimp only at ht
  repeat' (first | contradiction | (injection ht with ht; subst ht) | split at ht)
  all_goals (try dsimp only)
  all_goals (repeat' (with_reducible first | assumption | apply kept_alive | apply kept_askField | intro _))

theorem kept_execChannelRetire {K : State} (src : Source) (stack : Nat) (channel : Fin 32) (s : State) (hs : Kept K s) :
    ∀ z, execChannelRetire src stack channel s = .next z → Kept K z := by
  intro z ht
  unfold execChannelRetire at ht
  try dsimp only at ht
  repeat' (first | contradiction | (injection ht with ht; subst ht) | split at ht)
  all_goals (try dsimp only)
  all_goals (repeat' (with_reducible first | assumption | apply kept_alive | apply kept_askOp | apply kept_doWrite | refine Kept.fst ?_ ‹_› | intro _ | apply Kept.ite | apply Kept.itePair | split))

theorem kept_execTailWrite {K : State} (src : Source) (g : Fin 256) (q : Fin 4) (tail : Word32) (s : State) (hs : Kept K s) :
    ∀ z, execTailWrite src g q tail s = .next z → Kept K z := by
  intro z ht
  unfold execTailWrite at ht
  try dsimp only at ht
  repeat' (first | contradiction | (injection ht with ht; subst ht) | split at ht)
  all_goals (try dsimp only)
  all_goals (repeat' (with_reducible first | assumption | apply kept_alive | apply kept_askWord | intro _))

theorem kept_execQueueResume {K : State} (src : Source) (g : Fin 256) (q : Fin 4) (s : State) (hs : Kept K s) :
    ∀ z, execQueueResume src g q s = .next z → Kept K z := by
  intro z ht
  unfold execQueueResume at ht
  try dsimp only at ht
  repeat' (first | contradiction | (injection ht with ht; subst ht) | split at ht)
  all_goals (try dsimp only)
  all_goals (repeat' (with_reducible first | assumption | apply kept_alive | apply kept_askField | intro _))

theorem kept_execQueueFlush {K : State} (src : Source) (g : Fin 256) (q : Fin 4) (s : State) (hs : Kept K s) :
    ∀ z, execQueueFlush src g q s = .next z → Kept K z := by
  intro z ht
  unfold execQueueFlush at ht
  try dsimp only at ht
  repeat' (first | contradiction | (injection ht with ht; subst ht) | split at ht)
  all_goals (try dsimp only)
  all_goals (repeat' (with_reducible first | assumption | apply kept_alive | apply kept_askField | intro _))

theorem kept_execEglLock {K : State} (src : Source) (xdie : Fin 6) (s : State) (hs : Kept K s) :
    ∀ z, execEglLock src xdie s = .next z → Kept K z := by
  intro z ht
  unfold execEglLock at ht
  try dsimp only at ht
  repeat' (first | contradiction | (injection ht with ht; subst ht) | split at ht)
  all_goals (try dsimp only)
  all_goals (repeat' (with_reducible first | assumption | apply kept_alive | apply kept_askField | intro _))

theorem kept_execRingOpen {K : State} (src : Source) (ring : Ring) (s : State) (hs : Kept K s) :
    ∀ z, execRingOpen src ring s = .next z → Kept K z := by
  intro z ht
  unfold execRingOpen at ht
  try dsimp only at ht
  repeat' (first | contradiction | (injection ht with ht; subst ht) | split at ht)
  all_goals (try dsimp only)
  all_goals (repeat' (with_reducible first | assumption | apply kept_alive | apply kept_askField | intro _))

theorem kept_execRingClose {K : State} (src : Source) (ring : Ring) (s : State) (hs : Kept K s) :
    ∀ z, execRingClose src ring s = .next z → Kept K z := by
  intro z ht
  unfold execRingClose at ht
  try dsimp only at ht
  repeat' (first | contradiction | (injection ht with ht; subst ht) | split at ht)
  all_goals (try dsimp only)
  all_goals (repeat' (with_reducible first | assumption | apply kept_alive | apply kept_askField | intro _))

theorem kept_execHold {K : State} (src : Source) (p : Fin 64) (value : Bool) (s : State) (hs : Kept K s) :
    ∀ z, execHold src p value s = .next z → Kept K z := by
  intro z ht
  unfold execHold at ht
  try dsimp only at ht
  repeat' (first | contradiction | (injection ht with ht; subst ht) | split at ht)
  all_goals (try dsimp only)
  all_goals (repeat' (with_reducible first | assumption | apply kept_alive | apply kept_askField | intro _))

theorem kept_execCvStart {K : State} (src : Source) (xdie : Fin 6) (u : Fin 8) (s : State) (hs : Kept K s) :
    ∀ z, execCvStart src xdie u s = .next z → Kept K z := by
  intro z ht
  unfold execCvStart at ht
  try dsimp only at ht
  repeat' (first | contradiction | (injection ht with ht; subst ht) | split at ht)
  all_goals (try dsimp only)
  all_goals (repeat' (with_reducible first | assumption | apply kept_alive | apply kept_askField | intro _))

theorem kept_execCvAbort {K : State} (src : Source) (xdie : Fin 6) (u : Fin 8) (s : State) (hs : Kept K s) :
    ∀ z, execCvAbort src xdie u s = .next z → Kept K z := by
  intro z ht
  unfold execCvAbort at ht
  try dsimp only at ht
  repeat' (first | contradiction | (injection ht with ht; subst ht) | split at ht)
  all_goals (try dsimp only)
  all_goals (repeat' (with_reducible first | assumption | apply kept_alive | apply kept_askField | intro _))

theorem kept_execScanStart {K : State} (src : Source) (xdie : Fin 6) (s : State) (hs : Kept K s) :
    ∀ z, execScanStart src xdie s = .next z → Kept K z := by
  intro z ht
  unfold execScanStart at ht
  try dsimp only at ht
  repeat' (first | contradiction | (injection ht with ht; subst ht) | split at ht)
  all_goals (try dsimp only)
  all_goals (repeat' (with_reducible first | assumption | apply kept_alive | apply kept_askField | intro _))

theorem kept_execScanAbort {K : State} (src : Source) (xdie : Fin 6) (s : State) (hs : Kept K s) :
    ∀ z, execScanAbort src xdie s = .next z → Kept K z := by
  intro z ht
  unfold execScanAbort at ht
  try dsimp only at ht
  repeat' (first | contradiction | (injection ht with ht; subst ht) | split at ht)
  all_goals (try dsimp only)
  all_goals (repeat' (with_reducible first | assumption | apply kept_alive | apply kept_askField | intro _))

theorem kept_execIdleRequest {K : State} (src : Source) (value : Bool) (s : State) (hs : Kept K s) :
    ∀ z, execIdleRequest src value s = .next z → Kept K z := by
  intro z ht
  unfold execIdleRequest at ht
  try dsimp only at ht
  repeat' (first | contradiction | (injection ht with ht; subst ht) | split at ht)
  all_goals (try dsimp only)
  all_goals (repeat' (with_reducible first | assumption | apply kept_alive | apply kept_askField | intro _))

theorem kept_execRmonPeakClear {K : State} (src : Source) (die : Fin 10) (s : State) (hs : Kept K s) :
    ∀ z, execRmonPeakClear src die s = .next z → Kept K z := by
  intro z ht
  unfold execRmonPeakClear at ht
  try dsimp only at ht
  repeat' (first | contradiction | (injection ht with ht; subst ht) | split at ht)
  all_goals (try dsimp only)
  all_goals (repeat' (with_reducible first | assumption | apply kept_alive | apply kept_askField | intro _))

theorem kept_execLdgGrantWrite {K : State} (src : Source) (data : Word64) (s : State) (hs : Kept K s) :
    ∀ z, execLdgGrantWrite src data s = .next z → Kept K z := by
  intro z ht
  unfold execLdgGrantWrite at ht
  try dsimp only at ht
  repeat' (first | contradiction | (injection ht with ht; subst ht) | split at ht)
  all_goals (try dsimp only)
  all_goals (repeat' (with_reducible first | assumption | apply kept_alive | apply kept_askWord | intro _))

theorem kept_execStreamEnable {K : State} (src : Source) (j : Fin 16) (s : State) (hs : Kept K s) :
    ∀ z, execStreamEnable src j s = .next z → Kept K z := by
  intro z ht
  unfold execStreamEnable at ht
  try dsimp only at ht
  repeat' (first | contradiction | (injection ht with ht; subst ht) | split at ht)
  all_goals (try dsimp only)
  all_goals (repeat' (with_reducible first | assumption | apply kept_alive | apply kept_askField | intro _))

theorem kept_execWatchArm {K : State} (src : Source) (g : Fin 256) (w : Fin 4) (s : State) (hs : Kept K s) :
    ∀ z, execWatchArm src g w s = .next z → Kept K z := by
  intro z ht
  unfold execWatchArm at ht
  try dsimp only at ht
  repeat' (first | contradiction | (injection ht with ht; subst ht) | split at ht)
  all_goals (try dsimp only)
  all_goals (repeat' (with_reducible first | assumption | apply kept_alive | apply kept_askField | intro _))

theorem kept_execObsUnlockNew {K : State} (src : Source) (s : State) (hs : Kept K s) :
    ∀ z, execObsUnlockNew src s = .next z → Kept K z := by
  intro z ht
  unfold execObsUnlockNew at ht
  try dsimp only at ht
  repeat' (first | contradiction | (injection ht with ht; subst ht) | split at ht)
  all_goals (try dsimp only)
  all_goals (repeat' (with_reducible first | assumption | apply kept_alive | apply kept_askField | intro _))

theorem kept_execObsUnlockCheck {K : State} (src : Source) (s : State) (hs : Kept K s) :
    ∀ z, execObsUnlockCheck src s = .next z → Kept K z := by
  intro z ht
  unfold execObsUnlockCheck at ht
  try dsimp only at ht
  repeat' (first | contradiction | (injection ht with ht; subst ht) | split at ht)
  all_goals (try dsimp only)
  all_goals (repeat' (with_reducible first | assumption | apply kept_alive | apply kept_askField | intro _))

theorem kept_execObsUnlockLock {K : State} (src : Source) (s : State) (hs : Kept K s) :
    ∀ z, execObsUnlockLock src s = .next z → Kept K z := by
  intro z ht
  unfold execObsUnlockLock at ht
  try dsimp only at ht
  repeat' (first | contradiction | (injection ht with ht; subst ht) | split at ht)
  all_goals (try dsimp only)
  all_goals (repeat' (with_reducible first | assumption | apply kept_alive | apply kept_askField | intro _))

theorem kept_execOutNow {K : State} (src : Source) (s : State) (hs : Kept K s) :
    ∀ z, execOutNow src s = .next z → Kept K z := by
  intro z ht
  unfold execOutNow at ht
  try dsimp only at ht
  repeat' (first | contradiction | (injection ht with ht; subst ht) | split at ht)
  all_goals (try dsimp only)
  all_goals (repeat' (with_reducible first | assumption | apply kept_alive | apply kept_askField | intro _))

theorem kept_execTrigRestart {K : State} (src : Source) (s : State) (hs : Kept K s) :
    ∀ z, execTrigRestart src s = .next z → Kept K z := by
  intro z ht
  unfold execTrigRestart at ht
  try dsimp only at ht
  repeat' (first | contradiction | (injection ht with ht; subst ht) | split at ht)
  all_goals (try dsimp only)
  all_goals (repeat' (with_reducible first | assumption | apply kept_alive | apply kept_askField | intro _))

theorem kept_mailCurwrite {K : State} (s : State) (b : List Byte) (hs : Kept K s) :
    Kept K (mailCurwrite s b).1 := by
  unfold mailCurwrite
  try dsimp only
  repeat' (with_reducible first | assumption | apply kept_doWrite | apply kept_putRecord | refine Kept.fst ?_ ‹_› | apply Kept.ite | apply Kept.itePair | split)

theorem kept_execCurwrite {K : State} (session : Half) (k : Fin 16) (s : State) (hs : Kept K s) :
    ∀ z, execCurwrite session k s = .next z → Kept K z := by
  intro z ht
  unfold execCurwrite at ht
  try dsimp only at ht
  repeat' (first | contradiction | (injection ht with ht; subst ht) | split at ht)
  all_goals (try dsimp only)
  all_goals (repeat' (with_reducible first | assumption | apply kept_alive | apply kept_mailRow | apply kept_mailCurwrite | refine Kept.fst ?_ ‹_› | intro _ | split))

end Sys2Proof.Machine
end

