-- ==== Sys2Proof/Laws/Reads.lean ====
section
/-! SUPPORT. What a field reads after each shared update of the register file: one lemma per update, for a field of another register. -/

namespace Sys2Proof.Machine

/-- A page whose registers no event of another page changes: not one of the event-vector table, nor a transport page (R71, R372). -/
def eventFree (pg : Nat) : Prop := (pg < 2112 ∨ 2176 ≤ pg) ∧ ∀ x, pg ≠ ztPage x

theorem notEventWord {pg off : Nat} (h : off < 4096) (hp : eventFree pg) : ¬ eventWord (pg * 4096 + off) := by
  obtain ⟨h1, h2⟩ := hp
  rintro (⟨v, hv, e⟩ | ⟨x, hx⟩)
  · simp only [vecAddr, xPage, if_pos (show (0 : Nat) < 4 by decide)] at e
    omega
  · have := h2 x
    have : typeIndex 0x08 = 7 := rfl
    omega

/-- A field of another page, or of another register of the page, or of other bits, stands. -/
theorem rd_wr_page (s : State) (pg : Nat) (f : FRef) (v pg' : Nat) (f' : FRef) (hf : f.off < 4096) (hf' : f'.off < 4096) (h : pg' ≠ pg) :
    rd (wr s pg f v) pg' f' = rd s pg' f' := by
  simp only [rd, regGet_wr]
  rw [if_neg]
  omega

theorem rd_wr_off (s : State) (pg : Nat) (f : FRef) (v : Nat) (f' : FRef) (h : f'.off ≠ f.off) :
    rd (wr s pg f v) pg f' = rd s pg f' := by
  simp only [rd, regGet_wr]
  rw [if_neg]
  omega

/-- An event leaves every register of an event-free page but EVT_RAW of its own (R70). -/
theorem rd_raiseOn (s : State) (pg b v pg' : Nat) (f : FRef) (hv : v < 4096) (h : pg' * 4096 + f.off ≠ pg * 4096 + 0x20)
    (hf : f.off < 4096) (hp : eventFree pg') : rd (raiseOn s pg b v) pg' f = rd s pg' f := by
  rw [rd, regGet_raiseOn s pg b v _ hv h (notEventWord hf hp), rd]

theorem rd_raise (s : State) (pg b pg' : Nat) (f : FRef) (h : pg' * 4096 + f.off ≠ pg * 4096 + 0x20) (hf : f.off < 4096)
    (hp : eventFree pg') : rd (raise s pg b) pg' f = rd s pg' f := rd_raiseOn _ _ _ _ _ _ (rd_lt _ _ _) h hf hp

/-- An event leaves every header register but EVT_RAW of its own page, on any page. -/
theorem rd_raise_header (s : State) (pg b pg' : Nat) (f : FRef) (hf : f.off < 0x100) (h : f.off ≠ 0x20) :
    rd (raise s pg b) pg' f = rd s pg' f := by
  rw [rd, regGet_raise s pg b _ (by omega) (header_not_eventWord hf h), rd]

/-- A Ledger counter raised leaves every header register but EVT_RAW, on any page. -/
theorem rd_tally_header (s : State) (pg i w pg' : Nat) (f : FRef) (hf : f.off < 0x100) (h : f.off ≠ 0x20) (hi : i < 248) :
    rd (tally s pg i w) pg' f = rd s pg' f := by
  rw [rd, regGet_tally s pg i w _ (by omega) (by omega) (header_not_eventWord hf h), rd]

/-- A Ledger counter raised leaves every register below the Ledger region but EVT_RAW of its page (R522). -/
theorem rd_tally (s : State) (pg i w pg' : Nat) (f : FRef) (h : pg' * 4096 + f.off ≠ pg * 4096 + 0x20)
    (hi : pg' * 4096 + f.off ≠ pg * 4096 + 0x840 + 8 * i) (hf : f.off < 4096) (hp : eventFree pg') :
    rd (tally s pg i w) pg' f = rd s pg' f := by
  rw [rd, regGet_tally s pg i w _ hi h (notEventWord hf hp), rd]

/-- An error record changes ERR_INFO and ERR_ADDR alone (R52). -/
theorem rd_recordErr (s : State) (pg code : Nat) (part : Option Nat) (addr : Nat) (phys : Bool) (detail pg' : Nat) (f : FRef)
    (h1 : pg' * 4096 + f.off ≠ pg * 4096 + 0x38) (h2 : pg' * 4096 + f.off ≠ pg * 4096 + 0x40) :
    rd (recordErr s pg code part addr phys detail) pg' f = rd s pg' f := by
  rw [rd, regGet_recordErr s pg code part addr phys detail _ h1 h2, rd]

/-- A counter raised without a wrap holds the sum (R522). -/
theorem regGet_tally_self (s : State) (pg i w : Nat) (h : bits (regGet s (pg * 4096 + 0x840 + 8 * i)) 0 48 + w < 2 ^ 48) :
    regGet (tally s pg i w) (pg * 4096 + 0x840 + 8 * i) =
      setBits (regGet s (pg * 4096 + 0x840 + 8 * i)) 0 48 (bits (regGet s (pg * 4096 + 0x840 + 8 * i)) 0 48 + w) % 2 ^ 64 := by
  unfold tally tallyBy
  dsimp only
  rw [if_pos h, regGet_regPut_same]

end Sys2Proof.Machine
end

