-- ==== Sys2Proof/WellFormed.lean ====
section
/-! DEFINITION. What makes the operands of a command well formed: the sizes the packet formats fix. A command that breaks
one is none that the formats make; each check has a name, and a meaning covers such a command all the same. -/

namespace Sys2Proof

/-- The checks on operands. -/
inductive Malformed where
  /-- A payload longer than the 8,192 bytes of R340. -/
  | payloadTooLong
  /-- A session-control field of the wrong size (R345). -/
  | fieldSize
  /-- A BLOCKS payload of a length that its NBLK blocks of 33 or 65 bytes cannot have (R389). -/
  | blockCount
  /-- A stack number no ordering code has (R6, R22). -/
  | stackRange
  /-- A frame beyond 9,216 bytes (R334). -/
  | frameTooLong
  /-- Stage times other than the seven of R538. -/
  | stageCount
  deriving DecidableEq, Repr

/-- The payload bytes a Zazel command carries. -/
def payloadOf (i : Instr) : List Byte :=
  match i with
  | .bulkWrite _ _ _ _ b => b
  | .bulkRdata _ _ _ b => b
  | .blocks _ _ _ _ b => b
  | .combineUp _ _ _ b => b
  | .combineDown _ _ _ b => b
  | .mcastSeg _ _ _ b => b
  | _ => []

/-- The sizes of session-control fields (R345). -/
def scSizesOk (i : Instr) : Bool :=
  match i with
  | .scInit _ m => m.nonce.length == 16 && m.x448.length == 56 && m.ed448.length == 57
  | .scAccept _ m => m.nonce.length == 16 && m.x448.length == 56 && m.ed448.length == 57 && m.signature.length == 114
  | .scConfirm _ g => g.length == 114
  | _ => true

/-- Whether a BLOCKS payload has a length that its header's count of blocks allows (R389). -/
def blocksOk (i : Instr) : Bool :=
  match i with
  | .blocks _ _ _ n b => decide (33 * n.toNat ≤ b.length) && decide (b.length ≤ 65 * n.toNat) && decide (b.length ≤ 8184)
  | _ => true

/-- Whether a stack operand can name a stack. -/
def stackOk (i : Instr) : Bool :=
  match i with
  | .rowRepair k _ _ _ => decide (k < 14)
  | .channelRetire _ k _ => decide (k < 14)
  | .retirementCopyComplete k => decide (k < 14)
  | .patrolScrub k => decide (k < 14)
  | .hbmThermalThrottle k _ => decide (k < 14)
  | .selfRefreshEntry k => decide (k < 14)
  | _ => true

/-- Whether a frame is within the largest the ports carry (R334). -/
def frameOk (i : Instr) : Bool :=
  match i with
  | .nonZazelFrame _ f => decide (f.length ≤ 9216)
  | .egressFrame _ (some f) => decide (f.length ≤ 9216)
  | _ => true

/-- Whether a provenance micro-operation carries its stage times (R537). -/
def stagesOk (i : Instr) : Bool :=
  match i with
  | .provenanceRecord m => m.stages.length == 7
  | _ => true

/-- The checks a command fails, in the order of `Malformed`. -/
def illFormed (i : Instr) : List Malformed :=
  (if (payloadOf i).length ≤ 8192 then [] else [.payloadTooLong]) ++ (if scSizesOk i then [] else [.fieldSize]) ++
    (if blocksOk i then [] else [.blockCount]) ++ (if stackOk i then [] else [.stackRange]) ++
    (if frameOk i then [] else [.frameTooLong]) ++ (if stagesOk i then [] else [.stageCount])

/-- A command that fails no check. -/
def wellFormed (i : Instr) : Bool := illFormed i == []

end Sys2Proof
end

