-- ==== Sys2Proof/Tests/Slice0.lean ====
section
/-! SUPPORT. The model's own tests: what is refused as ill formed, single steps with results from the manual, and for each statement
states and operands that meet its hypotheses. -/

namespace Sys2Proof.Tests

set_option Elab.async false

open Sys2Proof Sys2Proof.Machine Sys2Proof.Claims

/-- The state after reset. -/
def base : State := State.reset

/-- A page in a block state. -/
def inState (s : State) (pg st : Nat) : State := wr s pg fSTATE st

/-- A session of X-die 0 in a phase, with a role and a partition. -/
def session (phase : SessPhase) (role : Role) (p : Nat) : Sess := { sessNew base 0 phase role p 0 [] 0 true with key := [1], udpPort := 0xC000 }

/-- The state with session 5 OPEN with a role. -/
def opened (role : Role) (p : Nat) : State := sessPut base 5 (session .opened role p)

/-- The information of a page of the state. -/
def info (s : State) (pg : Nat) : PageInfo := (pageAt s pg).getD ⟨.port, 0, 0, kP, false⟩

/-- The only operation of the Curator's message, with an OP. -/
def alone (op : Word64) : MsgPos := ⟨true, true, false, none, 0, op⟩

/-- The message that the Curator has begun with it. -/
def begunMsg : MsgProgress := ⟨false, [], 0, none⟩

/-- A message of session 5 under way, two operations with results, one of them failed. -/
def midMsg : MsgProgress := ⟨true, [(rALIGN, 0), (rDONE, 7)], 1, none⟩

/-- A later operation of it under STOP_ON_ERROR. -/
def later (op : Word64) : MsgPos := ⟨false, false, true, none, 0, op⟩

/-- The administrator's session 5 with that message under way. -/
def midway : State := { opened .administrator 0 with msgs := [(6, midMsg)] }

/-- A gallery's pages in a block state. -/
def galState (s : State) (g st : Nat) : State := (fourPages (galPage g)).foldl (fun t p => inState t p st) s

/-- The state with the reset fill of a gallery done. -/
def there (s : State) (pg : Nat) : State := galPut s pg { galIdle with fill := .none }

theorem witness_ReadsAnswerOrRefuse :
    InTurn base (beginMsg base .curator (alone 0)) .curator .curator (alone 0) begunMsg ∧ Executes (alone 0) begunMsg ∧
    Reached (beginMsg base .curator (alone 0)) .curator 0x800100 (info base 0x800) ∧
    Reached (beginMsg { base with regBad := [0x800100] } .curator (alone 0)) .curator 0x800100 (info base 0x800) ∧
    InTurn midway midway (.session 5) .administrator (later 0) midMsg ∧ ¬ Executes (later 0) midMsg ∧
    2 ^ 24 ≤ (0x1000000 : Word64).toNat ∧ (0xFFFFFC : Word64).toNat % 8 ≠ 0 ∧ pageAt base (0xFFFFF8 / 4096) = none ∧
    Executes (alone 3) begunMsg ∧
    addressRefusal base 0 = none ∧ reaches base .curator 0 (info base 0) 0 = true ∧ inReset base 0 (info base 0) = true := by decide +kernel

theorem witness_WriteReplacesRegister :
    InTurn base (beginMsg base .curator (alone 1)) .curator .curator (alone 1) begunMsg ∧ Executes (alone 2) begunMsg ∧
    (info base 0x801).type = .port ∧ Passes (beginMsg base .curator (alone 2)) .curator 0x801110 5 0xFF (info base 0x801) ∧
    Passes (beginMsg base .curator (alone 1)) .curator 0x801110 (2 ^ 64 - 1) (2 ^ 64 - 1) (info base 0x801) ∧
    Passes (there base 0) .curator 0x3138 5 0xFF (info base 3) ∧ (info base 3).type = .censusKettle ∧
    (∃ f, regFields (info base 3) 0x138 = some [f] ∧ shownWord (there base 0) 3 (info base 3) 0x138 = none ∧ f.acc = .rw ∧ f.lo + f.width ≤ 64) ∧
    InTurn midway midway (.session 5) .administrator (later 1) midMsg ∧ ¬ Executes (later 1) midMsg := by
  refine ⟨by decide +kernel, by decide +kernel, by decide +kernel, by decide +kernel, by decide +kernel, by decide +kernel, by decide +kernel, ?_, by decide +kernel⟩
  exact ⟨_, rfl, by decide +kernel⟩

theorem opens_curator (s : State) (h : Live s) : Opens s .curator .curator := ⟨h, rfl, fun _ _ e => by cases e⟩

theorem witness_RequestsAreFieldWrites : Opens base .curator .curator ∧ Opens (opened .tenant 3) (.session 5) (.tenant 3) ∧
    stackCount base.code = 12 ∧ sessGet base 5 = none ∧ (session .opening .tenant 3).phase ≠ .opened ∧
    sessGet (opened .peer 3) (5 : Half).toNat = some (session .opened .peer 3) := by
  refine ⟨opens_curator _ (by decide +kernel), ⟨by decide +kernel, by decide +kernel, ?_⟩, by decide +kernel, by decide +kernel, by decide +kernel,
    by rfl⟩
  intro i x hs hx
  cases hs
  have h : sessGet (opened .tenant 3) (5 : Half).toNat = some (session .opened .tenant 3) := by rfl
  rw [h] at hx
  cases hx
  rfl

theorem witness_BlockStateRequests :
    Opens base .curator .curator ∧ Passes base .curator 0x801010 1 1 (info base 0x801) ∧ blkState base 0x801 = stStopped ∧
    bit (regRead base 0x801 (info base 0x801) 0x010) 0 = false ∧
    Passes (there (wr (galState base 0 stRunning) 0 fRUN 1) 0) .curator 0x010 0 1 (info base 0) ∧
    bit (regRead (there (wr (galState base 0 stRunning) 0 fRUN 1) 0) 0 (info base 0) 0x010) 0 = true ∧
    Passes (there (galState base 0 stFaulted) 0) .curator 0x010 2 2 (info base 0) := ⟨opens_curator _ (by decide +kernel), by decide +kernel⟩

theorem witness_DrainEndsStop :
    Live base ∧ pageAt base 1 = some (info base 1) ∧ blkState (galState base 0 stStopping) 1 = stStopping ∧
    drained (galState base 0 stStopping) 1 = true ∧
    blkState (wr (galState base 0 stStopping) 1 fCAUSE 2) 1 = stStopping ∧ drained (wr (galState base 0 stStopping) 1 fCAUSE 2) 1 = true ∧
    blkState base 1 ≠ stStopping ∧ pageAt base 0xFFF = none := by decide +kernel

theorem witness_FaultsAreTaken :
    Live (galState base 0 stRunning) ∧ pageAt base 1 = some (info base 1) ∧ blkState (galState base 0 stRunning) 1 = stRunning ∧
    rd (galState base 0 stRunning) 1 fERRVALID = 0 ∧ blkState base 1 = stStopped ∧ blkState (galState base 0 stFaulted) 1 = stFaulted ∧
    blkState (galState base 0 stAsleep) 1 = stAsleep := by decide +kernel

theorem witness_LowPowerEntry :
    Opens (there base 0) .curator .curator ∧ (info base 0).type = .galleryControl ∧ blkState (there base 0) 0 = stStopped ∧
    Passes (there base 0) .curator 0x010 (1 * 2 ^ 4) (3 * 2 ^ 4) (info base 0) ∧
    Passes (there base 0x110) .curator 0x110010 (2 * 2 ^ 4) (3 * 2 ^ 4) (info base 0x110) ∧
    bits (regRead (there base 0) 0 (info base 0) 0x010) 4 2 = 0 := ⟨opens_curator _ (by decide +kernel), by decide +kernel⟩

/-- Gallery 0 asleep, in Nap or in Sleep. -/
def asleep (kind : Nat) : State := wr (galState (there base 0) 0 stAsleep) 0 fLOWPWR kind

theorem witness_LowPowerExitAndFills :
    Passes (asleep 1) .curator 0x010 0 (3 * 2 ^ 4) (info base 0) ∧
    Passes (asleep 2) .curator 0x010 0 (3 * 2 ^ 4) (info base 0) ∧ blkState (asleep 1) 0 = stAsleep ∧
    bits (regRead (asleep 1) 0 (info base 0) 0x010) 4 2 ≠ 0 ∧ galThere base (.active 255) = true ∧
    (galGet base (galRefPage (.active 255))).fill = .reset ∧
    (galGet (galPut base 0 { galIdle with fill := .wake }) (galRefPage (.active 0))).fill = .wake ∧
    (galGet (galPut (asleep 1) 0 { galIdle with fill := .napRead }) (galRefPage (.active 0))).fill = .napRead ∧
    ∀ n < 4, blkState (galPut (asleep 1) 0 { galIdle with fill := .napRead }) (galRefPage (.active 0) + n) = stAsleep := by decide +kernel

/-- Vector 7 valid, to session 5 of partition 3, after one event that is 9 µs old, its limit 9 µs. -/
def waitingVector : State :=
  let s := { opened .tenant 3 with now := 9000, vecLast := [(7, ⟨0, 0x400000, 1, 0⟩)] }
  regPut (regPut s (vecAddr 7) (5 + 3 * 2 ^ 40 + 2 ^ 48 + 9 * 2 ^ 24)) (vecAddr 7 + 8) (1 + 41 * 2 ^ 32)

theorem witness_EventRegisterWrites :
    Passes (there base 0) .curator 0x028 0xF (2 ^ 64 - 1) (info base 0) ∧
    Passes (opened .tenant 3) .curator (vecAddr 4095) (5 + 3 * 2 ^ 40 + 2 ^ 48) (2 ^ 64 - 1) (info base (vecAddr 4095 / 4096)) := by
  decide +kernel

theorem witness_CoalesceTimeDelivers :
    Live waitingVector ∧ CoalesceDue waitingVector 7 ∧ vecReachable waitingVector 7 = true ∧ bits (regGet base (vecAddr 7)) 24 16 = 0 ∧
    ledger waitingVector (ztPage (sessXdie (bits (regGet waitingVector (vecAddr 7)) 0 16))) (typeIndex 0x08) + 1 < 2 ^ 48 ∧
    CoalesceDue { waitingVector with sess := [] } 7 ∧ vecReachable { waitingVector with sess := [] } 7 = false ∧
    8999 < ((tfind waitingVector.vecLast 7).getD ⟨0, 0, 0, 0⟩).oldest + bits (regGet waitingVector (vecAddr 7)) 24 16 * 1000 := by decide +kernel
/-- Bytes with n of them at an offset replaced by a number. -/
def patch (b : List Byte) (f : Nat × Nat × Nat) : List Byte := b.take f.1 ++ leBytes f.2.1 f.2.2 ++ b.drop (f.1 + f.2.1)

/-- Bytes of a length, zero but for the fields (offset, width, value). -/
def packed (n : Nat) (fs : List (Nat × Nat × Nat)) : List Byte := fs.foldl patch (List.replicate n 0)

/-- A command of EPOCH 7 with an operation code. -/
def command (op : Nat) (fs : List (Nat × Nat × Nat)) : List Byte := packed 128 ([(0, 1, op), (16, 4, 7)] ++ fs)

/-- Partition 3 with gallery 0 running, EPOCH 7, lead; its page 0 is a frame of module flash, mapped writable (R252, R253). -/
def owned : State :=
  let s := (fourPages 0).foldl (fun t pg => wr (wr (wr t pg fASSIGNED 1) pg fOWNER 3) pg fEPOCH 7) (wr (galState (there base 0) 0 stRunning) 0 fSTALE 0)
  let x : Part := { partNone with alloc := [.frame 100, .frame 101], flash := [.frame 0], stp := { stepNone with started := true, snapOk := true } }
  partPut { wr (wr (wr (wr s 3 fLEAD 1) 2 (fMEN 0) 1) 2 (fMEN 1) 1) rootPage (fPSTATE 3) 2 with
    frameOwner := [(100, 3), (101, 3)]
    mem := [(frameSize * 100, 1), (frameSize * 100 + 1, 1), (frameSize * 101, 6)] } 3 x

/-- Bytes placed at a virtual address of partition 3, above those placed before. -/
def placed (s : State) (va : Nat) (b : List Byte) : State :=
  { s with mem := s.mem ++ (b.zipIdx.filter (fun e => e.1 != 0)).map (fun e => (flashBase + va + e.2, e.1)) }

/-- Queue 0 of gallery 0 with two slots at page 0, one command presented. -/
def queued (b : List Byte) : State :=
  let s := wr (wr (wr (wr owned 0 (fQLOG2 0) 1) 0 (fQEN 0) 1) 0 (fQCPL 0) 0x2000) 0 (fQTAIL 0) 1
  placed s 0 b

/-- A caddy of gallery 0: 1 KiB in slots of 256 bytes, for every bay. -/
def caddied (s : State) (c role : Nat) : State := regPut s (2 * 4096 + 0x200 + 8 * c) (4 * c + 4 * 2 ^ 16 + role * 2 ^ 36 + 2 ^ 39 + 15 * 2 ^ 40)

/-- The ten caddies of the tests: streamed, stationary, accumulator, output, vector operand, scratch, scratch, two for output, and resident. -/
def laidOut (s : State) : State := [1, 1, 2, 3, 5, 6, 6, 3, 3, 4].zipIdx.foldl (fun t e => caddied t e.2 e.1) s

/-- A transfer descriptor of two dimensions, the first K. -/
def transferBytes (k m dir esize caddy : Nat) : List Byte :=
  packed 160 [(0, 6, 0x8000), (6, 1, 2), (7, 1, 1), (8, 1, esize), (9, 1, dir), (10, 1, caddy), (16, 4, k), (20, 2, 1), (24, 4, m), (28, 2, 1), (30, 1, 1),
    (64, 8, 4), (72, 4, k), (80, 8, 4 * k), (88, 4, m)]

/-- The layer of the tests: the example of R159 with no correction. -/
def layered (s : State) : State :=
  placed (wr (wr s 0 fSNAPBASE 0x800) 0 fSNAPCOUNT 1) 0x800 (packed 16 [(0, 4, 2 ^ 31), (8, 8, 0x8631000082)])

/-- A state ready for a command of a unit: its bytes queued, the caddies, the layer and the transfers. -/
def ready (b : List Byte) (ts : List (List Byte)) : State :=
  ts.zipIdx.foldl (fun t e => placed t (0x1000 + 256 * e.2) e.1) (layered (laidOut (queued b)))

/-- An ARRAY command of M = 1, K = 2, N = 1. -/
def arrayBytes : List Byte :=
  command 1 [(32, 6, 0x1000), (38, 6, 0x1100), (45, 1, 1), (46, 1, 2), (50, 6, 2 ^ 48 - 1), (68, 4, 1), (72, 4, 2), (76, 4, 1)]

/-- The state that holds it. -/
def arrayReady : State := ready arrayBytes [transferBytes 2 1 0 0 0, transferBytes 2 1 0 0 1]

theorem shaped_of (s : State)
    (h : s.gals.all (fun e => e.2.bays.length == 4 && e.2.queues.length == 4 && e.2.movers.length == 2) = true) : Shaped s := by
  intro pg
  have key : ∀ l : List (Nat × Gallery), l.all (fun e => e.2.bays.length == 4 && e.2.queues.length == 4 && e.2.movers.length == 2) = true →
      GalShaped ((tfind l pg).getD galIdle) := by
    intro l
    induction l with
    | nil => intro _; exact ⟨rfl, rfl, rfl⟩
    | cons e r ih =>
      intro h
      simp only [List.all_cons, Bool.and_eq_true, beq_iff_eq] at h
      unfold tfind
      split
      · exact ⟨h.1.1.1, h.1.1.2, h.1.2⟩
      · exact ih h.2
  have := key s.gals h
  unfold galGet tget
  exact this

/-- Whether a result is a value. -/
def isOk {ε α : Type} (x : Except ε α) : Bool :=
  match x with
  | .ok _ => true
  | .error _ => false

theorem ok_of {ε α : Type} (x : Except ε α) (h : isOk x = true) : ∃ v, x = .ok v := by
  cases x with
  | ok v => exact ⟨v, rfl⟩
  | error e => cases h

theorem head_of (s : State) (g q i : Nat) (b : List Byte)
    (h : (match headCommand s g q with | some (j, .ok d) => j == i && d == b | _ => false) = true) : headCommand s g q = some (i, .ok b) := by
  split at h
  · simp only [Bool.and_eq_true, beq_iff_eq] at h
    rename_i e
    rw [e, h.1, h.2]
  · cases h

/-- The ARRAY command begun, with its operands taken. -/
def arrayBegun : Begun := { begunOf 0 0 arrayBytes 0x8631000082 0 0 .running with bufA := [1, 2], bufW := [3, 1] }

/-- Gallery 0 with it begun. -/
def arrayState : State := addBegun (takeHead arrayReady 0 0 0) 0 arrayBegun

/-- The accumulator slot taken for its one tile. -/
def arrayTaken : State × Begun := (takeAcc arrayState 0 arrayBegun (planOf 0 arrayBegun) 0).getD (owned, arrayBegun)

/-- A pass of it, with elements emitted. -/
def passOf (emitted : Nat) : Pass := ⟨0, 0, 0, 2, 1, emitted⟩

/-- Its first pass started, with bay 0 as given. -/
def inBay (x : Bay) : State := bayPut (begunPut arrayTaken.1 0 { arrayTaken.2 with loaded := 1 }) 0 0 x

/-- The command with its two operands one stream, steep. -/
def steepBegun : Begun := { arrayBegun with word := 0x10000 }

/-- Gallery 0 with that command begun. -/
def steepState : State := addBegun (takeHead arrayReady 0 0 0) 0 steepBegun

theorem witness_ReloadStartLoadsNextPass :
    Live arrayState ∧ Shaped arrayState ∧ nextToLoad arrayState 0 0 = some arrayBegun ∧ cmdOp arrayBegun.bytes = 1 ∧
    correlated (planOf (bayMode arrayState 0) arrayBegun) arrayBegun = false ∧ nextPass arrayState 0 arrayBegun = (0, 0) ∧
    (takeAcc arrayState 0 arrayBegun (planOf (bayMode arrayState 0) arrayBegun) 0).isSome = true ∧
    Live steepState ∧ Shaped steepState ∧ nextToLoad steepState 0 0 = some steepBegun ∧ cmdOp steepBegun.bytes = 1 ∧
    correlated (planOf (bayMode steepState 0) steepBegun) steepBegun = true :=
  ⟨by decide +kernel, shaped_of _ (by decide +kernel), by decide +kernel, by decide +kernel, by decide +kernel, by decide +kernel,
    by decide +kernel, by decide +kernel, shaped_of _ (by decide +kernel), by decide +kernel⟩

/-- The command with its first pass loaded. -/
def arrayLoaded : Begun := { arrayTaken.2 with loaded := 1 }

/-- Bay 0 with a pass to load. -/
def loadingBay (loaded entered : List Nat) : Bay := { bayIdle with load := some (passOf 0), rowsLoaded := loaded, rowsEntered := entered }

/-- A state whose array page is in split mode. -/
def splitUp (s : State) : State := wr s (arrPage 0) ⟨0x100, 0, 2⟩ 1

theorem witness_RowsLoadAndEnter :
    Live (inBay (loadingBay [] [])) ∧ Shaped (inBay (loadingBay [] [])) ∧ running (inBay (loadingBay [] [])) (arrPage 0) = true ∧
    (arrivingRow (inBay (loadingBay [] [])) 0 0 1).isSome = true ∧ (passOf 0).rows = 2 ∧
    (arrivingRow (splitUp (inBay (loadingBay [] []))) 0 0 1).isSome = true ∧ bayMode (splitUp (inBay (loadingBay [] []))) 0 = 1 ∧
    streamWhole (inBay (loadingBay [1] [])) 0 0 = true ∧
    passElements (inBay { loadingBay [0] [] with cur := some (passOf 0) }) 0 (passOf 0) - 0 ≤ 4 :=
  ⟨by decide +kernel, shaped_of _ (by decide +kernel), by decide +kernel⟩

theorem witness_ElementEmitAdvancesPass :
    Live (inBay { bayIdle with cur := some (passOf 0) }) ∧ Shaped (inBay { bayIdle with cur := some (passOf 0) }) ∧
    emitting (inBay { bayIdle with cur := some (passOf 0) }) 0 0 = some (passOf 0, arrayLoaded) ∧
    ¬ (passOf 0).emitted + 1 < (planOf 0 arrayLoaded).m ∧
    (0 : Nat) + 1 < (planOf 0 { arrayLoaded with bytes := arrayBytes.set 68 (2 : Byte) }).m :=
  ⟨by decide +kernel, shaped_of _ (by decide +kernel), by decide +kernel⟩

/-- The draining bay. -/
def drainingBay : State := inBay { bayIdle with old := some (passOf 1) }

/-- Bay 3 of gallery 0 FAULTED. -/
def faultedBay : State := wr (there base 0) (arrPage 0) (fBAY 3) 3

theorem witness_PassesAndBaysDrain :
    (Live drainingBay ∧ Shaped drainingBay ∧ arrayGoes drainingBay 0 = true ∧
      (bayGet drainingBay 0 (streamBay drainingBay 0 0)).old = some (passOf 1) ∧ begunFind drainingBay 0 0 0 = some arrayLoaded ∧
      drains drainingBay 0 0 arrayLoaded (passOf 1) = true) ∧
    Live faultedBay ∧ Shaped faultedBay ∧ bayFaulted faultedBay 0 3 = true ∧ (bayGet faultedBay 0 3).faultDrained = false ∧
      (bayGet faultedBay 0 (streamBay faultedBay 0 3)).old = none ∧ (bayGet faultedBay 0 (streamBay faultedBay 0 3)).cur = none :=
  ⟨⟨by decide +kernel, shaped_of _ (by decide +kernel), by decide +kernel⟩, by decide +kernel, shaped_of _ (by decide +kernel),
    by decide +kernel⟩

theorem witness_ResidueFaultsBay :
    (0 : Nat) = (if bayMode drainingBay 0 = 1 then 0 else (255 : Fin 1024).val / 256) ∧ bayFaulted drainingBay 0 0 = false ∧
    (3 : Nat) = (if bayMode drainingBay 0 = 1 then 0 else (1023 : Fin 1024).val / 256) ∧ bayFaulted drainingBay 0 3 = false ∧
    (2 : Nat) = (if bayMode (splitUp drainingBay) 0 = 1 then 2 else (1023 : Fin 1024).val / 256) ∧
    bayFaulted (splitUp drainingBay) 0 2 = false := by decide +kernel

/-- The command with tile 0 to be compared. -/
def shadowed1 : Begun := { arrayBegun with index := 1, shadow := [0] }

/-- The drained faulted bay. -/
def drainedBay : State := bayPut faultedBay 0 3 { bayIdle with faultDrained := true }

theorem witness_ShadowTilesAndBayClear :
    Live (addBegun arrayState 0 shadowed1) ∧
    streamOpen (addBegun arrayState 0 shadowed1) 0 (streamBay (addBegun arrayState 0 shadowed1) 0 0) = true ∧
    (galGet (addBegun arrayState 0 shadowed1) (galPage 0)).begun.find?
      (fun c => c.queue == 0 && cmdOp c.bytes == 1 && c.phase == .running && c.shadow.contains 0) = some shadowed1 ∧
    Opens drainedBay .curator .curator ∧
    Passes (heard drainedBay .curator) .curator ((galPage 0 + 1) * 4096 + 0x110) 8 0xF (info base 1) ∧
    (info base 1).type = .arrayBays ∧ (info base 1).spare = false ∧ (info base 1).num = 0 ∧
    (galGet (heard drainedBay .curator) (galPage 0)).begun.filter (fun c => cmdOp c.bytes == 1 || cmdOp c.bytes == 4) = [] ∧
    (8 : Nat).testBit 3 = true ∧ bayFaulted (heard drainedBay .curator) 0 3 = true ∧
    Passes (heard (there base 0) .curator) .curator ((galPage 0 + 1) * 4096 + 0x110) 0 0xF (info base 1) :=
  ⟨by decide +kernel, by decide +kernel, by decide +kernel, opens_curator _ (by decide +kernel), by decide +kernel⟩

/-- A command that names no layer. -/
def plain (op : Nat) (fs : List (Nat × Nat × Nat)) : List Byte := command op ([(2, 2, 0xFFFF)] ++ fs)

/-- What makes a state present a command at queue 0 of gallery 0, with Orders 2 to 4 of R315 passed. -/
abbrev Offers (s : State) (b : List Byte) : Prop :=
  (match headCommand s 0 0 with | some (j, .ok d) => j == 0 && d == b | _ => false) = true ∧ Live s ∧ cmdEpoch b = rd s (galPage 0) fEPOCH ∧
    checkFormat b = true ∧ cmdStep b = rd s (galPage 0) fSTEP ∧ (qaux s 0 0).stepEnded = false

theorem presents_of (s : State) (b : List Byte) (h : Offers s b) : Presents s 0 0 0 b := ⟨h.2.1, head_of s 0 0 0 b h.1, h.2.2⟩

/-- A VECTOR command of four FP32 elements from scratch caddy 5 to scratch caddy 6. -/
def vectorBytes (op : Nat) : List Byte := plain 3 [(32, 2, op), (34, 1, 5), (35, 1, 255), (36, 1, 255), (37, 1, 6), (40, 8, 4)]

theorem witness_AcceptanceAdvancesHead : headCommand (queued (plain 0 [])) 0 0 = some (0, .ok (plain 0 [])) := head_of _ _ _ _ _ (by decide +kernel)

theorem witness_VectorRowsBegin :
    Presents (laidOut (queued (vectorBytes 0x11))) 0 0 0 (vectorBytes 0x11) ∧ Presents (laidOut (queued (vectorBytes 0x100))) 0 0 0 (vectorBytes 0x100) ∧
    Presents (laidOut (queued (vectorBytes 0x1FF))) 0 0 0 (vectorBytes 0x1FF) ∧
    [0x11, 0x100, 0x1FF].all (fun v => cmdOp (vectorBytes v) == 3 && vcode (vectorBytes v) == v && vdefined v &&
      checkVector (taken (laidOut (queued (vectorBytes v))) 0 0 0 (vectorBytes v)) 0 (vectorBytes v) == .pass) = true :=
  ⟨presents_of (laidOut (queued (vectorBytes 0x11))) (vectorBytes 0x11) (by decide +kernel), presents_of (laidOut (queued (vectorBytes 0x100))) (vectorBytes 0x100) (by decide +kernel), presents_of (laidOut (queued (vectorBytes 0x1FF))) (vectorBytes 0x1FF) (by decide +kernel), by decide +kernel⟩

/-- A FENCE on its own queue, whose command 0 it is. -/
def fenceBytes : List Byte := plain 8 [(32, 1, 1), (40, 2, 0), (44, 4, 0)]

/-- Queue 1 of gallery 0 halted at index 0. -/
def haltedOther (b : List Byte) : State := wr (queued b) 0 (fQSTATE 1) 2

/-- A FENCE on queue 1 up to index 5. -/
def fenceOther : List Byte := plain 8 [(32, 1, 1), (40, 2, 1), (44, 4, 5)]

theorem witness_ImmediateCommandsComplete :
    Presents (queued (plain 0 [])) 0 0 0 (plain 0 []) ∧ Presents (queued fenceBytes) 0 0 0 fenceBytes ∧
    Presents (haltedOther fenceOther) 0 0 0 fenceOther ∧ Presents (queued (plain 9 [])) 0 0 0 (plain 9 []) ∧
    Presents (queued (plain 10 [])) 0 0 0 (plain 10 []) ∧ Shaped (queued (plain 10 [])) ∧
    checkFence (taken (queued fenceBytes) 0 0 0 fenceBytes) 0 0 0 fenceBytes = .pass ∧ checkFence (taken (haltedOther fenceOther) 0 0 0 fenceOther) 0 0 0 fenceOther = .pass ∧
    (fenceEntries fenceOther).any (fenceHalted (accepted (haltedOther fenceOther) 0 0 0 fenceOther)) = true ∧
    pageOwner (queued (plain 10 [])) (galPage 0) ≠ none :=
  ⟨presents_of (queued (plain 0 [])) (plain 0 []) (by decide +kernel), presents_of (queued fenceBytes) fenceBytes (by decide +kernel), presents_of (haltedOther fenceOther) fenceOther (by decide +kernel), presents_of (queued (plain 9 [])) (plain 9 []) (by decide +kernel),
    presents_of (queued (plain 10 [])) (plain 10 []) (by decide +kernel), shaped_of _ (by decide +kernel), by decide +kernel⟩

theorem witness_CompletionAdvancesDone :
    Shaped (takeHead (queued (plain 0 [])) 0 0 0) ∧ (cmdFlags (plain 0 [])).testBit 3 = false ∧ (cmdFlags (plain 0 [])).testBit 0 = false ∧
    rd (takeHead (queued (plain 0 [])) 0 0 0) (galPage 0) (fQDONE 0) = 0 ∧ (qaux (takeHead (queued (plain 0 [])) 0 0 0) 0 0).ahead = [] ∧
    rd (takeHead (queued (plain 0 [])) 0 0 0) (galPage 0) (fQSTATE 0) ≠ 2 ∧
    rd (wr (takeHead (queued (plain 0 [])) 0 0 0) 0 (fQDONE 0) (2 ^ 32 - 1)) (galPage 0) (fQDONE 0) = 2 ^ 32 - 1 :=
  ⟨shaped_of _ (by decide +kernel), by decide +kernel⟩

/-- TRANSFER by mover 0; ATTENTION of one query and one key; COMMIT, SKETCH and ROTATE. -/
def transferCmd : List Byte := plain 2 [(32, 6, 0x1000)]
def transferState : State := ready transferCmd [transferBytes 2 1 0 0 0]
def attentionCmd : List Byte :=
  command 4 [(32, 6, 0x1000), (38, 6, 0x1100), (44, 6, 0x1200), (50, 6, 0x1300), (56, 6, 0x1400), (62, 2, 64), (72, 4, 0x3F800000), (80, 8, 1)]
def attentionState : State :=
  ready attentionCmd [transferBytes 2 1 0 0 0, transferBytes 2 1 0 0 1, transferBytes 1 1 0 0 4, transferBytes 1 1 1 0 7, transferBytes 1 1 1 1 8]
def commitCmd : List Byte := plain 5 [(32, 6, 0x1000)]
def commitState : State :=
  ready commitCmd [packed 32 [(0, 6, 0x1100), (6, 2, 1), (8, 6, 0x4000), (16, 6, 0x5000), (22, 1, 4)], packed 64 [(48, 8, 1)]]
def sketchCmd : List Byte := command 6 [(32, 6, 0x1000), (38, 6, 0x1100), (44, 2, 8)]
def sketchState : State := ready sketchCmd [transferBytes 2 1 0 0 1, transferBytes 2 8 1 1 3]
def rotateCmd (hops : Nat) : List Byte := plain 7 [(32, 6, 0x1000), (38, 1, hops)]
/-- Galleries 0 and 1 of partition 3 in a ring. -/
def rotateState (hops : Nat) : State :=
  let s := ready (rotateCmd hops) [packed 144 [(0, 1, 2), (1, 1, 9), (4, 4, 256), (18, 2, 1)]]
  (fourPages 4).foldl (fun t pg => wr (wr t pg fASSIGNED 1) pg fOWNER 3) s

theorem witness_UnitCommandsBegin :
    Presents arrayReady 0 0 0 arrayBytes ∧ Presents transferState 0 0 0 transferCmd ∧ Presents attentionState 0 0 0 attentionCmd ∧
    Presents commitState 0 0 0 commitCmd ∧ Presents sketchState 0 0 0 sketchCmd ∧ Presents (rotateState 0) 0 0 0 (rotateCmd 0) ∧
    Presents (rotateState 1) 0 0 0 (rotateCmd 1) ∧
    (checkLayer (taken arrayReady 0 0 0 arrayBytes) 0 arrayBytes = .pass ∧ checkArray (taken arrayReady 0 0 0 arrayBytes) 0 arrayBytes = .pass ∧
      checkTransfer (taken transferState 0 0 0 transferCmd) 0 transferCmd = .pass ∧ checkCommit (taken commitState 0 0 0 commitCmd) 0 commitCmd = .pass ∧
      checkLayer (taken sketchState 0 0 0 sketchCmd) 0 sketchCmd = .pass ∧ checkSketch (taken sketchState 0 0 0 sketchCmd) 0 sketchCmd = .pass ∧
      checkRotate (taken (rotateState 0) 0 0 0 (rotateCmd 0)) 0 (rotateCmd 0) = .pass ∧ checkRotate (taken (rotateState 1) 0 0 0 (rotateCmd 1)) 0 (rotateCmd 1) = .pass) :=
  ⟨presents_of arrayReady arrayBytes (by decide +kernel), presents_of transferState transferCmd (by decide +kernel), presents_of attentionState attentionCmd (by decide +kernel), presents_of commitState commitCmd (by decide +kernel),
    presents_of sketchState sketchCmd (by decide +kernel), presents_of (rotateState 0) (rotateCmd 0) (by decide +kernel), presents_of (rotateState 1) (rotateCmd 1) (by decide +kernel), by decide +kernel⟩

theorem witness_AttentionPasses :
    checkLayer (taken attentionState 0 0 0 attentionCmd) 0 attentionCmd = .pass ∧ checkAttention (taken attentionState 0 0 0 attentionCmd) 0 attentionCmd = .pass := by
  decide +kernel

theorem witness_RotateDescriptor : ∃ d, vload (accepted (rotateState 1) 0 0 0 (rotateCmd 1)) 3 0x1000 144 = .ok d := ok_of _ (by decide +kernel)

theorem witness_RefusedCommandsComplete :
    headCommand base 0 0 = none ∧ headCommand (wr (queued (plain 0 [])) 0 fEPOCH 8) 0 0 = some (0, .ok (plain 0 [])) ∧
    headCommand (queued (command 0 [])) 0 0 = some (0, .ok (command 0 [])) ∧
    headCommand (queued (plain 0 [(4, 4, 7)])) 0 0 = some (0, .ok (plain 0 [(4, 4, 7)])) ∧
    (cmdEpoch (plain 0 []) ≠ rd (wr (queued (plain 0 [])) 0 fEPOCH 8) 0 fEPOCH ∧ checkFormat (command 0 []) = false ∧
      checkFormat (plain 0 [(4, 4, 7)]) = true ∧ cmdStep (plain 0 [(4, 4, 7)]) ≠ rd (queued (plain 0 [(4, 4, 7)])) 0 fSTEP) :=
  ⟨Option.isNone_iff_eq_none.mp (by decide +kernel), head_of _ _ _ _ _ (by decide +kernel), head_of _ _ _ _ _ (by decide +kernel), head_of _ _ _ _ _ (by decide +kernel), by decide +kernel⟩

/-- A vector command begun, with its input held. -/
def vectorBegun : Begun := { begunOf 0 0 (vectorBytes 0x11) 0 0 0 .running with bufA := [0x3F800000, 0x40000000, 0x7FC00000, 0x80000000], loaded := 1 }

/-- Gallery 0 with it begun. -/
def vectorState : State := addBegun (takeHead (laidOut (queued (vectorBytes 0x11))) 0 0 0) 0 vectorBegun

/-- The ARRAY command of a queue over, with counts for an entry of the census. -/
def arrayOver (q : Nat) (census : Nat) : Begun := { arrayBegun with queue := q, bytes := patch arrayBytes (50, 6, census), phase := .ended 0 0 }

/-- Gallery 0 with it and with its census at a page that partition 3 has not mapped. -/
def countingState : State := wr (wr (addBegun vectorState 0 (arrayOver 1 0)) (cenPage 0) fCENEN 1) (cenPage 0) fCENBASE (2 ^ 30)

theorem witness_BegunCommandsComplete :
    Live vectorState ∧ begunFind vectorState 0 0 7 = none ∧ begunFind vectorState 0 0 0 = some vectorBegun ∧ vectorBegun.phase = .running ∧
    running vectorState (galPage 0) = true ∧ cmdOp vectorBegun.bytes = 3 ∧ cmdOp attentionCmd = 4 ∧ cmdOp sketchCmd = 6 ∧
    begunFind (addBegun vectorState 0 { vectorBegun with queue := 2, phase := .waiting }) 0 2 0 = some { vectorBegun with queue := 2, phase := .waiting } ∧
    begunFind (addBegun vectorState 0 { vectorBegun with queue := 2, phase := .ended 5 0 }) 0 2 0 =
      some { vectorBegun with queue := 2, phase := .ended 5 0 } ∧
    begunFind (addBegun vectorState 0 (arrayOver 1 (2 ^ 48 - 1))) 0 1 0 = some (arrayOver 1 (2 ^ 48 - 1)) ∧
    cmdOp (arrayOver 1 0).bytes = 1 ∧ (arrayCensus (addBegun vectorState 0 (arrayOver 1 (2 ^ 48 - 1))) 0 (arrayOver 1 (2 ^ 48 - 1))).2 = none ∧
    begunFind countingState 0 1 0 = some (arrayOver 1 0) ∧ (arrayCensus countingState 0 (arrayOver 1 0)).2.isSome = true := by decide +kernel

theorem witness_VectorResultsReachScratch :
    vectorTurn vectorState 0 vectorBegun = true ∧ vectorBegun.hops = 0 ∧ vectorBegun.loaded ≠ 0 ∧ vectorBegun.kept = [] ∧
    begunFind vectorState 0 0 0 = some vectorBegun ∧ vectorBegun.phase = .running ∧
    (∀ i ∈ vinputs vectorBegun.bytes, vwant vectorBegun.bytes i ≤ (inputBuf vectorBegun i).length ∧ twin vectorBegun.bytes i = none) ∧
    vofmt vectorBegun.bytes = 0 ∧ caddyRole (caddyWord vectorState (movPage 0) (vout vectorBegun.bytes)) = 6 := by decide +kernel

theorem witness_FunctionSpecialCases :
    isNan 0xFFFFFFFF = true ∧ isNan 0x7F800001 = true ∧ isNan 0x7F800000 = false ∧ isNan 0xFF800001 = true := by decide +kernel
/-- A request of the Curator that passes, as it can be decided. -/
abbrev asks (s : State) (pg off data mask : Nat) (ty : BlockType) : Prop :=
  Live s ∧ Passes (heard s .curator) .curator (pg * 4096 + off) data mask (info s pg) ∧ (info s pg).type = ty ∧ (info s pg).spare = false

/-- Requests of the Curator that all pass. -/
abbrev allAsk (l : List (State × Nat × Nat × Nat × Nat × BlockType)) : Prop :=
  ∀ r ∈ l, Asks r.1 .curator .curator r.2.1 r.2.2.1 r.2.2.2.1 r.2.2.2.2.1 (info r.1 r.2.1) r.2.2.2.2.2

theorem allAsk_of (l : List (State × Nat × Nat × Nat × Nat × BlockType))
    (h : ∀ r ∈ l, asks r.1 r.2.1 r.2.2.1 r.2.2.2.1 r.2.2.2.2.1 r.2.2.2.2.2) : allAsk l :=
  fun r hr => ⟨opens_curator _ (h r hr).1, (h r hr).2⟩

/-- Queue 0 of gallery 0 halted. -/
def haltedQueue : State := wr (queued (plain 0 [])) 0 (fQSTATE 0) 2

theorem witness_QueueRequestEffects :
    allAsk [(owned, 0, 0x210, 0, 2 ^ 64 - 1, .galleryControl),
      (queued (plain 0 []), 0, 0x210, 2, 2 ^ 64 - 1, .galleryControl),
      (haltedQueue, 0, 0x228, 1, 1, .galleryControl),
      (haltedQueue, 0, 0x228, 2, 2, .galleryControl)] ∧
    (info haltedQueue 0).num = 0 ∧
    rd (heard (queued (plain 0 [])) .curator) 0 (fQTAIL 0) ≠ 2 ∧
    (heard (queued (plain 0 [])) .curator).gals.all (fun e => e.2.bays.length == 4 && e.2.queues.length == 4 && e.2.movers.length == 2) = true :=
  ⟨allAsk_of _ (by decide +kernel), by decide +kernel⟩

/-- Mover 0 of gallery 0 with a job. -/
def moverState (job : Bool) (st : Nat) : State :=
  let s := if job then giveJob (addBegun (takeHead transferState 0 0 0) 0 (begunOf 0 0 transferCmd 0 0 0 .running)) 0 0 0 0 0x1000 (descAt transferState 0 0x1000)
    else there base 0
  wr s 2 (fMSTATE 0) st

theorem witness_MoverAndRetireRequestEffects :
    allAsk [(moverState true 2, 2, 0x118, 1, 1, .movers),
      (moverState true 2, 2, 0x118, 2, 2, .movers),
      (moverState false 2, 2, 0x118, 1, 1, .movers),
      (moverState false 2, 2, 0x118, 2, 2, .movers),
      (base, hbmPage base.code 11, 0x118, 31 + 0x100, 0x11F, .hbm)] ∧
    (moverJobs (moverState true 2) 0 0).length = 1 ∧
    moverJobs (moverState false 2) 0 0 = [] ∧
    pageOwner (moverState false 2) 0 = none ∧
    (info (moverState true 2) 2).num = 0 ∧
    (info base (hbmPage base.code 11)).num = 11 :=
  ⟨allAsk_of _ (by decide +kernel), by decide +kernel⟩

theorem witness_MoversAreShaped : Shaped (heard haltedQueue .curator) ∧ Shaped (heard (moverState true 2) .curator) :=
  ⟨shaped_of _ (by decide +kernel), shaped_of _ (by decide +kernel)⟩

theorem witness_SpareMappingTakesEffect :
    allAsk [(base, 3 * 512 + 0x100, 0x100, 0x80, 2 ^ 64 - 1, .cdieControl),
      (base, 3 * 512 + 0x100, 0x100, 0xBF * 2 ^ 24, 2 ^ 64 - 1, .cdieControl)] ∧
    bit (regRead (heard base .curator) (3 * 512 + 0x100) (info base 0x700) 0x100) 31 = false :=
  ⟨allAsk_of _ (by decide +kernel), by decide +kernel⟩

/-- The code with six X-dies. -/
def base6 : State := { base with code := .m10x6 }

/-- RES_A0.HOLD and PWR_MODE.IDLE. -/
def fHOLD0 : FRef := ⟨0x200, 49, 1⟩
def fIDLE : FRef := ⟨0x110, 0, 1⟩

/-- The ports of ring A running. -/
def ringRunning : State := (ringPorts base.code .a).foldl (fun t xp => inState t (portPage xp.1 xp.2) stRunning) base

theorem witness_LinkRequestEffects :
    allAsk [(base6, scanPage 5, 0x150, 2 ^ 32, 2 ^ 32, .memoryScan),
      (ringRunning, xPage 0 0, 0x130, 1, 1, .xdieControl),
      (wr base (xPage 0 0) (fROPEN .b) 1, xPage 0 0, 0x130, 0, 2, .xdieControl),
      (base, resPage base, 0x200, 2 ^ 49, 2 ^ 49, .flash),
      (base, resPage base, 0x200 + 24 * 63, 0, 2 ^ 49, .flash),
      (wr base (resPage base) fHOLD0 1, resPage base, 0x200, 0, 2 ^ 49, .flash)] ∧
    bit (regRead (heard ringRunning .curator) (xPage 0 0) (info base (xPage 0 0)) 0x130) 0 = false ∧
    bit (regRead (heard (wr base (xPage 0 0) (fROPEN .b) 1) .curator) (xPage 0 0) (info base (xPage 0 0)) 0x130) 1 = true ∧
    bit (regRead (heard (wr base (resPage base) fHOLD0 1) .curator) (resPage base) (info base (resPage base)) 0x200) 49 = true :=
  ⟨allAsk_of _ (by decide +kernel), by decide +kernel⟩

theorem witness_CheckRequestEffects :
    allAsk [(inState base6 (cvPage 5) stRunning, cvPage 5, 0x128 + 0x40 * 7, 1, 1, .checkValue),
      (wr (inState base6 (cvPage 5) stRunning) (cvPage 5) (fCVSTATE 7) 1, cvPage 5, 0x128 + 0x40 * 7, 2, 2, .checkValue),
      (inState base6 (scanPage 5) stRunning, scanPage 5, 0x118, 1, 1, .memoryScan),
      (wr (inState base6 (scanPage 5) stRunning) (scanPage 5) fSCSTATE 1, scanPage 5, 0x118, 2, 2, .memoryScan)] ∧
    (info base6 (cvPage 5)).xdie = 5 ∧
    (info base6 (scanPage 5)).xdie = 5 :=
  ⟨allAsk_of _ (by decide +kernel), by decide +kernel⟩

/-- Every active gallery in Sleep. -/
def sleeping : State :=
  { base with regs := (List.range 256).flatMap (fun g => [(galPage g * 4096 + 0x010, 2 * 2 ^ 4), (galPage g * 4096 + 0x018, BitVec.ofNat 64 stAsleep)]) }

theorem witness_PowerAndGrantRequestEffects :
    allAsk [(sleeping, pwrPage, 0x110, 1, 1, .power),
      (wr base pwrPage fIDLE 1, pwrPage, 0x110, 0, 1, .power),
      (base6, monitorPage 9, 0x108, 2 ^ 63, 2 ^ 63, .railMonitor),
      (base, dumpPage, 0x100, 2 ^ 64 - 1, 2 ^ 64 - 1, .dump),
      (there base (galPage 255), galPage 255, 0x600 + 0x40 * 3, 2 ^ 43, 2 ^ 43, .galleryControl)] ∧
    bit (regRead (heard sleeping .curator) pwrPage (info base pwrPage) 0x110) 0 = false ∧
    bit (regRead (heard (wr base pwrPage fIDLE 1) .curator) pwrPage (info base pwrPage) 0x110) 0 = true :=
  ⟨allAsk_of _ (by decide +kernel), by decide +kernel⟩

/-- Stream 15 with one entry in module flash: the first counter of a port page. -/
def listed : State :=
  let s := wr (wr (wr base dumpPage (fLLIST 15) flashBase) dumpPage (fLENTRIES 15) 1) dumpPage (fLLOG2 15) 12
  { wr (wr s dumpPage ⟨0x200 + 0x20 * 15, 2, 1⟩ 1) dumpPage (fLPERIOD 15) 10 with
    mem := [(flashBase + 1, 0x10), (flashBase + 2, 0x80), (flashBase + 5, 1), (flashBase + 6, 0xFF)] }

theorem witness_ListIsRead :
    ∃ l, readList listed 15 (regRead (heard listed .curator) dumpPage (info base dumpPage) (0x200 + 0x20 * 15) + 1) = .ok l :=
  ok_of _ (by decide +kernel)

theorem witness_ObservationRequestEffects :
    allAsk [(listed, dumpPage, 0x200 + 0x20 * 15, 1, 1, .dump),
      (base, muxPage, 0x220, 1, 1, .testMux),
      (base, muxPage, 0x220, 2, 2, .testMux),
      (base, muxPage, 0x220, 8, 8, .testMux),
      (wr base muxPage fUNLOCKED 1, muxPage, 0x1A0, 1, 1, .testMux),
      (wr (wr base muxPage fUNLOCKED 1) muxPage fTOUTEN 1, muxPage, 0x1A0, 1, 1, .testMux),
      (wr base muxPage fUNLOCKED 1, muxPage, 0x1A0, 2, 2, .testMux)] :=
  allAsk_of _ (by decide +kernel)

/-- The module with a debug key fused and a challenge that stands. -/
def challenged : State :=
  { base with
    obs := { base.obs with challenged := true }
    fuses := { base.fuses with debugHash := List.replicate 32 1 } }

/-- A response to it opens the pins where its key is the fused one and its signature verifies. -/
theorem witness_ObservationRequestEffects_response
    (key : (Config.shake256 ((responseBytes challenged).take 57) 32).take 32 = List.replicate 32 1)
    (sig : Config.ed448Verify ((responseBytes challenged).take 57) (letters "ETRUN-DEBUG".toList)
      (challengeBytes challenged ++ challenged.fuses.serial) (((responseBytes challenged).drop 57).take 114) = true) :
    responseOk challenged = true := by
  have c : challenged.obs.challenged = true := rfl
  have d : challenged.fuses.debugHash = List.replicate 32 1 := rfl
  simp only [responseOk, c, d, key, sig]
  decide +kernel

/-- A transfer in the first slot of its caddy, with no element moved. -/
def heldJob (d : List Byte) : MovJob := ⟨parseTransfer d, 0x1000, 0, 0, 0, some 0, 0, some 0, .none, false⟩

/-- Mover m of gallery 0 with a job alone. -/
def holding (m : Nat) (d : List Byte) (phase : SlotPhase) : State :=
  let s := cadPut (laidOut owned) 0 (parseTransfer d).caddy ⟨4, 1, 0, [(0, ⟨phase, 256, 15, 0, (0, 0)⟩)], false⟩
  wr (putJobs s 0 m [heldJob d]) 2 (fMSTATE m) 1

/-- A transfer whose elements all lie in its padding, and one of module flash. -/
def paddedBytes : List Byte := patch (transferBytes 2 1 0 0 0) (76, 4, 2)
def flashBytes : List Byte := transferBytes 2 1 0 0 0

/-- A transfer of direction 1 from caddy 3 to module flash. -/
def storeBytes : List Byte := transferBytes 2 1 1 0 3

/-- A transfer of module flash that mover 0 holds, in FAULT_WAIT. -/
def faultWaiting : State := wr (holding 0 flashBytes .filling) 2 (fMSTATE 0) 2

theorem witness_MoverElementMovesOne :
    Live (holding 0 paddedBytes .filling) ∧ Shaped (holding 0 paddedBytes .filling) ∧ Shaped (holding 1 storeBytes .full) ∧
    (∀ d ∈ [paddedBytes, flashBytes], MoverGoes (holding 0 d .filling) 0 0 (heldJob d) [] 0 ∧ (heldJob d).desc.dir = 0 ∧
      (heldJob d).pos + elemSize (heldJob d).desc.esize < slotSize (caddyWord (holding 0 d .filling) 2 (heldJob d).desc.caddy) ∧
      supplies (holding 0 d .filling) 0 0 (heldJob d) = true) ∧
    elementAt (heldJob paddedBytes).desc 0 = none ∧ elementAt (heldJob flashBytes).desc 0 = some 0x8000 ∧
    (MoverGoes (holding 1 storeBytes .full) 0 1 (heldJob storeBytes) [] 0 ∧ (heldJob storeBytes).desc.dir ≠ 0 ∧
      (heldJob storeBytes).pos + elemSize (heldJob storeBytes).desc.esize <
        ((tfind (cadGet (holding 1 storeBytes .full) 0 3).slots 0).getD ⟨.full, 0, 0, 0, (4, 0)⟩).bytes ∧
      delivers (holding 1 storeBytes .full) 0 1 (heldJob storeBytes) 0 = true) ∧
    moverJobs owned 0 0 = [] ∧ moverJobs faultWaiting 0 0 = [heldJob flashBytes] ∧ rd faultWaiting 2 (fMSTATE 0) = 2 ∧
    moverRuns (inState (holding 0 flashBytes .filling) 2 stStopped) 0 (heldJob flashBytes) = false :=
  ⟨by decide +kernel, shaped_of _ (by decide +kernel), shaped_of _ (by decide +kernel), by decide +kernel⟩

/-- A ROTATE of one hop over galleries 0 and 1. -/
def rotateBegun : Begun := begunOf 0 0 (rotateCmd 1 ++ packed 144 [(0, 1, 2), (1, 1, 9), (4, 4, 256), (18, 2, 1)]) 0 0 0 .running

/-- Both galleries have begun it, and the first holds a slab. -/
def rotating : State :=
  let s := (fourPages 4).foldl (fun t pg => inState (wr (wr (wr t pg fASSIGNED 1) pg fOWNER 3) pg fEPOCH 7) pg stRunning)
    (wr (laidOut owned) 4 fSTALE 0)
  let s1 := regPut (wr s 6 (fMEN 1) 1) (6 * 4096 + 0x200 + 8 * 9) (4 * 9 + 4 * 2 ^ 16 + 4 * 2 ^ 36 + 2 ^ 39 + 15 * 2 ^ 40)
  cadPut (addBegun (addBegun s1 0 rotateBegun) 1 rotateBegun) 0 9 ⟨4, 1, 0, [(0, ⟨.full, 256, 15, 7, (0, 0)⟩)], false⟩

theorem witness_HopCopiesSlab :
    Live rotating ∧ Hops rotating 0 rotateBegun rotateBegun ∧ ringNext 0 rotateBegun = 1 ∧ hopFrom rotating 0 rotateBegun = 0 ∧
    Live (wr rotating 4 fSTALE 1) ∧ rotateOf (wr rotating 4 fSTALE 1) 0 = some rotateBegun ∧ running (wr rotating 4 fSTALE 1) (movPage 0) = true ∧
    moverJobs (wr rotating 4 fSTALE 1) 0 1 = [] ∧ rotateBegun.hops < leAt rotateBegun.bytes 38 1 ∧
    rd (wr rotating 4 fSTALE 1) (movPage 0) (fMEN 1) = 1 ∧ hopStale (wr rotating 4 fSTALE 1) 0 (ringNext 0 rotateBegun) = true := by
  refine ⟨by decide +kernel, ⟨by decide +kernel, by decide +kernel, by decide +kernel, by decide +kernel, by decide +kernel, by decide +kernel,
    by decide +kernel, by decide +kernel, ?_, by decide +kernel⟩, by decide +kernel⟩
  intro k h
  have e : tfind (cadGet rotating (galPage 0) (leAt (rotationOf rotateBegun.bytes) 1 1)).slots (hopFrom rotating 0 rotateBegun) =
    some ⟨.full, 256, 15, 7, (0, 0)⟩ := by decide +kernel
  rw [e] at h
  cases h
  decide

/-- Field w of a register of stack k's page of the base code. -/
def hbmSet (k off lo w v : Nat) : State := wr base (hbmPage base.code k) ⟨off, lo, w⟩ v

/-- Row 5 of channel 31 of stack 11 with as many correctable errors as trigger its repair. -/
def worn : State := { hbmSet 11 0x108 8 1 1 with rowErrs := [(rowKey 11 31 5, rd base (hbmPage base.code 11) ⟨0x108, 0, 8⟩)] }

theorem witness_HbmRowsTakeEffect :
    Live worn ∧ 11 < stackCount worn.code ∧ repairDue worn 11 31 5 = true ∧ repairDue (hbmSet 0 0x108 8 1 0) 0 0 0 = false ∧
    (List.range 32).find? (fun c => rd (hbmSet 11 0x110 63 1 1) (hbmPage base.code 11) ⟨0x110, 32 + c, 1⟩ == 1) = some 31 ∧
    ledger base (3 * 512 + 0x101) (10 + 3) + 1 < 2 ^ 48 := by decide +kernel

/-- A field of the bridge page of C-die 3 set. -/
def bridgeSet (off lo w v : Nat) : State := wr base (3 * 512 + 0x102) ⟨off, lo, w⟩ v

/-- A mesh link of C-die 3 out of use. -/
def meshOut : State := wr base (3 * 512 + 0x101) ⟨0x108, 15, 1⟩ 1

theorem witness_LinkLimitTakesLink :
    Live base ∧ rd base (3 * 512 + 0x101) ⟨0x108, 15, 1⟩ = 0 ∧ rd meshOut (3 * 512 + 0x101) ⟨0x108, 15, 1⟩ = 1 ∧
    rd (bridgeSet 0x100 0 2 2) (3 * 512 + 0x102) ⟨0x100, 0, 2⟩ = 2 ∧
    rd base (3 * 512 + 0x102) ⟨0x100, 2, 2⟩ ≠ 2 ∧ 0 < rd base (3 * 512 + 0x102) ⟨0x108, 4, 4⟩ ∧
    rd (bridgeSet 0x108 4 4 0) (3 * 512 + 0x102) ⟨0x108, 4, 4⟩ = 0 ∧ rd (bridgeSet 0x108 4 4 0) (3 * 512 + 0x102) ⟨0x100, 2, 2⟩ ≠ 2 ∧
    (∃ k < 12, (stackSites base.code).findIdx? (· == 4 * 3 + 0) = some k) ∧
    rd (bridgeSet 0x108 8 4 0) (3 * 512 + 0x102) ⟨0x100, 4, 2⟩ ≠ 2 ∧ rd (bridgeSet 0x108 8 4 0) (3 * 512 + 0x102) ⟨0x108, 8, 4⟩ = 0 := by decide +kernel

/-- The scan page of X-die 0 running, with a patrol of stacks and of cabinets. -/
def patrolling : State := wr (wr (inState (there base 0) (scanPage 0) stRunning) (scanPage 0) ⟨0x138, 0, 8⟩ 1) (scanPage 0) ⟨0x138, 8, 1⟩ 1

/-- The state with the error pattern of one granule. -/
def damaged (s : State) (a : Nat) (e : List (Nat × Byte)) : State := { s with guard := [(a / 32, e)] }

/-- The same in module Idle, every stack in self-refresh. -/
def idling : State :=
  let s := wr patrolling pwrPage fIDLEACT 1
  { s with power := { s.power with selfRefresh := List.range 12 } }

theorem witness_ScrubbingTakesNextGranule :
    Live patrolling ∧ 11 < stackCount patrolling.code ∧ scrubbed patrolling 11 = 0 ∧ rd patrolling (scanPage 0) ⟨0x138, 0, 8⟩ ≠ 0 ∧
    running patrolling (scanPage 0) = true ∧ running base (scanPage 0) = false ∧
    patrolAddr idling 11 0 < hbmEnd idling.code ∧ rd idling pwrPage fIDLEACT = 1 ∧
    idling.power.selfRefresh.contains (hbmStack idling.code (storageAddr idling (patrolAddr idling 11 0))) = true ∧
    granuleCheck patrolling (frameSize * 11) = .clean ∧
    (∃ p < 36, ∃ v < 256, granuleCheck (damaged patrolling (frameSize * 11) [(4, 1)]) (frameSize * 11) = .corrected p v) ∧
    granuleCheck (damaged patrolling (frameSize * 11) [(4, 1), (5, 1), (6, 1), (7, 1), (8, 1)]) (frameSize * 11) = .bad ∧
    rd patrolling (scanPage 0) ⟨0x138, 8, 1⟩ = 1 ∧ (galGet patrolling (galRefPage (.active 0))).fill = .none ∧
    blkState patrolling (galRefPage (.active 0)) ≠ stAsleep ∧ (pageAt patrolling (galRefPage (.active 0))).isSome = true ∧
    blkState (wr patrolling 0 fSTATE stAsleep) (galRefPage (.active 0)) = stAsleep := by decide +kernel

/-- Unit 7 of X-die 0's check-value page BUSY over 32 bytes of module flash. -/
def checking : State :=
  let s := wr (inState base (cvPage 0) stRunning) (cvPage 0) (fCVSTATE 7) 1
  wr (wr (wr s (cvPage 0) (fCV 7 0 2 1) 1) (cvPage 0) (fCV 7 8 0 48) flashBase) (cvPage 0) (fCV 7 0x10 0 48) 32

theorem witness_CheckRunsEnd :
    Live checking ∧ 0 < xdieCount checking.code ∧ running checking (cvPage 0) = true ∧ rd checking (cvPage 0) (fCVSTATE 7) = 1 ∧
    rd checking (cvPage 0) (fCVSCAN 7) = 0 ∧ pageOwner checking (cvPage 0) = none ∧ rd checking (cvPage 0) (fCV 7 0 2 1) = 1 ∧
    rd checking (cvPage 0) (fCVFED 7) = 0 ∧ rd checking (cvPage 0) (fCV 7 8 0 48) = flashBase ∧ rd checking (cvPage 0) (fCV 7 0x10 0 48) = 32 ∧
    flashBase % 4096 + 32 ≤ 4096 ∧ inMemory checking.code flashBase 32 = true ∧ rd base (cvPage 3) (fCVSTATE 0) ≠ 1 := by decide +kernel

theorem witness_CheckRead : ∃ bs, load checking flashBase 32 = .ok bs := ok_of _ (by decide +kernel)

/-- The scan of X-die 3 BUSY. -/
def scanning : State := wr (inState base (scanPage 3) stRunning) (scanPage 3) fSCSTATE 1

theorem witness_ScansEnd :
    Live scanning ∧ 3 < xdieCount scanning.code ∧ running scanning (scanPage 3) = true ∧ rd scanning (scanPage 3) fSCSTATE = 1 ∧
    rd (wr scanning (scanPage 3) ⟨0x110, 6, 1⟩ 0) (scanPage 3) ⟨0x110, 6, 1⟩ = 0 ∧ rd scanning (scanPage 3) ⟨0x108, 0, 48⟩ - rd scanning (scanPage 3) fSCBYTES < 32 ∧
    rd base (scanPage 3) fSCSTATE ≠ 1 := by decide +kernel

/-- PART_REQ holding an operation for partition p. -/
def asking (s : State) (op p : Nat) : State := wr (wr (wr s rootPage fPBUSY 1) rootPage fPOP op) rootPage fPPART p

/-- A partition in a state. -/
def partState (s : State) (p st : Nat) : State := wr s rootPage (fPSTATE p) st

theorem witness_RequestsMeetTheirRow :
    Live base ∧ rd base rootPage fPBUSY = 0 ∧ Requested (asking base 2 63) 2 63 ∧ Requested (asking base 0 0) 0 0 ∧ Requested (asking base 10 0) 10 0 ∧
    Requested (asking base 15 63) 15 63 ∧ Requested (partState (asking base 1 63) 63 2) 1 63 ∧ rd (partState (asking base 1 63) 63 2) rootPage (fPSTATE 63) ≠ 0 ∧
    Requested (asking base 9 0) 9 0 ∧ rd (asking base 9 0) rootPage (fPSTATE 0) ≠ 2 ∧ Requested (partState (asking base 5 1) 1 2) 5 1 ∧
    rd (partState (asking base 5 1) 1 2) rootPage (fPSTATE 1) ≠ 3 ∧ (partGet (partState (asking base 5 1) 1 2) 1).stopping = false := by decide +kernel

/-- PART_REQ's operands: gallery 255, frames and flash. -/
def operands (s : State) (n m : Nat) : State :=
  wr (wr (regPut s (rootPage * 4096 + 0x708 + 24) (2 ^ 63)) rootPage fRQFRAMES n) rootPage fRQFLASH m

/-- Partition 63 to be created. -/
def creating : State := wr (asking (operands base 1 1) 1 63) rootPage fRQDEADLINE 1

/-- Partition 63 to be grown. -/
def growing : State := partState (asking (operands base 1 1) 2 63) 63 2

theorem witness_CreateAndGrowGive :
    askedGals creating = [255] ∧ freeFrames creating 1 = [0] ∧ freeFlash creating 1 = [0] ∧ rq creating fRQFRAMES = 1 ∧
    rq creating fRQFLASH = 1 ∧ galsRefusal creating 63 true [255] = none ∧ Requested creating 1 63 ∧ rd creating rootPage (fPSTATE 63) = 0 ∧
    rq creating fRQAIDX < 1 ∧ rq creating fRQDEADLINE = 1 ∧ ¬ (128 < deadlineGals creating + 1) ∧ askedGals growing = [255] ∧
    freeFrames growing 1 = [0] ∧ freeFlash growing 1 = [0] ∧ galsRefusal growing 63 true [255] = none ∧ Requested growing 2 63 ∧
    rd growing rootPage (fPSTATE 63) = 2 ∧ rd growing rootPage (fPDEADLINE 63) = 0 := by decide +kernel

/-- Core 0 active, and core 1 its synced standby. -/
def twoCores (s : State) : State :=
  let s1 := wr (wr s (curPage 1) fROLE 2) (curPage 1) fSYNCED 1
  { s1 with boot := { s1.boot with active := some 0, lead := some 0 } }

/-- The creation of partition 63 where the owner register of its gallery has bad storage. -/
def misread : State := { twoCores creating with regBad := [galPage 255 * 4096 + 0x050] }

theorem witness_StandbyReadsBack :
    Live creating ∧ rd creating rootPage fPBUSY = 1 ∧ rq creating fPOP = 1 ∧ rq creating fPPART = 63 ∧ bothRun creating = false ∧
    Live misread ∧ rd misread rootPage fPBUSY = 1 ∧ rq misread fPOP = 1 ∧ rq misread fPPART = 63 ∧ bothRun misread = true ∧
    rd (partCreate misread 63) rootPage fPBUSY = 0 ∧ readBackFails misread (partCreate misread 63) = true ∧
    bothRun (twoCores creating) = true ∧ readBackFails (twoCores creating) (partCreate (twoCores creating) 63) = false := by decide +kernel

/-- Partition 3 STOPPED, or RUNNING with its pages stopped, and a request for it. -/
def settledPart (op st : Nat) : State := partState (asking (galState owned 0 stStopped) op 3) 3 st

theorem witness_StartStopResetDestroy :
    Requested (settledPart 4 2) 4 3 ∧ rd (settledPart 4 2) rootPage (fPSTATE 3) = 2 ∧ Requested (settledPart 5 3) 5 3 ∧
    rd (settledPart 5 3) rootPage (fPSTATE 3) = 3 ∧ (partGet (settledPart 5 3) 3).stopping = false ∧ partSettled (stopTold (settledPart 5 3) 3) 3 = true ∧
    (partGet (stopTold (settledPart 5 3) 3) 3).ctxStopped = true ∧ Requested (settledPart 6 2) 6 3 ∧ (partGet (settledPart 6 2) 3).stopping = false ∧
    partSettled (stopTold (settledPart 6 2) 3) 3 = true ∧ (partGet (stopTold (settledPart 6 2) 3) 3).ctxStopped = true ∧
    partSettled (stopTold (asking (partState owned 3 3) 5 3) 3) 3 = false ∧ Requested (asking (partState owned 3 3) 5 3) 5 3 ∧
    Requested (settledPart 9 2) 9 3 ∧ rq (settledPart 9 2) fRQAIDX < (partGet (settledPart 9 2) 3).alloc.length ∧ Requested (settledPart 7 2) 7 3 ∧
    rd (settledPart 7 2) rootPage (fPSTATE 3) = 2 ∧ (partGals (settledPart 7 2) 3).all (quietGallery (settledPart 7 2)) = true := by decide +kernel

/-- Partition 3 STOPPED with gallery 0 alone, to be destroyed. -/
def destroying : State := partState (asking ((fourPages 0).foldl (fun t pg => wr (wr t pg fASSIGNED 1) pg fOWNER 3) base) 7 3) 3 2

theorem witness_Destroy :
    Requested destroying 7 3 ∧ rd destroying rootPage (fPSTATE 3) = 2 ∧ vectorsStopped destroying 3 = true ∧ partGals destroying 3 = [0] ∧
    (partGals destroying 3).all (quietGallery destroying) = true := by decide +kernel

/-- Partition 3 with galleries 0, its lead, and 255; a request that names 255. -/
def pair (op st : Nat) : State :=
  (fourPages (galPage 255)).foldl (fun t pg => wr (wr t pg fASSIGNED 1) pg fOWNER 3) (operands (there (settledPart op st) (galPage 255)) 0 0)

theorem witness_ShrinkAndAdmit :
    askedGals (pair 3 2) = [255] ∧ galsRefusal (pair 3 2) 3 false [255] = none ∧ partGals (pair 3 2) 3 = [0, 255] ∧ Requested (pair 3 2) 3 3 ∧
    rd (pair 3 2) rootPage (fPSTATE 3) = 2 ∧ (partGals (pair 3 2) 3).all (quietGallery (pair 3 2)) = true ∧ rd (pair 3 2) (cenPage 255) fLEAD = 0 ∧
    rq (pair 3 2) fRQFRAMES = 0 ∧ rq (pair 3 2) fRQFLASH = 0 ∧ rd (pair 3 2) rootPage (fPL1 3) < (partGet (pair 3 2) 3).alloc.length - 0 ∧
    Requested (pair 8 2) 8 3 ∧ Requested (pair 8 3) 8 3 ∧ rd (pair 8 2) rootPage (fPSTATE 3) = 2 ∧ rd (pair 8 3) rootPage (fPSTATE 3) = 3 ∧
    askedGals (pair 8 2) = [255] ∧ galsRefusal (pair 8 2) 3 false [255] = none ∧ galsRefusal (pair 8 3) 3 false [255] = none ∧
    admissible (pair 8 2) 255 = true ∧ admissible (pair 8 3) 255 = true := by decide +kernel

/-- Partition 3 with the one enabled queue of its gallery past STEP_END. -/
def closable : State := qauxPut (wr owned 0 (fQEN 0) 1) 0 0 { queueIdle with stepEnded := true }

theorem witness_StepCloseShowsClosed : Live closable ∧ stepClosable closable 3 = true ∧ stepClosable owned 3 = false := by decide +kernel

/-- Partition 3 with its gate open for N = 4, and a commit run. -/
def gated (s : State) (r : Option CommitRun) : State :=
  partPut s 3 { partGet s 3 with stp := { (partGet s 3).stp with job := some (true, true, 4), run := r } }

/-- A COMMIT that waits for its gate, its scalars at 0x4000. -/
def commitWaits : Begun := begunOf 0 0 (commitCmd ++ packed 32 [(0, 6, 0x1100), (6, 2, 1), (8, 6, 0x4000), (16, 6, 0x5000), (22, 1, 4)] ++ packed 64 [(48, 8, 1)]) 0 0 0 .waiting

/-- A commit that has begun, and one whose groups are all written. -/
def someRun : CommitRun := ⟨List.replicate 32 0, 0, 0, 0, 0, [], [], false⟩
def doneRun : CommitRun := ⟨[], 0, 0, 0, 0, [], [], true⟩

/-- Partition 3 at its gate with that COMMIT. -/
def committing : State := gated (addBegun owned 0 commitWaits) none

theorem witness_CommitBeginRuns :
    Live (gated owned none) ∧ commitReady owned 3 = false ∧ commitReady (gated owned none) 3 = true ∧ (partGet (gated owned none) 3).stp.run = none ∧
    commitsOf (gated owned none) 3 = [] ∧ leadOf (gated owned none) 3 = some 0 ∧
    commitReady committing 3 = true ∧ (partGet committing 3).stp.run = none ∧ commitsOf committing 3 = [(0, commitWaits)] ∧
    partReady committing 0 curNone = true ∧ heldVa committing 3 (leAt (commitDesc commitWaits.bytes) 8 6) false = false ∧
    (vfetch committing 3 (leAt (commitDesc commitWaits.bytes) 8 6) 32).isOk = true ∧ contributors committing 3 = 4 ∧
    commitReady (gated owned (some someRun)) 3 = true ∧ (partGet (gated owned (some someRun)) 3).stp.run = some someRun := by decide +kernel

theorem witness_StepBoundaryBeginsNext :
    Live (gated owned (some doneRun)) ∧ (partGet (gated owned (some doneRun)) 3).stp.run = some doneRun ∧ leadOf (gated owned (some doneRun)) 3 = some 0 ∧
    running (gated owned (some doneRun)) 0 = true ∧ stepNow (gated owned (some doneRun)) 3 = 0 ∧
    (censusCommit (gated owned (some doneRun)) 3 0 0 none).2 = none ∧
    (runAppraiser (censusCommit (gated owned (some doneRun)) 3 0 0 none).1 3 0 0 none).2 = none ∧ partGals owned 3 = [0] ∧
    leadOf base 3 = none := by decide +kernel

/-- Everything of Authentic but for the form of its last parts. -/
abbrev Comes (s : State) (k : Pkt) (crc : Option (List Byte)) (x : Sess) : Prop :=
  (match crc with | some bs => crc32c bs == k.crc.toNat | none => true) = true ∧ Live s ∧ sessGet s (pktSess k) = some x ∧ x.phase ≠ .initiating ∧
    accepts s k.port = true ∧ k.port.xdie.val = sessXdie (pktSess k) ∧ k.authentic = true ∧ k.pn.toNat + 1 < 2 ^ 48 ∧
    typeReserved k.type.toNat = false ∧ k.type ≠ 0x02 ∧ k.type ≠ 0x08 ∧ k.enc = true

theorem authentic_of (s : State) (k : Pkt) (ty : Kind) (crc : Option (List Byte)) (x : Sess) (h : Comes s k crc x) : Authentic s k ty crc x := by
  obtain ⟨h1, h2, h3, h4, h5, h6, h7, h8, h9, h10, h11, h12⟩ := h
  refine ⟨h2, h3, h4, h5, h6, h7, h8, h9, h10, h11, fun _ _ _ => h12, fun bs e => ?_⟩
  subst e
  exact beq_iff_eq.mp h1

/-- What makes a packet new to its session. -/
abbrev New (k : Pkt) (ty : Kind) (x : Sess) : Prop :=
  phaseTakes x ty = true ∧ carries x.role ty = true ∧ duplicate x k.seq = false ∧ ahead k.seq x.rxNext ≤ 64 ∧ reservedAt k = none

/-- The session as a packet that has arrived has left it. -/
def noted (s : State) (k : Pkt) (ty : Kind) (crc : Option (List Byte)) (x : Sess) : Sess := (sessGet (arrived s k ty crc x) (pktSess k)).getD x

theorem noted_of (s : State) (k : Pkt) (ty : Kind) (crc : Option (List Byte)) (x : Sess)
    (h : (sessGet (arrived s k ty crc x) (pktSess k)).isSome = true) :
    sessGet (arrived s k ty crc x) (pktSess k) = some (noted s k ty crc x) := by
  unfold noted
  cases e : sessGet (arrived s k ty crc x) (pktSess k) with
  | some y => rfl
  | none => rw [e] at h; cases h

theorem bulk_of (s : State) (k : Pkt) (ty : Kind) (crc : Option (List Byte)) (x : Sess)
    (h : Comes s k crc x ∧ (sessGet (arrived s k ty crc x) (pktSess k)).isSome = true ∧ New k ty (noted s k ty crc x) ∧
      (noted s k ty crc x).failed.contains k.msg = false) :
    BulkIn s k ty crc (noted s k ty crc x) (arrived s k ty crc x) :=
  ⟨⟨x, authentic_of s k ty crc x h.1, rfl, noted_of s k ty crc x h.2.1, h.2.2.1⟩, h.2.2.2⟩

/-- The session once a control packet's number is received, and the state in which it executes. -/
def answering (s : State) (k : Pkt) (ty : Kind) (x : Sess) : Sess := markRx (noted s k ty none x) k.seq
def executing (s : State) (k : Pkt) (ty : Kind) (x : Sess) : State := sessPut (arrived s k ty none x) (pktSess k) (answering s k ty x)

/-- What makes it execute at once. -/
abbrev Turns (s : State) (k : Pkt) (ty : Kind) (x : Sess) : Prop :=
  Comes s k none x ∧ (sessGet (arrived s k ty none x) (pktSess k)).isSome = true ∧ New k ty (noted s k ty none x) ∧
    k.seq = (noted s k ty none x).rxNext ∧ (noted s k ty none x).held = [] ∧ (noted s k ty none x).reads = []

theorem control_of (s : State) (k : Pkt) (ty : Kind) (x : Sess) (h : Turns s k ty x) :
    ControlIn s k ty (answering s k ty x) (executing s k ty x) :=
  ⟨_, _, ⟨x, authentic_of s k ty none x h.1, rfl, noted_of s k ty none x h.2.1, h.2.2.1⟩, h.2.2.2.1, h.2.2.2.2.1, h.2.2.2.2.2, rfl, rfl⟩

/-- Port 0 of X-die 0 up, the die's transport and collective engine running, and session 5 of partition 3 OPEN with a role. -/
def networked (s : State) (role : Role) : State :=
  let s1 := inState (inState (inState s (ztPage 0) stRunning) (collPage 0) stRunning) (portPage 0 0) stRunning
  sessPut (wr s1 (portPage 0 0) fLINK 1) 5 (session .opened role 3)

/-- The session. -/
abbrev party (role : Role) : Sess := session .opened role 3

/-- The next packet of session 5, of a TYPE, an epoch, a sequence number and a CRC: encrypted, alone in its message. -/
def packet (ty : Byte) (epoch seq crc : Nat) : Pkt :=
  ⟨⟨0, 0⟩, 0x10, ty, 0x0D, 0, 5, 0, 7, BitVec.ofNat 32 seq, 1, 0, BitVec.ofNat 32 epoch, 3, 0, 0, false, true, BitVec.ofNat 32 crc, none⟩

/-- A bulk packet of a TYPE with payload [1, 2, 3, 4]. -/
def bulkPacket (ty : Byte) (epoch seq : Nat) : Pkt := packet ty epoch seq (crc32c [1, 2, 3, 4])

/-- What session 5 is, and what the module is, once a BULK_WRITE of an epoch has arrived at partition 3. -/
abbrev writing (role : Role) (epoch seq : Nat) : Sess := noted (networked owned role) (bulkPacket 4 epoch seq) .bulkWrite (some [1, 2, 3, 4]) (party role)
abbrev written (role : Role) (epoch seq : Nat) : State := arrived (networked owned role) (bulkPacket 4 epoch seq) .bulkWrite (some [1, 2, 3, 4]) (party role)

/-- The same of a BULK_READ. -/
abbrev reading (role : Role) : Sess := noted (networked owned role) (packet 5 0 2 0) .bulkRead none (party role)
abbrev readAt (role : Role) : State := arrived (networked owned role) (packet 5 0 2 0) .bulkRead none (party role)

theorem witness_BulkArrives :
    BulkIn (networked owned .tenant) (bulkPacket 4 0 1) .bulkWrite (some [1, 2, 3, 4]) (writing .tenant 0 1) (written .tenant 0 1) ∧
    BulkIn (networked owned .tenant) (bulkPacket 4 9 1) .bulkWrite (some [1, 2, 3, 4]) (writing .tenant 9 1) (written .tenant 9 1) ∧
    BulkIn (networked owned .administrator) (bulkPacket 4 0 65) .bulkWrite (some [1, 2, 3, 4]) (writing .administrator 0 65) (written .administrator 0 65) ∧
    BulkIn (networked owned .tenant) (packet 5 0 2 0) .bulkRead none (reading .tenant) (readAt .tenant) ∧
    BulkIn (networked owned .administrator) (packet 5 0 2 0) .bulkRead none (reading .administrator) (readAt .administrator) :=
  ⟨bulk_of _ _ _ _ _ (by decide +kernel), bulk_of _ _ _ _ _ (by decide +kernel), bulk_of _ _ _ _ _ (by decide +kernel),
    bulk_of _ _ _ _ _ (by decide +kernel), bulk_of _ _ _ _ _ (by decide +kernel)⟩

/-- The state in which the bytes of a bulk write are stored. -/
def storing (role : Role) (seq : Nat) : State := tally (written role 0 seq) (ztPage 0) 43 4

theorem witness_BulkMessagesActOnMemory :
    contextCheck (written .tenant 9 1) 5 (writing .tenant 9 1) 9 = .refuse 2 0 ∧
    contextCheck (written .tenant 0 1) 5 (writing .tenant 0 1) 0 = .taken ∧ (writing .tenant 0 1).role ≠ .administrator ∧
    (writing .tenant 0 1).partition = 3 ∧ (vstore (storing .tenant 1) 3 (0x8000 + 0) [1, 2, 3, 4]).2 = none ∧
    contextCheck (written .administrator 0 65) 5 (writing .administrator 0 65) 0 = .taken ∧ (writing .administrator 0 65).role = .administrator ∧
    inMailbox ((2 ^ 63 + flashBase) % 2 ^ 48) = false ∧ adminMay (storing .administrator 65) (flashBase + 0) 4 = true ∧
    (store (storing .administrator 65) (flashBase + 0) [1, 2, 3, 4]).2 = none ∧
    contextCheck (readAt .tenant) 5 (reading .tenant) 0 = .taken ∧ contextCheck (readAt .administrator) 5 (reading .administrator) 0 = .taken ∧
    (partRead (readAt .tenant) 5 3 0x8000 4).2.isOk = true ∧ (adminRead (readAt .administrator) 5 (2 ^ 63 + flashBase) 4).2.isOk = true := by
  decide +kernel

/-- A session with a read outstanding. -/
def reader (left : Nat) : Sess := { party .tenant with rtags := [(9, .restore 3 0, left)] }

/-- Partition 3's session with it. -/
def asked (left : Nat) : State := sessPut (networked owned .tenant) 5 (reader left)

theorem witness_BulkAnswered :
    BulkIn (asked 4) (bulkPacket 6 0 1) .bulkRdata (some [1, 2, 3, 4])
      (noted (asked 4) (bulkPacket 6 0 1) .bulkRdata (some [1, 2, 3, 4]) (reader 4)) (arrived (asked 4) (bulkPacket 6 0 1) .bulkRdata (some [1, 2, 3, 4]) (reader 4)) ∧
    BulkIn (asked 5) (bulkPacket 6 0 1) .bulkRdata (some [1, 2, 3, 4])
      (noted (asked 5) (bulkPacket 6 0 1) .bulkRdata (some [1, 2, 3, 4]) (reader 5)) (arrived (asked 5) (bulkPacket 6 0 1) .bulkRdata (some [1, 2, 3, 4]) (reader 5)) ∧
    (noted (asked 4) (bulkPacket 6 0 1) .bulkRdata (some [1, 2, 3, 4]) (reader 4)).rtags.find? (fun e => e.1 == 9) = some (9, .restore 3 0, 4) ∧
    (noted (asked 5) (bulkPacket 6 0 1) .bulkRdata (some [1, 2, 3, 4]) (reader 5)).rtags.find? (fun e => e.1 == 9) = some (9, .restore 3 0, 5) :=
  ⟨bulk_of _ _ _ _ _ (by decide +kernel), bulk_of _ _ _ _ _ (by decide +kernel), by decide +kernel⟩

/-- Partition 3's hold of a channel, an entry at 0x5000 and its slot at 0x6000. -/
def channelled (s : State) (entry slot : List Byte) : State :=
  let x := partGet s 3
  placed (placed (partPut s 3 { x with coll := { x.coll with tabs := [(0, 0, 0x5000 + 2 ^ 48)] } }) 0x5000 entry) 0x6000 slot

/-- A producer's channel on queue 0 of gallery 0, one command a slot. -/
def producing : State := channelled (wr (wr owned 0 (fQLOG2 0) 1) 0 (fQEN 0) 1) (packed 64 [(0, 1, 1), (8, 4, 1)]) []

/-- The header of a segment for member d. -/
def header (d : Nat) : SegHdr := ⟨0, 0, 0, BitVec.ofNat 16 d, 0, false⟩

/-- A segment's packet, whose CRC covers two words and no more, and those two words. -/
def segPacket : Pkt := packet 9 0 1 (crc32c (leBytes 4 0 ++ leBytes 4 0 ++ []))
def segWords : Option (List Byte) := some (leBytes 4 0 ++ leBytes 4 0 ++ [])

/-- Where a segment acts. -/
def counted (s : State) : State :=
  tally (tally (arrived (networked s .peer) segPacket .collSeg segWords (party .peer)) (xPage 0 0x0A) 1 1) (xPage 0 0x0A) 13 8

/-- A reduction of partition 3, two members on X-die 0 with sessions 5 and 6, this module the first. -/
def reduction : RedRun :=
  { rid := 0, xdie := 0, desc := packed 128 [(9, 1, 1), (16, 6, 0x7000), (22, 6, 0x7800), (28, 6, 0x7400), (40, 8, 32), (48, 8, 32), (56, 8, 1040)]
    group := packed 16 [(0, 4, 2)], members := packed 16 [(0, 2, 5), (2, 1, 1), (8, 2, 6), (10, 1, 1)], exp := 0, fired := false, failed := none
    points := [], roots := [], unacked := [], sent := [] }

/-- Partition 3 with it, and session 6 OPEN. -/
def reducing (r : RedRun) : State :=
  let x := partGet owned 3
  sessPut (partPut owned 3 { x with coll := { x.coll with reds := [r] } }) 6 (party .peer)

theorem witness_SegmentsArrive :
    (∀ s ∈ [owned, producing, reducing reduction], Comes (networked s .peer) segPacket segWords (party .peer) ∧
      (sessGet (arrived (networked s .peer) segPacket .collSeg segWords (party .peer)) 5).isSome = true ∧
      New segPacket .collSeg (noted (networked s .peer) segPacket .collSeg segWords (party .peer)) ∧
      (noted (networked s .peer) segPacket .collSeg segWords (party .peer)).failed.contains segPacket.msg = false ∧
      (noted (networked s .peer) segPacket .collSeg segWords (party .peer)).partition = 3) ∧
    (takeBlocks (counted (reducing reduction)) 5 3 segPacket (header 1) 0 0 []).2 = .taken ∧
    (takeCombine (counted owned) 5 3 2 segPacket (header 0) 0 []).2 = .taken ∧ (takeCombine (counted owned) 5 3 3 segPacket (header 0) 0 []).2 = .taken ∧
    (takeCredit (counted producing) 5 3 segPacket (header 0)).2 = .taken ∧ (takeCredit (counted producing) 5 3 segPacket (header 1)).2 = .refuse 6 10 := by
  decide +kernel

theorem witness_SegmentsAreTaken :
    BulkIn (networked producing .peer) segPacket .collSeg (some (leBytes 4 0 ++ leBytes 4 0 ++ []))
      (noted (networked producing .peer) segPacket .collSeg (some (leBytes 4 0 ++ leBytes 4 0 ++ [])) (party .peer))
      (arrived (networked producing .peer) segPacket .collSeg (some (leBytes 4 0 ++ leBytes 4 0 ++ [])) (party .peer)) :=
  bulk_of _ _ _ _ _ (by decide +kernel)

/-- Group 0x77 on X-die 0: its parent is session 5, its child session 6, 4 KiB long at 0x8000. -/
def group (source detached attached : Bool) (parent child : Nat) : Mcast :=
  { group := 0x77, partition := 3, source := source, parent := BitVec.ofNat 16 parent, srcSession := 0,
    children := [⟨BitVec.ofNat 16 child, 0, 0, attached, some 0⟩], base := 0x8000, srcBase := 0x8000, wKib := 1, detachUs := 9, len := 4096
    published := 0, received := [], detached := detached, joinAt := 0 }

/-- A state with the group, as entry 4. -/
def grouped (s : State) (m : Mcast) : State := { s with mcast := [(4, m)] }

/-- What a MCAST_SEG of its parent meets at it. -/
abbrev streamed : State := arrived (networked (grouped owned (group false false true 5 6)) .peer) (bulkPacket 0x0A 0 1) .mcastSeg (some [1, 2, 3, 4]) (party .peer)
abbrev streamer : Sess := noted (networked (grouped owned (group false false true 5 6)) .peer) (bulkPacket 0x0A 0 1) .mcastSeg (some [1, 2, 3, 4]) (party .peer)

theorem witness_StreamIsTaken :
    BulkIn (networked (grouped owned (group false false true 5 6)) .peer) (bulkPacket 0x0A 0 1) .mcastSeg (some [1, 2, 3, 4]) streamer streamed ∧
    contextCheck streamed 5 streamer 0 = .taken ∧ mcFind streamed 0 0x77 = some (4, group false false true 5 6) ∧
    (group false false true 5 6).partition = streamer.partition ∧ (mcStore streamed 4 (group false false true 5 6) 4092 [1, 2, 3, 4]).2 = none :=
  ⟨bulk_of _ _ _ _ _ (by decide +kernel), by decide +kernel⟩

/-- The session and the state in which a control packet of session 5 executes. -/
abbrev turnOf (s : State) (role : Role) (ty : Byte) (kind : Kind) : Sess := answering (networked s role) (packet ty 0 1 0) kind (party role)
abbrev turned (s : State) (role : Role) (ty : Byte) (kind : Kind) : State := executing (networked s role) (packet ty 0 1 0) kind (party role)

theorem witness_ControlPacketsExecute :
    ControlIn (networked owned .tenant) (packet 3 0 1 0) .doorbell (turnOf owned .tenant 3 .doorbell) (turned owned .tenant 3 .doorbell) ∧
    ControlIn (networked owned .tenant) (packet 7 0 1 0) .status (turnOf owned .tenant 7 .status) (turned owned .tenant 7 .status) ∧
    ControlIn (networked owned .tenant) (packet 0x0C 0 1 0) .sc (turnOf owned .tenant 0x0C .sc) (turned owned .tenant 0x0C .sc) ∧
    contextCheck (turned owned .tenant 3 .doorbell) 5 (turnOf owned .tenant 3 .doorbell) 9 = .refuse 2 0 ∧
    contextCheck (turned owned .tenant 3 .doorbell) 5 (turnOf owned .tenant 3 .doorbell) 0 = .taken ∧
    Passes (turned (wr owned 0 (fQLOG2 3) 1) .tenant 3 .doorbell) (.tenant 3) (galPage 0 * 4096 + 0x210 + 0x40 * 3) 2 (2 ^ 64 - 1) (info base 0) ∧
    Passes (turned owned .administrator 3 .doorbell) .administrator (galPage 0 * 4096 + 0x210 + 0x40 * 3) 0 (2 ^ 64 - 1) (info base 0) ∧
    (turnOf owned .tenant 0x0C .sc).phase = .opened :=
  ⟨control_of _ _ _ _ (by decide +kernel), control_of _ _ _ _ (by decide +kernel), control_of _ _ _ _ (by decide +kernel), by decide +kernel⟩

/-- What a MCAST_CTRL meets at a group. -/
abbrev told (m : Mcast) (role : Role) (op : Nat) : State := turned (grouped owned m) role 0x0B (.mcastCtrl op)

theorem witness_MulticastControlActs :
    (∀ n ∈ [2, 3, 4, 5], ControlIn (networked (grouped owned (group false true true 5 6)) .peer) (packet 0x0B 0 1 0) (.mcastCtrl n)
      (turnOf (grouped owned (group false true true 5 6)) .peer 0x0B (.mcastCtrl n)) (told (group false true true 5 6) .peer n)) ∧
    ControlIn (networked (grouped owned (group true false true 0 6)) .tenant) (packet 0x0B 0 1 0) (.mcastCtrl 1)
      (turnOf (grouped owned (group true false true 0 6)) .tenant 0x0B (.mcastCtrl 1)) (told (group true false true 0 6) .tenant 1) ∧
    (∀ n ∈ [2, 4, 5], contextStopped (told (group false true true 5 6) .peer n) 0 3 = false ∧
      mcPick (told (group false true true 5 6) .peer n) 5 (fun m => !m.source && m.parent.toNat == 5) = some (4, group false true true 5 6)) ∧
    mcPick (told (group true false true 0 6) .tenant 1) 5 (fun m => m.source && m.partition == 3) = some (4, group true false true 0 6) ∧
    (∀ a ∈ [true, false], mcPick (told (group true false a 0 5) .peer 3) 5
      (fun m => m.children.any (fun c => c.session.toNat == 5)) = some (4, group true false a 0 5)) ∧
    mcSent (group true false false 0 5) ≤ 0 + mcWindow (group true false false 0 5) / 2 ∧
    0 + mcWindow (group true false false 0 5) / 2 < mcSent { group true false false 0 5 with children := [⟨5, 0, 600, false, none⟩] } :=
  ⟨fun n hn => control_of _ _ _ _ (by
    have key : ∀ n ∈ [2, 3, 4, 5], Turns (networked (grouped owned (group false true true 5 6)) .peer) (packet 0x0B 0 1 0) (.mcastCtrl n)
      (party .peer) := by decide +kernel
    exact key n hn), control_of _ _ _ _ (by decide +kernel), by decide +kernel⟩

/-- The module with a group at a time. -/
def timed (m : Mcast) (now : Nat) : State := { networked (grouped owned m) .peer with now := now }

theorem witness_MulticastTimersAct :
    Live (timed (group true false true 0 6) 9000) ∧ mcFind (timed (group true false true 0 6) 9000) 0 0x77 = some (4, group true false true 0 6) ∧
    (group true false true 0 6).children[0]? = some ⟨6, 0, 0, true, some 0⟩ ∧ (timed (group true false true 0 6) 0).now < 0 + 9 * 1000 ∧
    0 + 9 * 1000 ≤ (timed (group true false true 0 6) 9000).now ∧ contextStopped (timed (group true false true 0 6) 9000) 0 3 = false ∧
    mcFind (timed (group false true true 5 6) 9000) 0 0x77 = some (4, group false true true 5 6) ∧ (group false true true 5 6).detached = true ∧
    (group false true true 5 6).joinAt + 9 * 1000 ≤ (timed (group false true true 5 6) 9000).now ∧
    contextStopped (timed (group false true true 5 6) 9000) 0 3 = false ∧ (group true false true 0 6).detached = false := by decide +kernel

/-- An SC_INIT of a tenant of partition 3, and a state whose table authorises its key. -/
def asksIn : ScInit := ⟨[], 0x123, 2, 3, [], [], [9], false⟩
def authorising : State :=
  networked { owned with boot := { owned.boot with active := some 0, rcd := { owned.boot.rcd with auth := [⟨2, 3, [9]⟩] } } } .tenant

/-- It with a session that another module has been asked for, and with one that opens. -/
def initiating (s : State) : State := sessPut s 5 (session .initiating .tenant 3)
def confirming : State := sessPut authorising 5 (session .opening .tenant 3)

theorem witness_SessionsOpen :
    Live owned ∧ authorised owned asksIn.ed448 2 3 = false ∧ roleOf asksIn.role.toNat = some .tenant ∧ freeSlot authorising 0 = some 0 ∧
    0 < xdieCount authorising.code ∧ accepts authorising ⟨0, 0⟩ = true ∧
    authorising.boot.active.isSome = true ∧ authorised authorising asksIn.ed448 asksIn.role.toNat asksIn.partition.toNat = true ∧ Live authorising ∧
    sessGet (initiating authorising) 5 = some (session .initiating .tenant 3) ∧ (session .initiating .tenant 3).txNext = 1 ∧
    accepts (initiating authorising) ⟨0, 0⟩ = true ∧ (0 : Nat) = sessXdie 5 ∧
    authorised (initiating authorising) [9] (roleCode .tenant) 3 = true ∧ authorised (initiating owned) [9] (roleCode .tenant) 3 = false ∧
    authorised (executing confirming (packet 0x0C 0 1 0) .sc (session .opening .tenant 3)) [1] (roleCode .tenant) 3 = false := by
  decide +kernel

theorem witness_ConfirmArrives :
    ControlIn confirming (packet 0x0C 0 1 0) .sc (answering confirming (packet 0x0C 0 1 0) .sc (session .opening .tenant 3))
      (executing confirming (packet 0x0C 0 1 0) .sc (session .opening .tenant 3)) ∧
    (answering confirming (packet 0x0C 0 1 0) .sc (session .opening .tenant 3)).phase = .opening :=
  ⟨control_of _ _ _ _ (by decide +kernel), by decide +kernel⟩

/-- With a signature that verifies, the other clauses of SessionsOpen are met. -/
theorem witness_SessionsOpen_verified (tr sig : List Byte) (h : Config.ed448Verify [9] [] tr sig = true) :
    (⟨⟨0, 0⟩, 0, [], [], [9], sig, false⟩ : ScAccept).reserved = false ∧
    authorised (initiating authorising) [9] (roleCode .tenant) 3 = true ∧ Config.ed448Verify [9] [] tr sig = true :=
  ⟨rfl, by decide +kernel, h⟩

/-- A packet sent, of a number of transmissions already made. -/
def sentPacket (retx : Nat) : TxPkt := ⟨1, 1, .scClose 5 1, (true, true), false, retx, 0, 64, true⟩

/-- Session 5 in a phase at a time. -/
def aged (phase : SessPhase) (now : Nat) (x : Sess) : State := { sessPut owned 5 { x with phase := phase } with now := now }

theorem witness_SessionTimersAct :
    Live (aged .opening 1000000000 (party .tenant)) ∧ sessGet (aged .opening 1000000000 (party .tenant)) 5 = some { party .tenant with phase := .opening } ∧
    (party .tenant).openedAt + 1000000000 ≤ 1000000000 ∧
    (party .tenant).lastRx + idleTime (aged .opened (2 ^ 40) (party .tenant)) 5 ≤ 2 ^ 40 ∧ 0 < (party .tenant).lastRx + idleTime (aged .opened 0 (party .tenant)) 5 ∧
    (party .tenant).pnTx + 2 < 2 ^ 48 ∧ (party .tenant).sinceAck = 0 ∧ 1 ≤ ({ party .tenant with sinceAck := 1 } : Sess).sinceAck ∧
    (party .tenant).owedAt + 2000 ≤ 2000 ∧ (party .tenant).lastTx + aliveTime (aged .opened (2 ^ 40) (party .tenant)) 5 ≤ 2 ^ 40 ∧
    0 < (party .tenant).lastTx + aliveTime (aged .opened 0 (party .tenant)) 5 ∧
    [sentPacket 0].find? (fun k => k.gone && !k.sacked) = some (sentPacket 0) ∧ (sentPacket 0).sentAt + (party .tenant).rto ≤ 2 ^ 40 ∧
    0 < (sentPacket 0).sentAt + (party .tenant).rto ∧ 0 < rd owned (ztPage 0) ⟨0x100, 32, 8⟩ ∧ rd owned (ztPage 0) ⟨0x100, 32, 8⟩ ≤ 255 := by decide +kernel

/-- Partition 3 stopping. -/
def halting : State := partPut owned 3 { partGet owned 3 with stopping := true }

theorem witness_AcknowledgementsAndContexts :
    Authentic (networked owned .tenant) (packet 0x0F 0 1 0) .ack none (party .tenant) ∧
    newlyAcked (noted (networked owned .tenant) (packet 0x0F 0 1 0) .ack none (party .tenant)) (packet 0x0F 0 1 0) = [] ∧
    (sessGet (arrived (networked owned .tenant) (packet 0x0F 0 1 0) .ack none (party .tenant)) 5).isSome = true ∧
    reservedAt (packet 0x0F 0 1 0) = none ∧ afterAck { party .tenant with tx := [{ sentPacket 0 with seq := 5 }] } (packet 0x0F 0 1 0) ≠ [] ∧
    Live halting ∧ (partGet halting 3).stopping = true ∧ (partGet halting 3).ctxStopped = false ∧ contextQuiet halting 3 = true ∧
    (partGet owned 3).stopping = false :=
  ⟨authentic_of _ _ _ _ _ (by decide +kernel), by decide +kernel⟩

/-- Port 0 of X-die 0 running, its link at a value. -/
def port0 : PortId := ⟨0, 0⟩
def portState (link : Nat) : State := wr (inState (inState base (portPage 0 0) stRunning) (portPage 0 1) stRunning) (portPage 0 0) fLINK link

theorem witness_LinksRiseAndFall :
    Fitted (portState 0) port0 false ∧ Fitted (portState 1) port0 true ∧ trainMode (portState 0) 0 0 = some 0 ∧
    trainMode (wr (portState 0) (portPage 0 0) fLANES 8) 0 0 = some 1 ∧ trainMode (portState 0) 0 0 ≠ some 2 ∧ romPort (portState 0) 0 0 = false ∧
    Fitted (wr (inState base (portPage 3 7) stRunning) (portPage 3 7) fLINK 0) ⟨3, 7⟩ false ∧
    rd (wr (portState 1) (portPage 0 0) fSPAREEN 0) (portPage 0 0) fSPAREEN = 0 ∧ rd (portState 1) (portPage 0 0) fSPAREEN = 1 ∧
    spareMode (rd (portState 1) (portPage 0 0) fMODE) (rd (portState 1) (portPage 0 0) fLANES ||| 2 ^ 3) = some 1 ∧ spareMode 2 (7 ||| 2 ^ 3) = none ∧
    ledger (portState 0) (portPage 0 0) 91 + 1 < 2 ^ 48 ∧ ¬ ledger (wr (portState 0) (portPage 0 0) ⟨0x840 + 8 * 91, 0, 48⟩ (2 ^ 48 - 1)) (portPage 0 0) 91 + 1 < 2 ^ 48 := by
  decide +kernel

/-- Port 0 of X-die 0 as the ROM brings it up to fetch an image. -/
def romState : State := { portState 0 with boot := { (portState 0).boot with cores := [{ coreInRom with recovering := true }, coreInRom] } }

theorem witness_RomPort : Fitted romState port0 false ∧ romPort romState 0 0 = true := by decide +kernel

/-- Frames at the port. -/
def framed (kind : FrameKind) (length : Nat) : RxFrame := ⟨length, 0x123456789ABC, true, [], kind, .datagram 4791 false true⟩
def leaving (length mac : Nat) : TxFrame := ⟨length, 0, BitVec.ofNat 48 mac, 0, .ptp⟩
/-- The port in use: an address, a Curator image, the UDP port of Zazel. -/
def portServing : State :=
  let s := wr (wr (wr (portState 1) (xPage 0 0) fIP4V 1) (xPage 0 0) fIP4 0x0A000001) (xPage 0 0) fUDPPORT 4791
  { s with boot := { s.boot with active := some 0 } }

theorem witness_FramesComeAndGo :
    Fitted portServing port0 true ∧ frameFate portServing 0 0 (framed .lldp 63) = .discard 88 ∧ frameFate portServing 0 0 (framed .lldp 9217) = .discard 87 ∧
    frameFate portServing 0 0 (framed .lldp 64) = .noTaker ∧ frameFate portServing 0 0 (framed (.arp 1 0x0A000001) 64) = .curator ∧
    frameFate portServing 0 0 (framed (.ipv4 1 0x0A000001 true) 9216) = .zazel ∧ rd portServing (portPage 0 0) fLLDPEN = 1 ∧
    lldpDue portServing 0 0 = true ∧ lldpDue (portPut portServing 0 0 { portGet portServing 0 0 with lldpSent := some 0 }) 0 0 = false ∧
    rd (wr portServing (portPage 0 0) fLLDPEN 0) (portPage 0 0) fLLDPEN = 0 ∧ (portGet portServing 0 0).lldp ≠ [1] ∧
    rd (wr portServing (portPage 0 0) fPTPEN 1) (portPage 0 0) fPTPEN = 1 := by decide +kernel

/-- A frame that waits at the port, and the port with no tokens left. -/
def queuedFrame (length : Nat) : QFrame := ⟨0, leaving length (portMac base 0 0), []⟩
def portBusy (tokens length : Nat) : State :=
  portPut portServing 0 0 { portGet portServing 0 0 with tokens := tokens, waiting := [queuedFrame length] }

theorem witness_EgressServesPort :
    egressRule portServing 0 0 ⟨64, 2, 0, 0, .ptp⟩ = some 1 ∧ egressRule portServing 0 0 (leaving 64 (portMac base 0 0 + 1)) = some 2 ∧
    egressRule portServing 0 0 { leaving 64 (portMac base 0 0) with kind := .arp 1 2 } = some 3 ∧
    egressRule portServing 0 0 (leaving 9215 (portMac base 0 0)) = none ∧ egressRule portServing 0 0 (leaving 9300 (portMac base 0 0)) = none ∧
    (leaving 64 0).dstMac.toNat = rd portServing (portPage 0 0) fNHMAC ∧
    64 * 2048 ≤ portTokens { portServing with now := 1000000 } 0 0 ∧
    9216 * 2048 ≤ portTokens (portPut portServing 0 0 { portGet portServing 0 0 with tokens := 9216 * 2048 }) 0 0 ∧
    portTokens (portPut portServing 0 0 { portGet portServing 0 0 with tokens := 64 * 2048 - 1 }) 0 0 < 64 * 2048 ∧
    ({ leaving 64 (portMac base 0 0) with dstMac := 5 } : TxFrame).dstMac.toNat ≠ rd portServing (portPage 0 0) fNHMAC ∧
    egressRule portServing 0 0 { leaving 64 (portMac base 0 0) with dstMac := 5 } = none ∧
    (portGet portServing 0 0).otherSecond = portServing.now / 1000000000 ∧
    rd (wr portServing (scanPage 0) fEGLPPS 0) (scanPage 0) fEGLPPS ≤ (portGet portServing 0 0).otherCount ∧
    (portGet portServing 0 0).waiting = [] ∧ classHead (portGet (portBusy 0 64) 0 0).waiting 0 = some (queuedFrame 64) ∧
    Fitted (portBusy 0 64) port0 true ∧ egressDecide (portBusy 0 64) 0 0 (queuedFrame 64).frame = .waits ∧
    egressDecide (portBusy (64 * 2048) 64) 0 0 (queuedFrame 64).frame = .leaves := by decide +kernel

/-- A ring in a state. -/
def ringAt (r : Ring) (n : Nat) : State := wr base (xPage 0 0) (fRSTATE r) n

theorem witness_RingsOpenInOrder :
    ∀ r ∈ [Ring.a, Ring.b], (∀ n ∈ [0, 1, 2, 3], Live (ringAt r n) ∧ rd (ringAt r n) (xPage 0 0) (fRSTATE r) = n) ∧
      trainOver (ringAt r 1) r = false ∧ trainOver { ringAt r 1 with now := 10 ^ 12 } r = true ∧
      trainOver { ringAt r 2 with ringSettled := [r] } r = false ∧ trainOver { ringAt r 2 with now := 10 ^ 12, ringSettled := [r] } r = true ∧
      (ringAt r 2).ringSettled.contains r = false ∧
      let s := (ringPorts base.code r).foldl (fun t q => wr t (portPage q.1 q.2) fLINK 1) { ringAt r 2 with ringSettled := [r] }
      rd s (xPage 0 0) (fRSTATE r) = 2 ∧ s.ringSettled.contains r = true ∧ ∀ q ∈ ringPorts s.code r, portUp s q.1 q.2 = true := by decide +kernel

/-- The reduction with its descriptor's entries changed, and a partition with it, X-die 0's transport and collective engine running. -/
def reductionWith (fs : List (Nat × Nat × Nat)) : RedRun := { reduction with desc := fs.foldl patch reduction.desc }
def combining (s : State) (r : RedRun) : State :=
  let x := partGet s 3
  networked (partPut s 3 { x with coll := { x.coll with reds := [r] } }) .peer

/-- Queue 0's trigger index of a reduction. -/
abbrev trigger (r : RedRun) : List (Nat × Nat) := (redTriggers r).filter (fun e => decide (e.1 < 1024))

theorem witness_ReductionsFire :
    (∀ fs ∈ ([[], [(68, 4, 5)], [(3, 1, 3)], [(66, 2, 1)]] : List (List (Nat × Nat × Nat))), Waits (combining owned (reductionWith fs)) 0 3 0 (reductionWith fs) 0) ∧
    reduction.fired = false ∧ (trigger (reductionWith [(68, 4, 5)])).any (fenceHalted (wr (combining owned reduction) 0 (fQSTATE 0) 2)) = true ∧
    (trigger (reductionWith [(68, 4, 5)])).any (fenceHalted (combining owned reduction)) = false ∧
    (trigger (reductionWith [(68, 4, 5)])).all (fenceMet (combining owned reduction)) = false ∧
    (trigger reduction).any (fenceHalted (combining owned reduction)) = false ∧ (trigger reduction).all (fenceMet (combining owned reduction)) = true ∧
    redOk 0 reduction = true ∧ redOk 0 (reductionWith [(3, 1, 3)]) = false ∧ redOk 0 (reductionWith [(66, 2, 1)]) = false ∧
    mayOriginate (combining owned reduction) 0 3 = true := by decide +kernel

/-- Its group of five with the first and the last present: the root of the shard has two children, each with one member under it. -/
def spread (held : List (Nat × Nat)) : RedRun :=
  { reduction with
    group := packed 16 [(0, 4, 5)], members := packed 40 [(0, 2, 5), (2, 1, 1), (32, 2, 6), (34, 1, 1)]
    points := held.map (fun e => ⟨e.1, 0, 0, packed 33 [(1, 1, e.2)]⟩) }

theorem witness_PointsCombine :
    (∀ h ∈ [[], [(pointCode (.inner 1 0 2), 1)], [(pointCode (.inner 2 0 0), 1), (pointCode (.inner 2 0 1), 2)]],
      Waits (combining owned (spread h)) 0 3 0 (spread h) 0 ∧ redOk 0 (spread h) = true ∧ 0 < redBlocks (spread h) 0 ∧
      (∀ pt ∈ [Point.inner 2 0 1, .inner 3 0 0], pointOf (pointCode pt) = some pt ∧ pointMine (spread h) 0 pt = true ∧
        (heldBlock (spread h) (pointCode pt) 0 0 = none → pointDone (spread h) 0 0 pt = false))) ∧
    childrenOf (spread []) 0 (.inner 2 0 1) = some (.inner 1 0 2, .inner 1 0 3) ∧ childOf (spread []) 0 0 (.inner 1 0 2) = .missing ∧
    childOf (spread [(pointCode (.inner 1 0 2), 1)]) 0 0 (.inner 1 0 2) = .block (packed 33 [(1, 1, 1)]) ∧
    childOf (spread [(pointCode (.inner 1 0 2), 1)]) 0 0 (.inner 1 0 3) = .absent ∧
    bufReadable (combining owned (spread [(pointCode (.inner 1 0 2), 1)])) 3 (spread [(pointCode (.inner 1 0 2), 1)]) 0 0 [.inner 1 0 2, .inner 1 0 3] = none ∧
    Point.inner 2 0 1 ≠ topPoint (spread []) 0 0 ∧ isRoot (spread []) 0 (.inner 2 0 1) = false ∧
    mayOriginate (combining owned (spread [(pointCode (.inner 1 0 2), 1)])) 0 3 = true := by decide +kernel

/-- The two blocks that meet at the root. -/
def meeting : RedRun := spread [(pointCode (.inner 2 0 0), 1), (pointCode (.inner 2 0 1), 2)]

theorem witness_PointsCombine_root :
    childrenOf meeting 0 (.inner 3 0 0) = some (.inner 2 0 0, .inner 2 0 1) ∧ childOf meeting 0 0 (.inner 2 0 0) = .block (packed 33 [(1, 1, 1)]) ∧
    childOf meeting 0 0 (.inner 2 0 1) = .block (packed 33 [(1, 1, 2)]) ∧ isRoot meeting 0 (.inner 3 0 0) = true ∧
    bufReadable (combining owned meeting) 3 meeting 0 0 [.inner 2 0 0, .inner 2 0 1] = none ∧
    (let sums := (List.range 32).map (fun i => fadd ((bs8Decode (packed 33 [(1, 1, 1)])).getD i 0) ((bs8Decode (packed 33 [(1, 1, 2)])).getD i 0))
     let u := vstore (combining owned meeting) 3 (leAt meeting.desc 22 6 + 128 * 0)
       ((sums.take (min 32 (redElements meeting - (0 * redShard meeting + 32 * 0)))).flatMap (leBytes 4))
     u.2 = none ∧ vaultOpen u.1 3 = false) := by decide +kernel

/-- A step that may enter the combine, alone or as one of two. -/
def stepEntering (pair : Bool) : State :=
  let s := networked owned .peer
  let x := partGet s 3
  partPut s 3 { x with
    stp := { x.stp with closed := true }
    coll := { x.coll with
      job := if pair then packed 16 [(0, 4, 2)] else []
      jobMembers := if pair then packed 16 [(0, 2, 5), (2, 1, 1), (8, 2, 6), (10, 1, 1)] else [] } }

theorem witness_CombineIsEntered :
    Live owned ∧ leadOf owned 3 = some 0 ∧ mayEnter owned 3 = false ∧ (partGet owned 3).coll.entered = false ∧
    (∀ b ∈ [true, false], Live (stepEntering b) ∧ leadOf (stepEntering b) 3 = some 0 ∧ mayEnter (stepEntering b) 3 = true ∧ vaultOpen (stepEntering b) 3 = false ∧
      (jobPlace (partGet (stepEntering b) 3).coll).isSome = b) := by decide +kernel

/-- A consumer's channel of two slots whose first has its 8 bytes received; one command of queue 0 a slot. -/
def consuming (received consumed released tail : Nat) : State :=
  let s := networked (wr (wr owned 0 (fQLOG2 0) 4) 0 (fQEN 0) 1) .peer
  channelled s (packed 64 [(0, 1, 2), (2, 2, 5), (8, 4, 1), (12, 4, 2), (22, 6, 0x6000), (32, 8, 8), (40, 4, consumed), (44, 4, released)])
    (packed 32 [(0, 8, received), (8, 4, tail)])

theorem witness_ChannelArrival :
    (∀ n ∈ [7, 8], Live (consuming n 0 0 0) ∧ chanAddr (consuming n 0 0 0) 0 3 0 = some 0x5000 ∧ chanLive (consuming n 0 0 0) 0 3 0 = true ∧
      isOk (vload (consuming n 0 0 0) 3 0x5000 64) = true ∧ isOk (vload (consuming n 0 0 0) 3 0x6000 16) = true) ∧
    (advanceTail (consuming 8 0 0 0) 3 0 1).isSome = true := by decide +kernel

theorem witness_ChannelRelease :
    ∀ t ∈ [0, 1], let s := consuming 0 1 0 t
      Live s ∧ chanAddr s 0 3 0 = some 0x5000 ∧ chanLive s 0 3 0 = true ∧ mayOriginate s 0 3 = true ∧ sessOpen s 5 = true ∧
      isOk (vload s 3 0x5000 64) = true ∧ isOk (vload s 3 0x6000 16) = true ∧ ownsQueue s 3 0 = true ∧
      (2 ^ 31 ≤ (rd s 0 (fQDONE 0) + 2 ^ 32 - t) % 2 ^ 32 ↔ t = 1) := by decide +kernel

/-- A resilience descriptor with a Vault on session 5, flash images of every step and a store on session 6. -/
def protection : List Byte := packed 64 [(0, 6, 0x7800), (6, 2, 5), (8, 6, 0x10000), (30, 2, 1), (32, 4, 1), (36, 4, 1), (40, 2, 6), (56, 2, 0xFFFF)]

/-- Partition 3 with it in force, its checkpoint engine as given; session 5 is a peer's and session 6 a tenant's. -/
def sheltered (r : Resil) : State :=
  let s := networked (placed owned 0x7000 protection) .peer
  let t := sessPut (wr (inState s (resPage s) stRunning) (resPage s) (fRBASE 3) 0x7000) 6 (party .tenant)
  partPut t 3 { partGet t 3 with flash := [.frame 0, .frame 1, .frame 2], res := r }

/-- The checkpoint engine at rest. -/
def resil : Resil := { resNone with desc := protection }

theorem witness_ImagesLeave :
    (∀ r ∈ [{ resil with due := true }, { resil with stream := some (1, 1, false) }, { resil with stream := some (1, 1, true) }], Live (sheltered r) ∧ vaultReady (sheltered r) 3 = true ∧
      (ckpt (sheltered r) 3).streamMsgs = []) ∧ (partGet (sheltered resil) 3).stp.run = none ∧
    isOk (imagePieces (sheltered { resil with stream := some (1, 1, false) }) 3 none) = true ∧ (ckpt (sheltered resil) 3).due = false ∧
    (ckpt (sheltered resil) 3).flashDue = none ∧ (ckpt (sheltered { resil with flashDue := some 1 }) 3).flashDue = some 1 ∧
    running (sheltered resil) (resPage base) = true ∧ (ckpt (sheltered { resil with flash := some (1, 1) }) 3).flash = some (1, 1) ∧
    (sheltered resil).now < (ckpt (sheltered resil) 3).storeAt + rdPERIOD resil.desc ∧ rdSTORE resil.desc ≠ 0xFFFF ∧
    0 + rdPERIOD resil.desc ≤ { sheltered resil with now := 3600000000000 }.now ∧ resil.store = none := by decide +kernel

/-- A request of partition 3's checkpoint engine, as its GO found it: OP, SOURCE and STEP. -/
def demandingOf (op source step : Nat) (r : Resil) : State :=
  wr (sheltered { r with asked := op + 2 ^ 16 * source + 2 ^ 32 * step }) (resPage base) (fRCBUSY 3) 1

/-- The same of step 0 and source 0. -/
def demanding (op : Nat) (r : Resil) : State := demandingOf op 0 0 r

theorem witness_ResilienceRequestsEnd :
    (∀ op ∈ [0, 1, 2, 3, 4, 5, 6, 7, 8, 15], Waiting (demanding op resil) 3 op) ∧ Live (sheltered resil) ∧ rd (sheltered resil) (resPage base) (fRCBUSY 3) = 0 := by
  decide +kernel

theorem witness_Restart :
    leadOf (demanding 1 resil) 3 = some 0 ∧ isQuiet (demanding 1 resil) 3 = true ∧ resStep (demanding 1 resil) 3 = stepNow (demanding 1 resil) 3 ∧
    (partGet (demanding 1 resNone) 3).stp.run = none ∧ vaultOpen (clearWires (demanding 1 resNone) 3 0 0) 3 = false ∧
    Waiting (demandingOf 1 0 1 resil) 3 1 ∧ resStep (demandingOf 1 0 1 resil) 3 ≠ stepNow (demandingOf 1 0 1 resil) 3 := by decide +kernel

/-- A step whose reduction is complete and whose combined result the module holds. -/
def finishing (source : Nat) : State :=
  let s := demandingOf 2 source 0 resil
  let x := partGet s 3
  partPut s 3 { x with coll := { x.coll with
    reds := [{ reduction with fired := true, roots := [0] }], job := packed 16 [(0, 4, 2)]
    jobMembers := packed 16 [(0, 2, 5), (2, 1, 1), (8, 2, 6), (10, 1, 1)], result := some ⟨true, true, 1, 0, []⟩ } }

/-- A step whose reduction is not complete. -/
def unfinished : State :=
  let x := partGet (demanding 2 resil) 3
  partPut (demanding 2 resil) 3 { x with coll := { x.coll with reds := [reduction] } }

theorem witness_Unfinished :
    Waiting unfinished 3 2 ∧ resStep unfinished 3 = stepNow unfinished 3 ∧ (partGet unfinished 3).coll.reds ≠ [] ∧
    (partGet unfinished 3).coll.reds.any redComplete = false := by decide +kernel

theorem witness_Finish :
    (∀ n ∈ [0, 1], Waiting (finishing n) 3 2 ∧ (partGet (finishing n) 3).coll.reds.any redComplete = true ∧ resSource (finishing n) 3 = n) ∧
    groupSelf (partGet (finishing 0) 3).coll.job = 0 ∧ groupOk (partGet (finishing 0) 3).coll.job (partGet (finishing 0) 3).coll.jobMembers = true ∧
    heldResult (finishing 0) 3 (resStep (finishing 0) 3) = some ⟨true, true, 1, 0, []⟩ := by decide +kernel

theorem witness_RestoreReplay :
    (ckpt (demanding 3 resil) 3).restore = none ∧ rd (demanding 3 resil) rootPage (fPSTATE 3) = 2 ∧
    rd (wr (demanding 3 resil) rootPage (fPSTATE 3) 3) rootPage (fPSTATE 3) ≠ 2 ∧ (readDesc (demanding 3 resil) 3).2 = 0 ∧
    peerOpen (readDesc (demanding 3 resil) 3).1 3 (rdVAULT (ckpt (readDesc (demanding 3 resil) 3).1 3).desc) = true ∧
    (ckpt (demanding 4 resil) 3).replay = none ∧ resStep (demanding 4 resil) 3 = stepNow (demanding 4 resil) 3 ∧
    (partGet (demanding 4 resil) 3).stp.started = true ∧ (partGet (demanding 4 resil) 3).stp.job = none ∧
    (partGet (demanding 4 resil) 3).stp.dead = false ∧ isOk (vload (demanding 4 resil) 3 (rd (demanding 4 resil) (resPage base) (fRBASE 3)) 64) = true ∧
    Waiting (demandingOf 4 0 1 resil) 3 4 ∧ resStep (demandingOf 4 0 1 resil) 3 ≠ stepNow (demandingOf 4 0 1 resil) 3 ∧
    Waiting (demanding 3 { resil with restore := some ⟨0, 0, 0, 0, .header, 4096, [], [], []⟩ }) 3 3 := by
  decide +kernel

theorem witness_RepointAndNow :
    (readDesc (demanding 5 resil) 3).2 = 0 ∧ (readDesc (wr (demanding 5 resil) (resPage base) (fRBASE 3) (2 ^ 40)) 3).2 = 3 ∧
    rdVAULT (ckpt (readDesc (demanding 5 resil) 3).1 3).desc ≠ 0xFFFF ∧
    peerOpen (readDesc (sessPut (demanding 5 resil) 5 (party .tenant)) 3).1 3 5 = false ∧ (ckpt (demanding 6 resil) 3).lastStep = none ∧
    (let r := { resil with lastStep := some 1 }
     rdEVERY r.desc ≠ 0 ∧ r.store ≠ some ((1 / rdEVERY r.desc + 1) % 2) ∧ (flashImageTo (demanding 6 r) 3 ((1 / rdEVERY r.desc + 1) % 2) 1).2 = 0) ∧
    newestSlot (ckpt (demanding 7 resil) 3) = none ∧ newestSlot { resil with flashAt := [some 1, none] } ≠ none ∧
    storeOpen (demanding 7 { resil with flashAt := [some 1, none] }) 3 = true ∧
    storeOpen (sessPut (demanding 7 { resil with flashAt := [some 1, none] }) 6 (party .peer)) 3 = false := by decide +kernel

/-- The module with its power manager in a phase, and some rails good. -/
def powered (phase : PwrPhase) (pwrEn resetN : Bool) (good : List Rail) : State :=
  { base with power := { base.power with phase := phase, pwrEn := pwrEn, resetN := resetN, good := good } }

/-- Every rail of the ramp but the last. -/
def almost : List Rail := [.vin, .vaux] ++ (rampOrder base.code).flatten.dropLast

theorem witness_PowerSequence :
    (powered .off false true [.vin, .vaux]).power.vinOk = true ∧
    (let s := { powered .held false true [] with now := 100000005 }
     { s.power with pwrEnLowAt := some 5 }.phase = .held ∧ 5 + 100000000 ≤ s.now ∧ s.now < 6 + 100000000) ∧
    (rampNext base.code [.vin, .vaux]).contains .vbus = true ∧ rampNext base.code ([.vin, .vaux] ++ [.vbus]) ≠ [] ∧
    (rampNext base.code almost).contains .vopt = true ∧ rampNext base.code (almost ++ [.vopt]) = [] ∧
    ¬ ((powered .ramping true true [.vin, .vaux]).power.phase = .ramping ∧ (rampNext base.code [.vin, .vaux]).contains .vopt = true) ∧
    base.power.pwrEn = true ∧ base.power.vinOk = true ∧ { base with power := { base.power with vinOk := false } }.power.vinOk = false ∧
    (∀ d ∈ [(0 : Fin 10), 7], dieFitted base.code d.val = true) := by decide +kernel

/-- A request of the power manager. -/
def resetting (kind target : Nat) : State :=
  let s := wr base pwrPage fRBUSY 1
  { s with power := { s.power with rstReq := kind + 256 * target } }

theorem witness_ResetsTakeEffect :
    base.power.phase = .on ∧ base.power.mReset = false ∧
    (let s := { base with now := 1000000, power := { base.power with mReset := true } }
     s.power.mReset = true ∧ s.power.resetN = true ∧ s.power.resetAt + 1000000 ≤ s.now ∧ 999999 < s.power.resetAt + 1000000) ∧
    (powered .off true true []).power.phase ≠ .on ∧
    rampNext base.code [.vin] ≠ [] ∧ (powered .ramping true false (almost ++ [.vopt])).power.phase = .ramping ∧
    rampNext base.code (powered .ramping true false (almost ++ [.vopt])).power.good = [] ∧ base.power.resetN = true ∧
    dieFitted base.code 7 = true ∧ dieFitted base.code 8 = false ∧ (∀ k ∈ [1, 2, 3], resetAsked (resetting k 0) k = true ∧ resetAsked base k = false) ∧
    bits (resetting 3 0x37).power.rstReq 12 3 < xdieCount base.code := by decide +kernel

theorem witness_WarningsThrottle :
    Live base ∧ (∀ d ∈ [(0 : Fin 10), 7], dieFitted base.code d.val = true ∧ rd base (monitorPage d.val) fWARN = 0 ∧
      rd (wr base (monitorPage d.val) fWARN 1) (monitorPage d.val) fWARN = 1) ∧ dieFitted base.code 9 = false := by decide +kernel

/-- Curator core c as given. -/
def cored (s : State) (c : Nat) (x : CurCore) : State := corePut s c x

/-- The module with an active core, both cores running an image since 0. -/
def curated (a : Nat) : State :=
  let x : CurCore := { coreInRom with tested := some true, image := [1], kickAt := some 0 }
  let s := setRole (setRole (cored (cored base 0 x) 1 x) a 1 0) (otherCore a) 2 1
  { s with boot := { s.boot with active := some a } }

/-- The same with none active. -/
def leaderless (a : Nat) : State := { curated a with boot := { (curated a).boot with active := none } }

theorem witness_WatchdogsAndTakeover :
    ∀ c ∈ [(0 : Fin 2), 1],
      Live (curated 0) ∧ (coreGet (curated 0) c.val).kickAt = some 0 ∧ (coreGet base c.val).kickAt = none ∧ (curated 0).now < 0 + 100000000 ∧
      0 + 100000000 ≤ { curated 0 with now := 100000000 }.now ∧ (curated c.val).boot.active = some c.val ∧
      (curated (otherCore c.val)).boot.active ≠ some c.val ∧
      (leaderless (otherCore c.val)).boot.active = none ∧ rd (leaderless (otherCore c.val)) (curPage c.val) fROLE = 2 ∧
      rd (leaderless (otherCore c.val)) (curPage c.val) fSYNCED = 1 ∧ rd (leaderless (otherCore c.val)) (curPage (otherCore c.val)) fROLE ≠ 2 ∧
      ∀ d : Fin 2, rd base (curPage d.val) fROLE ≠ 2 := by decide +kernel

/-- A module that boots: core c tested, leading, with the flash; `other` active instead. -/
def booting (c : Nat) (slot : List Byte) : State :=
  let s := cored base c { coreInRom with tested := some true }
  { s with boot := { s.boot with lead := some c, flashHolder := some c, slot := slot } }
def booted (c : Nat) (slot : List Byte) : State :=
  let s := cored (curated (otherCore c)) c { coreInRom with tested := some true }
  { s with boot := { s.boot with flashHolder := none, slot := slot } }

theorem witness_CoresBoot :
    ∀ c ∈ [(0 : Fin 2), 1], Live base ∧ (coreGet base c.val).tested = none ∧ (coreGet base c.val).image = [] ∧ base.boot.active = none ∧ base.boot.lead = none ∧
      (coreGet (booting c.val []) c.val).tested = some true ∧ (coreGet (booting c.val []) c.val).image = [] ∧
      (coreGet (booting c.val []) c.val).recovering = false ∧ (booting c.val []).boot.active = none ∧ (booting c.val []).boot.lead = some c.val ∧
      (booting c.val []).boot.flashHolder = some c.val ∧ imageError (booting c.val []) [] = some 1 ∧
      (booted c.val []).boot.active = some (otherCore c.val) ∧ (booted c.val []).boot.flashHolder = none ∧
      (coreGet (booted c.val []) c.val).image = [] ∧ rd (curated (otherCore c.val)) (curPage c.val) fROLE = 2 ∧
      (coreGet (curated (otherCore c.val)) c.val).image ≠ [] ∧ rd (curated (otherCore c.val)) (curPage (otherCore c.val)) fROLE ≠ 2 ∧
      imageError (booted c.val []) [] = some 1 ∧ (booting c.val []).boot.grantAt + 2000000000 ≤ 2000000000 ∧
      (booting c.val []).now < (booting c.val []).boot.grantAt + 2000000000 := by
  decide +kernel

/-- With a slot that passes every check, whose signature and hashes Config leaves open, the clauses of a valid slot are met. -/
theorem witness_CoresBoot_valid (slot : List Byte) (h0 : imageError (booting 0 slot) slot = none) (h1 : imageError (booted 0 slot) slot = none) :
    imageError (booting 0 slot) (booting 0 slot).boot.slot = none ∧ imageError (booted 0 slot) (booted 0 slot).boot.slot = none := ⟨h0, h1⟩

/-- Core 0 in recovery, with some bytes; the host ports of both cores are up. -/
def recovering (have_ : List (Nat × Nat)) (other : Option Bool) : State :=
  let s := wr (wr base (portPage 0 0) fLINK 1) (portPage 1 0) fLINK 1
  cored (cored s 1 { coreInRom with tested := other }) 0 { coreInRom with tested := some true, recovering := true, have_ := have_ }

/-- A live update under way. -/
def updating : State := { curated 0 with boot := { (curated 0).boot with update := some ⟨5, 1, [1, 2], [1], 0⟩ } }

theorem witness_RecoveryAndUpdate :
    Live base ∧ recoveringCore base = none ∧ recoveringCore (recovering [] none) = some 0 ∧ portUp (recovering [] none) 0 0 = true ∧
    portUp (recovering [] none) 1 0 = true ∧
    covered (addRange (coreGet (recovering [] none) 0).have_ 0 (0 + 511)) 0 512 = false ∧
    covered (addRange (coreGet (recovering [(0, 511)] none) 0).have_ 511 (511 + 1)) 0 512 = true ∧
    headerError (recovering [(0, 511)] none) (takeBytes (putBytes [] 511 [1]) 0 512) = some 1 ∧
    (recovering [] none).now < (coreGet (recovering [] none) 0).askedAt + 100000000 ∧
    (coreGet { recovering [(0, 100)] none with now := 100000000 } 0).askedAt + 100000000 ≤ 100000000 ∧
    (recoveryGaps (coreGet (recovering [(0, 100)] none) 0)).length = 1 ∧
    (coreGet (recovering [] none) (otherCore 0)).tested ≠ some true ∧ (coreGet (recovering [] (some true)) (otherCore 0)).tested = some true ∧
    (coreGet { recovering [] (some true) with now := 60000000000 } 0).since + 60000000000 ≤ 60000000000 ∧
    base.boot.update = none ∧ updating.boot.update = some ⟨5, 1, [1, 2], [1], 0⟩ ∧ updating.boot.active = some 0 ∧
    quietNow updating ⟨5, 1, [1, 2], [1], 0⟩ = true ∧ rd updating (curPage (otherCore 0)) fSYNCED = 1 ∧
    updating.now < 0 + 10000000000 ∧ 0 + 10000000000 ≤ { updating with now := 10000000000 }.now ∧
    quietNow (wr updating pwrPage fRBUSY 1) ⟨5, 1, [1, 2], [1], 0⟩ = false := by decide +kernel

/-- With a header that passes its check, as Config leaves open, the clauses of a header are met. -/
theorem witness_RecoveryAndUpdate_header (h : List Byte) (sram : Tab Byte) (e : takeBytes sram 0 512 = h)
    (ok : headerError (recovering [(0, 512)] none) h = none) : headerError (recovering [(0, 512)] none) (takeBytes sram 0 512) = none := e ▸ ok

/-- A mailbox request in slot 1 of session 5: an operation code and fields. -/
def mailBytes (op : Nat) (fs : List (Nat × Nat × Nat)) : List Byte := packed 80 ([(0, 1, op), (2, 2, 0xFFFF)] ++ fs)

/-- The module with an active core and that request. -/
def mailing (b : List Byte) : State := mbxPut (curated 0) 5 1 { mbxNew with request := b, state := 1 }

/-- A multicast group's entry. -/
def groupFields : List (Nat × Nat × Nat) := [(16, 2, 0x77), (18, 1, 3), (19, 1, 1), (52, 4, 64)]

theorem witness_MailboxRequestsAnswer :
    (∀ op ∈ [0, 1, 13, 14, 255], Mails (mailing (mailBytes op [])) 5 1 op (mailBytes op [])) ∧ mailReady base 5 1 = false ∧
    (mailReady (mailing (mailBytes 1 [(1, 1, 1)])) 5 1 = true ∧ leAt (mbxGet (mailing (mailBytes 1 [(1, 1, 1)])) 5 1).request 1 1 ≠ 0) ∧
    (mailReady (mailing (mailBytes 1 [(2, 2, 0)])) 5 1 = true ∧
      mailVectorOk (mailing (mailBytes 1 [(2, 2, 0)])) 5 (leAt (mbxGet (mailing (mailBytes 1 [(2, 2, 0)])) 5 1).request 2 2) = false) := by decide +kernel

theorem witness_MailboxRows :
    Mails (mailing (mailBytes 3 [(10, 1, 2)])) 5 1 3 (mailBytes 3 [(10, 1, 2)]) ∧ roleOf 2 = some .tenant ∧
    freeSlot (mailing (mailBytes 3 [(10, 1, 2)])) 0 = some 0 ∧
    (∀ b ∈ [mailBytes 4 [(8, 2, 5)], mailBytes 4 [(8, 2, 6)]], Mails (sessPut (mailing b) 5 (party .tenant)) 5 1 4 b) ∧
    Mails (mailing (mailBytes 5 [(8, 2, 4095), (10, 1, 63)])) 5 1 5 (mailBytes 5 [(8, 2, 4095), (10, 1, 63)]) ∧
    blkState (mailing (mailBytes 5 [(8, 2, 4095)])) (vecAddr 4095 / 4096) = stStopped ∧
    blkState (inState (mailing (mailBytes 5 [(8, 2, 4095)])) (vecAddr 4095 / 4096) stRunning) (vecAddr 4095 / 4096) ≠ stStopped ∧
    Mails (inState (mailing (mailBytes 5 [(8, 2, 4095)])) (vecAddr 4095 / 4096) stRunning) 5 1 5 (mailBytes 5 [(8, 2, 4095)]) ∧
    bits (regGet base (vecAddr 4095)) 40 6 = 0 := by decide +kernel

theorem witness_GroupAndWriteRows :
    Mails (mailing (mailBytes 6 groupFields)) 5 1 6 (mailBytes 6 groupFields) ∧
    groupEntryOk (padTo 64 (((mailBytes 6 groupFields).drop 16).take 64)) = true ∧
    (mcastPut (mailing (mailBytes 6 groupFields)) 0 (padTo 64 (((mailBytes 6 groupFields).drop 16).take 64))).isSome = true ∧
    (∀ n ∈ [0x76, 0x77], Mails (grouped (mailing (mailBytes 7 [(16, 2, n)])) (group false false true 5 6)) 5 1 7 (mailBytes 7 [(16, 2, n)])) ∧
    Mails (mailing (mailBytes 8 [(8, 8, 0x050)])) 5 1 8 (mailBytes 8 [(8, 8, 0x050)]) ∧ curwriteDenied base 0x050 0 = true ∧
    Mails (mailing (mailBytes 8 [(8, 8, 0x100)])) 5 1 8 (mailBytes 8 [(8, 8, 0x100)]) ∧ curwriteDenied base 0x100 0 = false := by decide +kernel

/-- A SESS_OPEN whose packet can be sent. -/
theorem witness_SessOpenSent :
    (sendInit (mailing (mailBytes 3 [(10, 1, 2)])) 0 0 2 0 (padTo 16 (((mailBytes 3 [(10, 1, 2)]).drop 16).take 16)) (5, 1)).isSome = true := by
  rfl

theorem taken_of (x : Sess) (n a k : Nat) (h1 : a ≤ k) (h2 : k < a + n) : tfind ((List.range' a n).map (fun i => (i, x))) k = some x := by
  induction n generalizing a with
  | zero => omega
  | succ m ih =>
    rw [List.range'_succ, List.map_cons]
    unfold tfind
    by_cases e : a = k
    · simp [e]
    · simp only [e, if_false]
      exact ih (a + 1) (by omega) (by omega)

/-- Every session slot of X-die 0 taken. -/
def crowded : State := { mailing (mailBytes 3 [(10, 1, 2)]) with sess := (List.range' 0 8192).map (fun i => (i, session .opened .tenant 3)) }

theorem witness_SessOpenFull : Mails crowded 5 1 3 (mailBytes 3 [(10, 1, 2)]) ∧ freeSlot crowded 0 = none := by
  refine ⟨by decide +kernel, List.find?_eq_none.mpr (fun k _ => ?_)⟩
  by_cases h : k < 8192
  · have e : sessGet crowded k = some (session .opened .tenant 3) := taken_of _ 8192 0 k (by omega) (by omega)
    simp [e]
  · simp [h]

theorem witness_TrustRequestsAnswer :
    (∀ fs ∈ ([[(8, 1, 1)], [(8, 1, 3), (9, 1, 63)]] : List (List (Nat × Nat × Nat))), Mails (mailing (mailBytes 1 fs)) 5 1 1 (mailBytes 1 fs)) ∧
    Mails (mailing (mailBytes 2 [(16, 4, 9)])) 5 1 2 (mailBytes 2 [(16, 4, 9)]) ∧
    (∀ n ∈ [0, 255], Mails (mailing (mailBytes 9 [(8, 1, 2), (9, 2, n)])) 5 1 9 (mailBytes 9 [(8, 1, 2), (9, 2, n)])) ∧
    rd (mailing (mailBytes 9 [(8, 1, 2)])) pwrPage fRBUSY = 0 ∧ rd (wr (mailing (mailBytes 9 [(8, 1, 2)])) pwrPage fRBUSY 1) pwrPage fRBUSY = 1 ∧
    Mails (mailing (mailBytes 11 [(8, 4, 9)])) 5 1 11 (mailBytes 11 [(8, 4, 9)]) ∧ (mailing (mailBytes 11 [])).boot.active = some 0 ∧
    Mails (mailing (mailBytes 12 [])) 5 1 12 (mailBytes 12 []) ∧ svnReady (mailing (mailBytes 12 [])) 0 = true ∧
    svnReady (wr (mailing (mailBytes 12 [])) (bootPage 0) fBOOTSVN 1) 0 = false ∧
    (∀ n ∈ [0, 3, 4], Mails (mailing (mailBytes 13 [(8, 1, n)])) 5 1 13 (mailBytes 13 [(8, 1, n)])) ∧ runningSlot (mailing (mailBytes 13 [])) = 0 := by
  decide +kernel

/-- The 512 bytes of a header alone, staged by session 5. -/
def staged : State :=
  let s := mailing (mailBytes 10 [(8, 4, 512)])
  { s with boot := { s.boot with staging := [(5, [(0, 1)])] } }

theorem witness_Update :
    Mails staged 5 1 10 (mailBytes 10 [(8, 4, 512)]) ∧ staged.boot.active = some 0 ∧ staged.boot.update = none ∧ (coreGet staged (otherCore 0)).image ≠ [] ∧
    rd staged (curPage (otherCore 0)) fROLE = 2 ∧ 512 = 512 + bodyLen (takeBytes (tget [] staged.boot.staging 5) 0 512) ∧
    imageError staged (takeBytes (tget [] staged.boot.staging 5) 0 512) = some 1 := by decide +kernel

/-- The dump engine with stream 0 enabled: physical records of one entry at the start of flash, every microsecond. -/
def dumping (next : Nat) (st : Nat) : State :=
  let s := wr (wr (wr (wr (inState (there base 0) dumpPage st) dumpPage (fLPERIOD 0) 1) dumpPage (fLBASE 0) flashBase) dumpPage (fLLOG2 0) 7) dumpPage (fLPHYS 0) 1
  { s with now := 5000, obs := { s.obs with streams := [(0, ⟨packed 8 [(5, 1, 1), (6, 1, 255)], next, 3, 0, none⟩)] } }

/-- Partition 3 with provenance on, its ring at 0x1000; K = 0 tags every micro-operation, K = 31 next to none. -/
def tracing (k : Nat) : State :=
  wr (wr (wr owned dumpPage (fPRVEN 3) 1) dumpPage (fPRVBASE 3) 0x1000) dumpPage (fPRVK 3) k
def microOp : MicroOp := ⟨0, 1, 5, 6, 0, 1, 2, true, false, false, false, 9, [1, 2]⟩

theorem witness_LedgerRowsTakeEffect :
    Live base ∧ pageAt base 0 = some (info base 0) ∧ 0 < (ledgerShape (info base 0).type).1 ∧ ledger base 0 0 + 1 < 2 ^ 48 ∧
    2 ^ 48 ≤ ledger (wr base 0 ⟨0x840, 0, 48⟩ (2 ^ 48 - 1)) 0 0 + 1 ∧ tfind base.obs.streams 0 = none ∧ rd (dumping 4000 4) dumpPage (fLPERIOD 0) * 1000 = 1000 ∧
    (dumping 5001 stRunning).now < 5001 ∧ 5000 ≤ (dumping 5000 stRunning).now ∧ running (dumping 5000 stRunning) dumpPage = true ∧
    (writeSample (dumping 5000 stRunning) 0 ⟨packed 8 [(5, 1, 1), (6, 1, 255)], 5000, 3, 0, none⟩).2 = none ∧
    (writeSample (wr (dumping 5000 stRunning) dumpPage (fLPHYS 0) 0) 0 ⟨packed 8 [(5, 1, 1), (6, 1, 255)], 5000, 3, 0, none⟩).2.isSome = true ∧
    running (dumping 5000 stStopped) dumpPage = false := by decide +kernel

theorem witness_Provenance :
    pageOwner (tracing 0) (galPage microOp.gallery.val) = some 3 ∧ rd owned dumpPage (fPRVEN 3) = 0 ∧ opTagged (tracing 31) 3 microOp = false ∧
    rd (tracing 0) dumpPage (fPRVEN 3) = 1 ∧ opTagged (tracing 0) 3 microOp = true ∧
    (vstore (tally (tracing 0) (galPage microOp.gallery.val + 3) 7 1) 3 (0x1000 + 0 % 2 ^ 0 * 64) (opRecord microOp 0)).2 = none ∧
    pageOwner base (galPage microOp.gallery.val) = none := by decide +kernel

/-- Pin 0 unlocked and enabled, with frames left after a trigger. -/
def pinned (post : Option (List Nat)) : State :=
  let s := wr (wr base muxPage fUNLOCKED 1) muxPage (fOEN 0) 1
  { s with now := 200, obs := { s.obs with post := post, pulse := some 100 } }

theorem witness_PinsSendAndStop :
    pinSends base 0 = false ∧ pinSends (pinned none) 0 = true ∧ pinSends (pinned (some (List.replicate 16 1))) 0 = true ∧
    (∀ n : Fin 16, pinSends (pinned (some (List.replicate 16 0))) n.val = false) ∧ (pinned (some [])).obs.post.isSome = true ∧
    (pinned none).obs.pulse = some 100 ∧ 100 + 100 ≤ (pinned none).now ∧ { pinned none with now := 199 }.now < 100 + 100 ∧ base.obs.pulse = none := by
  decide +kernel

theorem witness_TestPortAnswers :
    let held := powered .on true false base.power.good
    debugPowered base = true ∧ debugPowered (powered .off false true []) = false ∧ debugPowered held = true ∧ held.power.resetN = false := by
  decide +kernel

theorem witness_NothingActsInReset :
    (powered .off false true []).power.phase ≠ .on ∧ { base with power := { base.power with mReset := true } }.power.mReset = true := by decide +kernel

theorem witness_StepAndCanonicalForms :
    base.pending = [] ∧ Memory.wf base.mem = true ∧ Memory.wf owned.mem = true ∧ Registers.wf (wr base 0 fRUN 1) = true ∧ stackCount base.code ≤ 12 ∧
    11 < stackCount base.code := by decide +kernel

/-- A state that is no default has the canonical forms too, and steps. -/
theorem witness_StepKeepsCanonicalForms :
    Canonical { owned with pending := [.write .curator 0x801110 5 (alone 1)] } ∧
    ∃ t, step { owned with pending := [.write .curator 0x801110 5 (alone 1)] } = .next t := by
  refine ⟨⟨by decide +kernel, by decide +kernel, shaped_of _ (by decide +kernel)⟩, ?_⟩
  exact ⟨_, rfl⟩

theorem witness_AddressesNameWholeRegisters :
    (∀ d ∈ [(0, 0, 6), (3, 511, 6), (4, 3, 0), (7, 3, 3), (6, 259, 4), (7, 259, 5)],
      (pageInfo .m10x6 (d.1 * 512 + d.2.1)).map (·.xdie) = if d.1 = 3 then none else some d.2.2) ∧
    ∃ i, pageInfo .m10x6 (7 * 512 + 259) = some i := ⟨by decide +kernel, _, rfl⟩

theorem witness_AddressRefusals :
    InTurn base (beginMsg base .curator (alone 0)) .curator .curator (alone 0) begunMsg ∧ Executes (alone 0) begunMsg ∧
    InTurn base (beginMsg base .curator (alone 1)) .curator .curator (alone 1) begunMsg ∧ Executes (alone 1) begunMsg ∧
    InTurn base (beginMsg base .curator (alone 2)) .curator .curator (alone 2) begunMsg ∧ Executes (alone 2) begunMsg ∧
    2 ^ 24 ≤ (0x1000000 : Word64).toNat ∧ (0xFFFFFC : Word64).toNat < 2 ^ 24 ∧ (0xFFFFFC : Word64).toNat % 8 ≠ 0 ∧
    Reached (beginMsg base .curator (alone 0)) .curator (0x800100 : Word64).toNat (info base 0x800) ∧
    (beginMsg base .curator (alone 0)).regBad.contains (0x800100 : Word64).toNat = false ∧
    runWord (beginMsg base .curator (alone 0)) (0x800100 : Word64).toNat = none := by decide +kernel

/-- BLK_EPOCH of a port's page, written by the Curator and by an administrator, while the page is stopped and while it runs. -/
theorem witness_EpochBelongsToCurator :
    let run := inState base 0x801 stRunning
    InTurn base (beginMsg base .curator (alone 1)) .curator .curator (alone 1) begunMsg ∧ Executes (alone 1) begunMsg ∧
    (0x801048 : Word64).toNat = 0x801 * 4096 + 0x048 ∧ Reached (beginMsg base .curator (alone 1)) .curator 0x801048 (info base 0x801) ∧
    blkState (beginMsg base .curator (alone 1)) 0x801 = stStopped ∧ InTurn run (beginMsg run .curator (alone 1)) .curator .curator (alone 1) begunMsg ∧
    Reached (beginMsg run .curator (alone 1)) .curator 0x801048 (info base 0x801) ∧ blkState (beginMsg run .curator (alone 1)) 0x801 ≠ stStopped ∧
    InTurn midway midway (.session 5) .administrator ⟨false, false, false, none, 0, 1⟩ midMsg ∧
    Executes ⟨false, false, false, none, 0, 1⟩ midMsg ∧ Reached midway .administrator 0x801048 (info base 0x801) ∧
    (5 : Word64).toNat % 2 ^ 32 ≠ rd (beginMsg base .curator (alone 1)) 0x801 fEPOCH := by decide +kernel

/-- A queue of 16 commands: TAIL at 3, HEAD and DONE at 1. -/
def tailed : State := wr (wr (wr (wr (there base 0) 0 (fQLOG2 0) 4) 0 (fQHEAD 0) 1) 0 (fQDONE 0) 1) 0 (fQTAIL 0) 3

theorem witness_TailWritesAreChecked :
    Opens tailed .curator .curator ∧ Reached (heard tailed .curator) .curator (galPage 0 * 4096 + (0x210 + 0x40 * 0)) (info base 0) ∧
    (info base 0).type = .galleryControl ∧ (info base 0).spare = false ∧ (info base 0).num = 0 ∧ rd (heard tailed .curator) 0 fERRVALID = 0 ∧
    rd (heard tailed .curator) 0 (fQTAIL 0) = 3 ∧
    (∀ n ∈ [4, 17], (n + 2 ^ 32 - rd (heard tailed .curator) 0 (fQDONE 0)) % 2 ^ 32 ≤ 2 ^ rd (heard tailed .curator) 0 (fQLOG2 0) ∧
      (rd tailed 0 (fQTAIL 0) + 2 ^ 32 - rd tailed 0 (fQHEAD 0)) % 2 ^ 32 ≤ (n + 2 ^ 32 - rd tailed 0 (fQHEAD 0)) % 2 ^ 32) ∧
    2 ^ rd tailed 0 (fQLOG2 0) < (18 + 2 ^ 32 - rd tailed 0 (fQDONE 0)) % 2 ^ 32 ∧
    (2 + 2 ^ 32 - rd tailed 0 (fQHEAD 0)) % 2 ^ 32 < (rd tailed 0 (fQTAIL 0) + 2 ^ 32 - rd tailed 0 (fQHEAD 0)) % 2 ^ 32 :=
  ⟨opens_curator _ (by decide +kernel), by decide +kernel⟩

theorem witness_RevocationIsPermanent :
    (∀ n ∈ [0, 3], Mails (mailing (mailBytes 13 [(8, 1, n)])) 5 1 13 (mailBytes 13 [(8, 1, n)])) ∧ runningSlot (mailing (mailBytes 13 [(8, 1, 0)])) = 0 ∧
    (2 : Nat).testBit 1 = true ∧ { base with fuses := { base.fuses with keysRevoked := 2 } }.fuses.keysRevoked.testBit 1 = true := by decide +kernel

/-- A packet of any kind, for what is ill formed. -/
abbrev somePacket : Pkt := packet 4 0 1 0

theorem test_ill_formed :
    illFormed (.bulkWrite somePacket 0 0 0 (List.replicate 8193 0)) = [.payloadTooLong] ∧ illFormed (.bulkWrite somePacket 0 0 0 (List.replicate 8192 0)) = [] ∧
    illFormed (.scConfirm somePacket [1]) = [.fieldSize] ∧ illFormed (.scInit port0 asksIn) = [.fieldSize] ∧
    illFormed (.blocks somePacket (header 0) 0 2 (List.replicate 65 0)) = [.blockCount] ∧ illFormed (.blocks somePacket (header 0) 0 2 (List.replicate 66 0)) = [] ∧
    illFormed (.patrolScrub 14) = [.stackRange] ∧ illFormed (.patrolScrub 13) = [] ∧
    illFormed (.egressFrame port0 (leaving 9217 0)) = [.frameTooLong] ∧ illFormed (.egressFrame port0 (leaving 9216 0)) = [] ∧
    illFormed (.provenanceRecord microOp) = [.stageCount] ∧ wellFormed (.read .curator 0 (alone 0)) = true := by decide +kernel

/-- Nothing decodes: the table gives no row any bits. -/
theorem test_no_word_spells_a_command : decodeTableWord 64 0x1234 = none ∧ base.withFetchWord 64 0x1234 = base := by decide +kernel

/-- R449's table: both check values of ASCII "123456789". -/
theorem test_check_values : crc32c (ascii "123456789") = 0xE3069283 ∧ crc64From 0 (ascii "123456789") = 0x6C40DF5F0B497347 := by decide +kernel

/-- The example of R179: two rounds of Kettle from key 0 and counter 1. -/
theorem test_kettle_rounds :
    kettleRound ⟨0, 0, 0, 0⟩ ⟨1, 0, 0, 0⟩ 0 = ⟨0, 0x200, 0x200, 0⟩ ∧
    kettleRound ⟨0, 0, 0, 0⟩ ⟨0, 0x200, 0x200, 0⟩ 1 = ⟨0x31A35CAE, 0x61725267, 0x9E3D999B, 0x2F52A8E3⟩ := by decide +kernel

/-- The example of R90: one FP32 value rounded to BF16 both ways. -/
theorem test_bf16_rounding :
    packRne bf16 (val32 0x3F808000) = 0x3F80 ∧ packSr bf16 (val32 0x3F808000) 0x12345678 = 0x3F81 ∧ packSr bf16 (val32 0x3F808000) 0xC0000000 = 0x3F80 := by
  decide +kernel

/-- The example of R93 to R97: BF16 values converted to INT4 at E = 2. -/
theorem test_int4_conversion :
    (toIntb 4 2 (unpack bf16 0x3FA0)).1 = 2 ∧ (toIntb 4 2 (unpack bf16 0xC070)).1 = -8 ∧
    ((toIntb 4 2 (unpack bf16 0x40A0)).1 = 7 ∧ (toIntb 4 2 (unpack bf16 0x40A0)).2.sat = true) ∧
    ((toIntb 4 2 (unpack bf16 0x3DCD)).1 = 0 ∧ (toIntb 4 2 (unpack bf16 0x3DCD)).2.zero = true) ∧
    (toIntb 4 2 (unpack bf16 0x7FC0)).2.nonfinite = true := by decide +kernel

/-- The example of R102: a block at X = −4, and the same block escalated. -/
theorem test_bs8_block :
    (bs8Encode (-4) false [0x40FD0000, 0xBE400000, 0x3C800000] [0x30000000, 0, 0x90000000]).1 = [0xFC, 0x7F, 0xFD, 0x00] ++ List.replicate 29 0 ∧
    bs8Decode ([0xFC, 0x7F, 0xFD, 0x00] ++ List.replicate 29 0) = [0x40FE0000, 0xBE400000] ++ List.replicate 30 0 ∧
    (bs8Encode (-4) false [0x40FF0000, 0xBE400000, 0x3C800000] [0x30000000, 0, 0x90000000]).1 =
      [0x80, 0xFF, 0x40, 0x40, 0xBE, 0x80, 0x3C] ++ List.replicate 58 0 := by decide +kernel

/-- The example of R436 and R437: a granule's check symbols, and the correction of data byte 5. -/
theorem test_guard_code :
    guardEncode (1 :: List.replicate 31 0) = [0x40, 0x78, 0x36, 0x0F] ∧ [0, 1, 2, 3].map (syndrome [(9, 0x80)]) = [0x80, 0x4C, 0x03, 0x4E] ∧
    guardDecode [(9, 0x80)] = .corrected 9 0x80 ∧ guardDecode [] = .clean ∧ guardDecode [(9, 0x80), (10, 1)] = .bad := by decide +kernel

/-- The examples of R37 and R39: the pages behind four addresses. -/
theorem test_register_pages :
    0xA03018 / 4096 = xPage 1 3 ∧ 0xD03018 / 4096 = xPage 4 3 ∧ (pageInfo .m10x6 (0xD03018 / 4096)).isSome = true ∧ pageInfo .m12x4 (0xD03018 / 4096) = none ∧
    0x216018 / 4096 = galPage 69 + 2 ∧ 0x215010 / 4096 = galPage 69 + 1 := by decide +kernel

/-- The examples of R244 and R249: where a byte of frame 100,001 lies, and where it moves when its channel retires. -/
theorem test_hbm_places :
    hbmStack .m12x4 (100001 * frameSize + 74565) = 5 ∧ hbmChannel (100001 * frameSize + 74565) = 3 ∧
    reserveAddr .m12x4 (100001 * frameSize + 74565) = 384054 * frameSize + 854341 ∧ hbmPage .m12x4 5 = cPage 1 0x122 := by decide +kernel

/-- The example of R159: its precision word is consistent; with the weight format out of its range it is not. -/
theorem test_precision_word : pwConsistent 0x0000008631200082 = true ∧ pwConsistent 0x0000008631200084 = false := by decide +kernel

/-- The example of R209: the range exponents of a history at delays 1 and 2, and of a maximum of 4.0 with margins 0 and 8. -/
theorem test_range_exponents :
    let e := packed 256 [(136 + 4 * 5, 4, 0x40400000), (136 + 4 * 4, 4, 0x40B00000), (136 + 4 * 3, 4, 0x40000000)]
    rangeExponent e 5 3 1 8 0 = 2 ∧ rangeExponent e 5 3 2 8 0 = 3 ∧
    rangeExponent (packed 256 [(136, 4, 0x40800000)]) 0 1 1 0 0 = 2 ∧ rangeExponent (packed 256 [(136, 4, 0x40800000)]) 0 1 1 8 0 = 3 := by decide +kernel

/-- The example under R57: a tenant of partition 12 reads BLK_STATE of a page that partition 3
owns, in a message of one operation. -/
def probing : State :=
  { wr (wr (there (opened .tenant 12) (galPage 69)) (galPage 69) fASSIGNED 1) (galPage 69) fOWNER 3 with
    msgs := [(6, begunMsg)], pending := [.read (.session 5) 0x214018 ⟨false, true, false, none, 0, 0⟩] }

theorem test_tenant_probes :
    let t := match step probing with | .next t => t | _ => base
    t.pending = [] ∧ (match t.out.head? with | some (.packet _ h o) => decide (h.type = 2 ∧ o = .regResp 5 [(rDENIED, 0)]) | _ => false) = true ∧ rd t (galPage 69) ⟨0x038, 0, 8⟩ = 0x03 ∧
    rd t (galPage 69) fERRVALID = 1 ∧ rd t (galPage 69) ⟨0x038, 8, 7⟩ = 12 + 2 ^ 6 ∧ (rd t (galPage 69) fEVTRAW).testBit 2 = true ∧
    rd t (galPage 69) ⟨0x040, 0, 63⟩ = 0x214018 := by decide +kernel

end Sys2Proof.Tests
end

section
/-! PROOFS of the scope family: what every command keeps (O4), and the state after reset (O3, O6). -/

namespace Sys2Proof.Machine

/-- Every command keeps what Kept lists: the arms of `exec`, each by the lemma about its row. -/
theorem kept_exec {K s : State} (hs : Kept K s) : ∀ (c : Instr) (z : State), exec c s = .next z → Kept K z
  | .read src addr pos => kept_execRead src addr pos s hs
  | .write src addr data pos => kept_execWrite src addr data pos s hs
  | .writeMasked src addr data mask pos => kept_execWriteMasked src addr data mask pos s hs
  | .requestRunning src page => kept_execRequestRunning src page s hs
  | .requestStopped src page => kept_execRequestStopped src page s hs
  | .clearFault src page => kept_execClearFault src page s hs
  | .napEntry src g => kept_execNapEntry src g s hs
  | .sleepEntry src g => kept_execSleepEntry src g s hs
  | .lowPowerExit src g => kept_execLowPowerExit src g s hs
  | .drainComplete run => kept_execDrainComplete run s hs
  | .evtEnWrite src page data => kept_execEvtEnWrite src page data s hs
  | .vecDestWrite src vec data => kept_execVecDestWrite src vec data s hs
  | .coalUsExpiry vec => kept_execCoalUsExpiry vec s hs
  | .reloadStart g b => kept_execReloadStart g b s hs
  | .rowLoadComplete g b row => kept_execRowLoadComplete g b row s hs
  | .rowEntersPass g b row => kept_execRowEntersPass g b row s hs
  | .elementEmit g b check => kept_execElementEmit g b check s hs
  | .passDrained g b check => kept_execPassDrained g b check s hs
  | .bayDrained g b => kept_execBayDrained g b s hs
  | .bayClearFault src g mask => kept_execBayClearFault src g mask s hs
  | .spareMapping die data => kept_execSpareMapping die data s hs
  | .shadowRecompute g q run => kept_execShadowRecompute g q run s hs
  | .stepClose p => kept_execStepClose p s hs
  | .cabinetFillComplete g => kept_execCabinetFillComplete g s hs
  | .napReadPassComplete g => kept_execNapReadPassComplete g s hs
  | .moverElement g run => kept_execMoverElement g run s hs
  | .moverResume src g m => kept_execMoverResume src g m s hs
  | .moverAbort src g m => kept_execMoverAbort src g m s hs
  | .hop g => kept_execHop g s hs
  | .rowRepair stack channel row lastSpare => kept_execRowRepair stack channel row lastSpare s hs
  | .channelRetire src stack channel => kept_execChannelRetire src stack channel s hs
  | .retirementCopyComplete stack => kept_execRetirementCopyComplete stack s hs
  | .escape die network => kept_execEscape die network s hs
  | .linkErrorLimit die link => kept_execLinkErrorLimit die link s hs
  | .nop g q => kept_execNop g q s hs
  | .array g q => kept_execArray g q s hs
  | .transfer g q => kept_execTransfer g q s hs
  | .fadd g q => kept_execFadd g q s hs
  | .fsub g q => kept_execFsub g q s hs
  | .fmul g q => kept_execFmul g q s hs
  | .ffma g q => kept_execFfma g q s hs
  | .fmax g q => kept_execFmax g q s hs
  | .fmin g q => kept_execFmin g q s hs
  | .cmpEq g q => kept_execCmpEq g q s hs
  | .cmpLt g q => kept_execCmpLt g q s hs
  | .cmpLe g q => kept_execCmpLe g q s hs
  | .fsqrt g q => kept_execFsqrt g q s hs
  | .vrecip g q => kept_execVrecip g q s hs
  | .vrsqrt g q => kept_execVrsqrt g q s hs
  | .vexp g q => kept_execVexp g q s hs
  | .vlog g q => kept_execVlog g q s hs
  | .scale g q => kept_execScale g q s hs
  | .copy g q => kept_execCopy g q s hs
  | .sumReduction g q => kept_execSumReduction g q s hs
  | .maxReduction g q => kept_execMaxReduction g q s hs
  | .rmsNorm g q => kept_execRmsNorm g q s hs
  | .layerNorm g q => kept_execLayerNorm g q s hs
  | .dropout g q => kept_execDropout g q s hs
  | .activationFunction g q => kept_execActivationFunction g q s hs
  | .attention g q => kept_execAttention g q s hs
  | .commit g q => kept_execCommit g q s hs
  | .sketch g q => kept_execSketch g q s hs
  | .rotate g q => kept_execRotate g q s hs
  | .fence g q => kept_execFence g q s hs
  | .stepEnd g q => kept_execStepEnd g q s hs
  | .frame g q => kept_execFrame g q s hs
  | .commandCompletion g q run => kept_execCommandCompletion g q run s hs
  | .tailWrite src g q tail => kept_execTailWrite src g q tail s hs
  | .queueResume src g q => kept_execQueueResume src g q s hs
  | .queueFlush src g q => kept_execQueueFlush src g q s hs
  | .create => kept_execCreate s hs
  | .grow => kept_execGrow s hs
  | .shrink => kept_execShrink s hs
  | .start => kept_execStart s hs
  | .stop => kept_execStop s hs
  | .reset => kept_execReset s hs
  | .destroy => kept_execDestroy s hs
  | .admitPart => kept_execAdmitPart s hs
  | .setL1 => kept_execSetL1 s hs
  | .commitBegin p work => kept_execCommitBegin p work s hs
  | .stepBoundary run => kept_execStepBoundary run s hs
  | .doorbell pkt queueId tail => kept_execDoorbell pkt queueId tail s hs
  | .bulkWrite pkt addr msgLen offset payload => kept_execBulkWrite pkt addr msgLen offset payload s hs
  | .bulkRead pkt addr len rtag => kept_execBulkRead pkt addr len rtag s hs
  | .bulkRdata pkt rtag offset payload => kept_execBulkRdata pkt rtag offset payload s hs
  | .status pkt msg code detail => kept_execStatus pkt msg code detail s hs
  | .blocks pkt hdr first nblk payload => kept_execBlocks pkt hdr first nblk payload s hs
  | .combineUp pkt hdr offset payload => kept_execCombineUp pkt hdr offset payload s hs
  | .combineDown pkt hdr offset payload => kept_execCombineDown pkt hdr offset payload s hs
  | .credit pkt hdr slot => kept_execCredit pkt hdr slot s hs
  | .mcastSeg pkt group offset payload => kept_execMcastSeg pkt group offset payload s hs
  | .publish pkt offset => kept_execPublish pkt offset s hs
  | .detach pkt offset => kept_execDetach pkt offset s hs
  | .join pkt offset => kept_execJoin pkt offset s hs
  | .accept pkt offset => kept_execAccept pkt offset s hs
  | .refuse pkt offset => kept_execRefuse pkt offset s hs
  | .scInit port init => kept_execScInit port init s hs
  | .scAccept session acc => kept_execScAccept session acc s hs
  | .scConfirm pkt signature => kept_execScConfirm pkt signature s hs
  | .scClose pkt cause => kept_execScClose pkt cause s hs
  | .scConfirmTimeout session => kept_execScConfirmTimeout session s hs
  | .ack pkt => kept_execAck pkt s hs
  | .ackTimer session => kept_execAckTimer session s hs
  | .retransmissionTimeout session => kept_execRetransmissionTimeout session s hs
  | .idleTimeout session => kept_execIdleTimeout session s hs
  | .keepalive session => kept_execKeepalive session s hs
  | .nonZazelFrame port frame => kept_execNonZazelFrame port frame s hs
  | .linkUp port speed => kept_execLinkUp port speed s hs
  | .linkDown port => kept_execLinkDown port s hs
  | .laneSparing port lane => kept_execLaneSparing port lane s hs
  | .lldpTransmit port => kept_execLldpTransmit port s hs
  | .lldpduReceive port lldpdu => kept_execLldpduReceive port lldpdu s hs
  | .ptpEventMessage port sent correction => kept_execPtpEventMessage port sent correction s hs
  | .transportContextStopped p => kept_execTransportContextStopped p s hs
  | .childDetach xdie group child => kept_execChildDetach xdie group child s hs
  | .joinTimer xdie group => kept_execJoinTimer xdie group s hs
  | .egressFrame port frame => kept_execEgressFrame port frame s hs
  | .eglLock src xdie => kept_execEglLock src xdie s hs
  | .ringOpen src ring => kept_execRingOpen src ring s hs
  | .ringLoopbackVerified ring => kept_execRingLoopbackVerified ring s hs
  | .ringSwitchSettled ring => kept_execRingSwitchSettled ring s hs
  | .ringNeighboursTrained ring => kept_execRingNeighboursTrained ring s hs
  | .ringTrainTimeout ring => kept_execRingTrainTimeout ring s hs
  | .ringClose src ring => kept_execRingClose src ring s hs
  | .reductionFire xdie p run => kept_execReductionFire xdie p run s hs
  | .pointCompute xdie p rid point owner run => kept_execPointCompute xdie p rid point owner run s hs
  | .combineEntry run => kept_execCombineEntry run s hs
  | .channelArrival xdie p ch => kept_execChannelArrival xdie p ch s hs
  | .channelRelease xdie p ch => kept_execChannelRelease xdie p ch s hs
  | .vaultImageStream p => kept_execVaultImageStream p s hs
  | .halfSealed p => kept_execHalfSealed p s hs
  | .flashImage p => kept_execFlashImage p s hs
  | .flashImageDone p => kept_execFlashImageDone p s hs
  | .storeCopy p => kept_execStoreCopy p s hs
  | .hold src p value => kept_execHold src p value s hs
  | .restart p => kept_execRestart p s hs
  | .finish p => kept_execFinish p s hs
  | .restore p => kept_execRestore p s hs
  | .replay p => kept_execReplay p s hs
  | .repoint p => kept_execRepoint p s hs
  | .flashNow p => kept_execFlashNow p s hs
  | .storeNow p => kept_execStoreNow p s hs
  | .cvStart src xdie u => kept_execCvStart src xdie u s hs
  | .cvAbort src xdie u => kept_execCvAbort src xdie u s hs
  | .cvRunComplete xdie u => kept_execCvRunComplete xdie u s hs
  | .scanStart src xdie => kept_execScanStart src xdie s hs
  | .scanAbort src xdie => kept_execScanAbort src xdie s hs
  | .scanComplete xdie => kept_execScanComplete xdie s hs
  | .patrolScrub stack => kept_execPatrolScrub stack s hs
  | .cabinetScrub g bank => kept_execCabinetScrub g bank s hs
  | .watchdogExpiry core => kept_execWatchdogExpiry core s hs
  | .watchdogKick core => kept_execWatchdogKick core s hs
  | .takeover => kept_execTakeover s hs
  | .pwrEnRise => kept_execPwrEnRise s hs
  | .railPowerGood rail => kept_execRailPowerGood rail s hs
  | .pwrEnFall => kept_execPwrEnFall s hs
  | .vinOutOfRange => kept_execVinOutOfRange s hs
  | .railFault rail => kept_execRailFault rail s hs
  | .powerStageFault rail => kept_execPowerStageFault rail s hs
  | .railWarningEntry die mv => kept_execRailWarningEntry die mv s hs
  | .railWarningExit die mv => kept_execRailWarningExit die mv s hs
  | .vcoreResetLevel die => kept_execVcoreResetLevel die s hs
  | .thermalDutyUpdate die temp => kept_execThermalDutyUpdate die temp s hs
  | .thermalTrip die => kept_execThermalTrip die s hs
  | .hbmThermalThrottle stack temp => kept_execHbmThermalThrottle stack temp s hs
  | .resetNAssert lowNs => kept_execResetNAssert lowNs s hs
  | .mResetRelease => kept_execMResetRelease s hs
  | .mRequest => kept_execMRequest s hs
  | .gRequest => kept_execGRequest s hs
  | .lRequest => kept_execLRequest s hs
  | .idleRequest src value => kept_execIdleRequest src value s hs
  | .selfRefreshEntry stack => kept_execSelfRefreshEntry stack s hs
  | .rmonPeakClear src die => kept_execRmonPeakClear src die s hs
  | .romSelfTestComplete core pass => kept_execRomSelfTestComplete core pass s hs
  | .imageLoaded core => kept_execImageLoaded core s hs
  | .flashGrantTimeout => kept_execFlashGrantTimeout s hs
  | .rcvData offset bytes => kept_execRcvData offset bytes s hs
  | .recoveryRetryTimer => kept_execRecoveryRetryTimer s hs
  | .recoveryRoleTimeout => kept_execRecoveryRoleTimeout s hs
  | .standbySynced => kept_execStandbySynced s hs
  | .quietPoint => kept_execQuietPoint s hs
  | .updateQuietTimeout => kept_execUpdateQuietTimeout s hs
  | .authSet session k => kept_execAuthSet session k s hs
  | .authDel session k => kept_execAuthDel session k s hs
  | .sessOpen session k => kept_execSessOpen session k s hs
  | .sessClose session k => kept_execSessClose session k s hs
  | .vecSet session k => kept_execVecSet session k s hs
  | .mcastSet session k => kept_execMcastSet session k s hs
  | .mcastDel session k => kept_execMcastDel session k s hs
  | .curwrite session k => kept_execCurwrite session k s hs
  | .mailboxReset session k => kept_execMailboxReset session k s hs
  | .update session k => kept_execUpdate session k s hs
  | .attest session k => kept_execAttest session k s hs
  | .svnAdvance session k => kept_execSvnAdvance session k s hs
  | .keyRevoke session k => kept_execKeyRevoke session k s hs
  | .counterOverflow page counter weight => kept_execCounterOverflow page counter weight s hs
  | .ldgGrantWrite src data => kept_execLdgGrantWrite src data s hs
  | .streamEnable src j => kept_execStreamEnable src j s hs
  | .dumpSample j => kept_execDumpSample j s hs
  | .provenanceRecord op => kept_execProvenanceRecord op s hs
  | .watchArm src g w => kept_execWatchArm src g w s hs
  | .obsUnlockNew src => kept_execObsUnlockNew src s hs
  | .obsUnlockCheck src => kept_execObsUnlockCheck src s hs
  | .obsUnlockLock src => kept_execObsUnlockLock src s hs
  | .trigIn => kept_execTrigIn s hs
  | .trigPostStop => kept_execTrigPostStop s hs
  | .outNow src => kept_execOutNow src s hs
  | .trigOutPulseEnd => kept_execTrigOutPulseEnd s hs
  | .trigRestart src => kept_execTrigRestart src s hs
  | .extest => kept_execExtest s hs
  | .samplePreload cells => kept_execSamplePreload cells s hs
  | .idcode => kept_execIdcode s hs
  | .bypass => kept_execBypass s hs
  | .resetNDeassert => kept_execResetNDeassert s hs
  | .vinInRange => kept_execVinInRange s hs
  | .observationFrame pin => kept_execObservationFrame pin s hs
  | .trstNAssert => kept_execTrstNAssert s hs

/-- A register that the register file does not list reads its Reset value (R17). -/
theorem regGet_of_unlisted {s : State} {a : Nat} (h : tfind s.regs a = none) : regGet s a = resetOf s.code s.fuses a := by
  simp only [regGet, h]

/-- Writing 0 into a field of an empty word leaves it empty. -/
@[simp] theorem setBits_zero_zero (lo w : Nat) : setBits 0 lo w 0 = 0 := by simp [setBits, bits]

/-- Every page has BLK_STATE in its header, and each of its fields is 0 after reset (R49). -/
theorem regFields_blkState (i : PageInfo) : ∃ fs, regFields i fSTATE.off = some fs ∧ resetWord fs = 0 :=
  ⟨_, rfl, by simp [resetWord, fRO]⟩

/-- The Reset value of BLK_STATE is 0 on every page, one that the ordering code lacks included (R49). -/
theorem resetOf_blkState (code : OrderCode) (fu : Fuses) (pg : Nat) : resetOf code fu (pg * 4096 + fSTATE.off) = 0 := by
  have hpage : (pg * 4096 + fSTATE.off) / 4096 = pg := by simp only [fSTATE]; omega
  have hoff : (pg * 4096 + fSTATE.off) % 4096 = fSTATE.off := by simp only [fSTATE]; omega
  have hplain : fSTATE.off ≠ 0x100 ∧ fSTATE.off ≠ 0x120 := by decide
  rw [resetOf, hpage, hoff]
  cases pageInfo code pg with
  | none => rfl
  | some i =>
    obtain ⟨fs, hfs, hzero⟩ := regFields_blkState i
    simp [hfs, hzero, hplain]

/-- A page whose BLK_STATE the register file does not list is STOPPED (R49). -/
theorem blkState_of_unlisted {s : State} {pg : Nat} (h : tfind s.regs (pg * 4096 + fSTATE.off) = none) : blkState s pg = stStopped := by
  rw [blkState, rd, regGet_of_unlisted h, resetOf_blkState]
  rfl

/-- Settles O4: the order code, the stepping, the sparing fuses and the queue are among what every command keeps. -/
theorem commandsKeepIdentity : Obligations.CommandsKeepIdentity := by
  intro c s t ht
  have hkept : Kept s t := kept_exec (.refl s) c t ht
  exact ⟨hkept.code, hkept.stepping, hkept.fuse.spare, hkept.pending⟩

/-- Settles O3: memory and the register file list nothing after reset, and every gallery is idle. -/
theorem resetIsCanonical : Obligations.ResetIsCanonical := by
  refine ⟨?memory, ?registers, ?galleries⟩
  case memory => rfl
  case registers => rfl
  case galleries => exact fun _ => galShaped_idle _

/-- Settles O6: the register file lists nothing after reset, so that every register reads its Reset value, BLK_STATE of every page
among them. -/
theorem resetLeavesResetValues : Obligations.ResetLeavesResetValues := by
  have hunlisted : ∀ a, tfind State.reset.regs a = none := fun _ => rfl
  refine ⟨fun a => regGet_of_unlisted (hunlisted a), fun pg _ => blkState_of_unlisted (hunlisted _), ?nothingWaits⟩
  case nothingWaits => exact ⟨rfl, rfl, rfl, rfl, ⟨rfl, rfl⟩, rfl⟩

end Sys2Proof.Machine
end

section
/-! PROOFS of the census family: COMMAND_COMPLETION completes a begun command that has ended (O18). -/

namespace Sys2Proof.Machine

/-- A block of a powered module out of reset acts (R471, R487). -/
theorem alive_of_live {s : State} (hlive : Claims.Live s) (f : State → State) : alive s f = f s := if_pos hlive

theorem exec_commandCompletion_of_live {s : State} (hlive : Claims.Live s) (g : Fin 256) (q : Fin 4) (run : CmdRun) :
    exec (.commandCompletion g q run) s = .next (commandCompletion s g.val q.val run) :=
  congrArg Host.Outcome.next (alive_of_live hlive _)

theorem completeBegun_of_ended {s : State} {g q index st d : Nat} {c : Begun} (hfind : begunFind s g q index = some c)
    (hended : c.phase = .ended st d) : completeBegun s g q index = completeCmd s g q index st c.attempts d c.bytes true := by
  simp only [completeBegun, hfind, hended]

/-- Where no record's arithmetic fails its check (R443), the update of the census is R203's alone. -/
theorem checkedCensus_none (s : State) (g : Nat) (c : Begun) : checkedCensus s g c none = arrayCensus s g c := rfl

theorem closeArray_of_counted {s : State} {g : Nat} {c : Begun} (hcounted : (arrayCensus s g c).2 = none) :
    closeArray s g c none = completeBegun (arrayCensus s g c).1 g c.queue c.index := by
  rcases hcensus : arrayCensus s g c with ⟨u, o⟩
  rw [hcensus] at hcounted
  subst hcounted
  simp only [closeArray, checkedCensus_none, hcensus]

/-- The record that cannot be read stands as an error of the census page, and the command has failed (R208). -/
theorem closeArray_of_unreadable {s : State} {g va : Nat} {c : Begun} {e : AccErr} (hfailed : (arrayCensus s g c).2 = some (va, e)) :
    closeArray s g c none = completeBegun
      (begunPut (recordAccess (arrayCensus s g c).1 (cenPage g) (pageOwner (arrayCensus s g c).1 (cenPage g)) va e) g
        { c with phase := .ended cFDATA 0 }) g c.queue c.index := by
  rcases hcensus : arrayCensus s g c with ⟨u, o⟩
  rw [hcensus] at hfailed
  subst hfailed
  simp only [closeArray, checkedCensus_none, hcensus]

theorem commandCompletion_of_absent {s : State} {g q : Nat} {run : CmdRun} (hfind : begunFind s g q run.index.toNat = none) :
    commandCompletion s g q run = s := by
  simp only [commandCompletion, hfind]

section
variable {s : State} {g q : Nat} {run : CmdRun} {c : Begun}

theorem commandCompletion_of_waiting (hfind : begunFind s g q run.index.toNat = some c) (hwaits : c.phase = .waiting) :
    commandCompletion s g q run = s := by
  simp only [commandCompletion, hfind, hwaits]

/-- An ARRAY that ended DONE goes to the census before it completes (R203). -/
theorem commandCompletion_of_arrayDone {d : Nat} (hfind : begunFind s g q run.index.toNat = some c) (hended : c.phase = .ended 0 d)
    (harray : cmdOp c.bytes = 1) : commandCompletion s g q run = closeArray s g c run.fails := by
  simp only [commandCompletion, hfind, hended, harray, if_true]

/-- Every other end, a failed ARRAY's among them, completes at once (R316). -/
theorem commandCompletion_of_ended {st d : Nat} (hfind : begunFind s g q run.index.toNat = some c) (hended : c.phase = .ended st d)
    (hother : ¬ (st = 0 ∧ cmdOp c.bytes = 1)) :
    commandCompletion s g q run = completeCmd s g q run.index.toNat st c.attempts d c.bytes true := by
  rw [← completeBegun_of_ended hfind hended]
  cases st with
  | zero =>
    have hop : cmdOp c.bytes ≠ 1 := fun h => hother ⟨rfl, h⟩
    simp only [commandCompletion, hfind, hended, hop, if_false]
  | succ n => simp only [commandCompletion, hfind, hended]

/-- On a control page that runs, the vector unit goes on with a running VECTOR, ATTENTION or SKETCH, which completes if that ends it
(R275, R572). -/
theorem commandCompletion_of_running (hfind : begunFind s g q run.index.toNat = some c) (hphase : c.phase = .running)
    (hpage : running s (galPage g) = true) :
    (cmdOp c.bytes = 3 → commandCompletion s g q run = completeBegun (runVector s g c run.fails) g q run.index.toNat) ∧
    (cmdOp c.bytes = 4 → commandCompletion s g q run = completeBegun (runAttention s g c run.check run.fails) g q run.index.toNat) ∧
    (cmdOp c.bytes = 6 → commandCompletion s g q run = completeBegun (runSketch s g c run.fails) g q run.index.toNat) := by
  have hacts : ¬ (running s (galPage g) = false ∧ blkState s (galPage g) ≠ stStopping) := by simp [hpage]
  refine ⟨fun hvector => ?_, fun hattention => ?_, fun hsketch => ?_⟩
  · simp only [commandCompletion, hfind, hphase, if_neg hacts, hvector]
  · simp only [commandCompletion, hfind, hphase, if_neg hacts, hattention]
  · simp only [commandCompletion, hfind, hphase, if_neg hacts, hsketch]

end

/-- Settles O18: one equation of `commandCompletion` for each phase of the command, the census update apart. -/
theorem begunCommandsComplete : Obligations.BegunCommandsComplete := by
  intro s g q run hlive
  simp only [exec_commandCompletion_of_live hlive, Host.Outcome.next.injEq]
  refine ⟨commandCompletion_of_absent, fun c hfind => ⟨?waiting, ?ended, ?arrayDone, ?running⟩⟩
  case waiting => exact commandCompletion_of_waiting hfind
  case ended => exact fun st d => commandCompletion_of_ended hfind
  case arrayDone =>
    intro d hended harray hfails
    rw [commandCompletion_of_arrayDone hfind hended harray, hfails]
    exact ⟨closeArray_of_counted, fun va e => closeArray_of_unreadable⟩
  case running => exact commandCompletion_of_running hfind

end Sys2Proof.Machine
end

section
/-! PROOFS of the vector family: what the Ledger's counters may change besides registers (R74, R522), the results of a VECTOR command
in a scratch caddy (O19), and the special operands of the functions (O20). -/

namespace Sys2Proof.Machine

/-- Sessions and ports differ only by what sending a packet moves: the numbers of a session, and what waits at a port (R340, R350). -/
def SendsOnly (s t : State) : Prop :=
  (∀ i, (sessGet t i).map Claims.unsent = (sessGet s i).map Claims.unsent) ∧
  ∀ x p, { portGet t x p with waiting := [] } = { portGet s x p with waiting := [] }

theorem SendsOnly.of_same {s t : State} (hsess : t.sess = s.sess) (hports : t.ports = s.ports) : SendsOnly s t :=
  ⟨fun i => by simp only [sessGet, hsess], fun x p => by simp only [portGet, hports]⟩

theorem SendsOnly.refl (s : State) : SendsOnly s s := .of_same rfl rfl

theorem SendsOnly.trans {s t u : State} (hst : SendsOnly s t) (htu : SendsOnly t u) : SendsOnly s u :=
  ⟨fun i => (htu.1 i).trans (hst.1 i), fun x p => (htu.2 x p).trans (hst.2 x p)⟩

theorem sendsOnly_regPut (s : State) (a v : Nat) : SendsOnly s (regPut s a v) := .of_same rfl rfl

theorem sendsOnly_markEvent (s : State) (pg b : Nat) (zero : Bool) : SendsOnly s (markEvent s pg b zero) := .of_same rfl rfl

theorem sendsOnly_sessPut {s : State} {i : Nat} {x y : Sess} (hx : sessGet s i = some x) (hy : Claims.unsent y = Claims.unsent x) :
    SendsOnly s (sessPut s i y) := by
  refine ⟨fun j => ?_, fun _ _ => rfl⟩
  by_cases hj : j = i
  · rw [hj, sessGet_sessPut_same, hx, Option.map_some, Option.map_some, hy]
  · rw [sessGet_sessPut_ne s y hj]

theorem sendsOnly_portQueue (s : State) (x p : Nat) (f : QFrame) : SendsOnly s (portQueue s x p f) := by
  refine ⟨fun _ => rfl, fun x' p' => ?_⟩
  by_cases hport : 8 * x' + p' = 8 * x + p
  · simp only [portQueue, portPut, portGet, hport, tget_tput_same]
  · simp only [portQueue, portPut, portGet, tget_tput_ne _ _ _ hport]

/-- A packet given to the port of a session in use moves that session's numbers and joins the port's queue. -/
theorem sendsOnly_transmit {s : State} {i : Nat} {x : Sess} (hx : sessGet s i = some x) (o : Out) (seq msg : Word32) (ends : Bool × Bool)
    (retx : Bool) : SendsOnly s (transmit s i x o seq msg ends retx) := by
  unfold transmit
  extract_lets h bytes s1 s2
  have hnumbers : SendsOnly s s1 := sendsOnly_sessPut hx rfl
  have hqueue : SendsOnly s1 s2 := by
    simp only [s2]
    split
    · exact sendsOnly_portQueue _ _ _ _
    · exact .refl _
  exact (hnumbers.trans hqueue).trans (.of_same rfl rfl)

section
variable {count : State → Nat → State}

theorem sendsOnly_vecSend (hcount : ∀ t x, SendsOnly t (count t x)) (s : State) (v : Nat) (m : Out) : SendsOnly s (vecSend count s v m) := by
  unfold vecSend
  dsimp only
  split
  · exact .of_same rfl rfl
  · split
    · next hx => exact (sendsOnly_transmit hx _ _ _ _ _).trans (hcount _ _)
    · exact .refl s

theorem sendsOnly_vecTryBy (hcount : ∀ t x, SendsOnly t (count t x)) (s : State) (v : Nat) : SendsOnly s (vecTryBy count s v) := by
  unfold vecTryBy vecDeliverBy
  dsimp only
  repeat' split
  · exact .refl s
  · exact (sendsOnly_regPut _ _ _).trans (sendsOnly_vecSend hcount _ _ _)
  · exact .refl s
  · exact sendsOnly_regPut _ _ _
  · exact .refl s

theorem sendsOnly_vecRaiseBy (hcount : ∀ t x, SendsOnly t (count t x)) (s : State) (v pg : Nat) : SendsOnly s (vecRaiseBy count s v pg) := by
  unfold vecRaiseBy
  dsimp only
  split
  · exact SendsOnly.trans (.of_same rfl rfl) (sendsOnly_vecTryBy hcount _ v)
  · exact sendsOnly_regPut _ _ _

theorem sendsOnly_raiseOnBy (hcount : ∀ t x, SendsOnly t (count t x)) (s : State) (pg b v : Nat) :
    SendsOnly s (raiseOnBy count s pg b v) := by
  unfold raiseOnBy
  split
  · exact (sendsOnly_markEvent _ _ _ _).trans (sendsOnly_vecRaiseBy hcount _ _ _)
  · exact sendsOnly_markEvent _ _ _ _

end

theorem sendsOnly_tallyBy {after : State → State} (hafter : ∀ t, SendsOnly t (after t)) (s : State) (pg i w : Nat) :
    SendsOnly s (tallyBy after s pg i w) := by
  unfold tallyBy
  dsimp only
  split
  · exact sendsOnly_regPut _ _ _
  · exact (sendsOnly_regPut _ _ _).trans (hafter _)

theorem sendsOnly_countEventOnce (s : State) (x : Nat) : SendsOnly s (countEventOnce s x) := sendsOnly_tallyBy SendsOnly.refl _ _ _ _

theorem sendsOnly_countEvent (s : State) (x : Nat) : SendsOnly s (countEvent s x) :=
  sendsOnly_tallyBy (fun _ => sendsOnly_raiseOnBy sendsOnly_countEventOnce _ _ _ _) _ _ _ _

/-- A Ledger counter raised sends no more than the event of its wrap (R74, R522). -/
theorem sendsOnly_tally (s : State) (pg i w : Nat) : SendsOnly s (tally s pg i w) :=
  sendsOnly_tallyBy (fun _ => sendsOnly_raiseOnBy sendsOnly_countEvent _ _ _ _) _ _ _ _

theorem eventOnly_countVector (s : State) (pg : Nat) (b : List Byte) (n : Nat) : EventOnly s (countVector s pg b n) :=
  (((eventOnly_tally _ _ _ _).trans (eventOnly_tally _ _ _ _)).trans (eventOnly_tally _ _ _ _)).trans (eventOnly_tally _ _ _ _)

theorem sendsOnly_countVector (s : State) (pg : Nat) (b : List Byte) (n : Nat) : SendsOnly s (countVector s pg b n) :=
  (((sendsOnly_tally _ _ _ _).trans (sendsOnly_tally _ _ _ _)).trans (sendsOnly_tally _ _ _ _)).trans (sendsOnly_tally _ _ _ _)

/-- The Ledger's counts of a VECTOR command change registers, and what the event of a wrap changes (R528). -/
theorem onlyRegs_countVector (s : State) (pg : Nat) (b : List Byte) (n : Nat) : Claims.OnlyRegs s (countVector s pg b n) :=
  ⟨eventOnly_countVector s pg b n, sendsOnly_countVector s pg b n⟩

@[simp] theorem countVector_gals (s : State) (pg : Nat) (b : List Byte) (n : Nat) : (countVector s pg b n).gals = s.gals := by
  simp only [countVector, tally_gals]

@[simp] theorem touchStack_gals (s : State) (a : Nat) : (touchStack s a).gals = s.gals := by
  unfold touchStack
  split <;> rfl

@[simp] theorem healGranule_gals (s : State) (a : Nat) : (healGranule s a).gals = s.gals := by
  unfold healGranule
  split <;> rfl

theorem foldl_memPut_gals (l : List Nat) (f : Nat → Nat) (h : Nat → Byte) (s : State) :
    (l.foldl (fun t i => memPut t (f i) (h i)) s).gals = s.gals := by
  induction l generalizing s with
  | nil => rfl
  | cons i r ih => exact ih _

theorem storeGranule_gals {s t : State} {a : Nat} {bs : List Byte} (ht : storeGranule s a bs = some t) : t.gals = s.gals := by
  unfold storeGranule at ht
  dsimp only at ht
  split at ht
  · cases ht
  · split at ht
    · cases ht
      exact foldl_memPut_gals _ _ _ _
    · split at ht
      · cases ht
      · cases ht
        rw [foldl_memPut_gals]
        split
        · rfl
        · exact healGranule_gals _ _

theorem storeFrom_gals (fuel : Nat) (s : State) (a : Nat) (bs : List Byte) : (storeFrom s fuel a bs).1.gals = s.gals := by
  induction fuel generalizing s a bs with
  | zero => rfl
  | succ n ih =>
    unfold storeFrom
    split
    · rfl
    · dsimp only
      split
      · rfl
      · next ht => exact (ih _ _ _).trans (storeGranule_gals ht)

/-- A store to memory leaves every gallery as it was. -/
@[simp] theorem store_gals (s : State) (a : Nat) (bs : List Byte) : (store s a bs).1.gals = s.gals :=
  (storeFrom_gals _ _ _ _).trans (touchStack_gals s a)

theorem begunFind_congr {s t : State} (hgals : t.gals = s.gals) (g q index : Nat) : begunFind t g q index = begunFind s g q index := by
  simp only [begunFind, galGet, hgals]

@[simp] theorem begunPut_mem (s : State) (g : Nat) (c : Begun) : (begunPut s g c).mem = s.mem := rfl

/-- A begun command that is there is found as it was put. -/
theorem begunFind_begunPut {s : State} {g : Nat} {c d : Begun} (hd : begunFind s g c.queue c.index = some d) :
    begunFind (begunPut s g c) g c.queue c.index = some c := by
  have hkeys : ((fun e : Begun => e.queue == c.queue && e.index == c.index) ∘
      fun e => if e.queue == c.queue && e.index == c.index then c else e) = fun e => e.queue == c.queue && e.index == c.index := by
    funext e
    by_cases he : (e.queue == c.queue && e.index == c.index) = true
    · simp only [Function.comp_apply, he, if_true, beq_self_eq_true, Bool.and_self]
    · simp only [Function.comp_apply, if_neg he]
  have hmatch := List.find?_some hd
  simp only [begunFind] at hd
  simp only [begunFind, begunPut, galGet_galPut_same, List.find?_map, hkeys, hd, Option.map_some, if_pos hmatch]

theorem endBegun_of_running {s : State} {g q index st d : Nat} {c : Begun} (hfind : begunFind s g q index = some c)
    (hphase : c.phase = .running) : endBegun s g q index st d = begunPut s g { c with phase := .ended st d } := by
  simp only [endBegun, hfind, hphase]

theorem setInput_inputBuf (c : Begun) (i : Nat) : setInput c i (inputBuf c i) = c := by
  match i with
  | 0 => rfl
  | 1 => rfl
  | _ + 2 => rfl

/-- An input that is held in full takes nothing from its caddy. -/
theorem fillInput_of_held {b : List Byte} {i : Nat} {buf : List Nat} (hheld : vwant b i ≤ buf.length) (s : State) (g : Nat)
    (kept : List (Nat × Nat)) : fillInput s g b i buf kept = ⟨s, buf, kept, none⟩ := if_pos hheld

/-- A command whose inputs are held in full takes nothing from its caddies. -/
theorem fillInputs_of_held {c : Begun} {is : List Nat}
    (hheld : ∀ i ∈ is, vwant c.bytes i ≤ (inputBuf c i).length ∧ twin c.bytes i = none) (s : State) (g : Nat) :
    fillInputs s g c is = (s, c, none) := by
  induction is with
  | nil => rfl
  | cons i r ih =>
    obtain ⟨hfull, hown⟩ := hheld i List.mem_cons_self
    simp only [fillInputs, hown, fillInput_of_held hfull, setInput_inputBuf]
    exact ih fun j hj => hheld j (List.mem_cons_of_mem i hj)

/-- The FP32 results of a VECTOR command from the elements it holds (R572). -/
def heldResults (s : State) (g : Nat) (c : Begun) : List Nat :=
  (vectorResults (keyFor s g) c.bytes ((inputBuf c 0).map (vload32 (vfmt c.bytes 0))) ((inputBuf c 1).map (vload32 (vfmt c.bytes 1)))
    ((inputBuf c 2).map (vload32 (vfmt c.bytes 2)))).map (vstore32 0)

/-- The state once those results, counted, have been stored from the base of the output caddy on (R231). -/
def resultsStored (s : State) (g : Nat) (c : Begun) : State :=
  let u := countVector s (galPage g) c.bytes (heldResults s g c).length
  (store u (cabAddr u (galPage g) (caddyBase (caddyWord s (movPage g) (vout c.bytes)))) ((heldResults s g c).flatMap (leBytes 4))).1

theorem resultsStored_gals (s : State) (g : Nat) (c : Begun) : (resultsStored s g c).gals = s.gals := by
  simp only [resultsStored, store_gals, countVector_gals]

/-- A begun VECTOR command in its turn, its inputs held in full, its output an FP32 scratch caddy: the results are stored and the
command ends (R231, R572). -/
theorem runVector_of_held_scratch {s : State} {g : Nat} {c : Begun} (hturn : vectorTurn s g c = true) (hhops : c.hops = 0)
    (hloaded : c.loaded ≠ 0) (hkept : c.kept = [])
    (hheld : ∀ i ∈ vinputs c.bytes, vwant c.bytes i ≤ (inputBuf c i).length ∧ twin c.bytes i = none) (hformat : vofmt c.bytes = 0)
    (hscratch : caddyRole (caddyWord s (movPage g) (vout c.bytes)) = 6) :
    runVector s g c none = endBegun (begunPut (resultsStored s g c) g { c with hops := 1 }) g c.queue c.index cDONE 0 := by
  have hready : ((vinputs c.bytes).any fun i => decide ((inputBuf c i).length < vwant c.bytes i)) ≠ true := by
    simp only [ne_eq, List.any_eq_true, decide_eq_true_eq, not_exists, not_and, Nat.not_lt]
    exact fun i hi => (hheld i hi).1
  have hbegun : vectorBegins s g c = (s, c) := if_neg hloaded
  simp only [runVector, hturn, Bool.true_eq_false, if_false, hbegun, hhops, if_true, fillInputs_of_held hheld, hready, hformat, hkept,
    freeKept, List.foldl_nil, Option.filter_none, hscratch]
  rfl

/-- Settles O19: the run stores the results and ends the command, and neither the counts of the Ledger nor the store touch the gallery's
begun commands. -/
theorem vectorResultsReachScratch : Obligations.VectorResultsReachScratch := by
  intro s g c t u out hturn hhops hloaded hkept hfind hphase hheld hformat hscratch ht hout hu
  have hrun := runVector_of_held_scratch hturn hhops hloaded hkept hheld hformat hscratch
  have hthere : begunFind (resultsStored s g.val c) g.val c.queue c.index = some c :=
    (begunFind_congr (resultsStored_gals s g.val c) _ _ _).trans hfind
  have hput := begunFind_begunPut (c := { c with hops := 1 }) hthere
  rw [endBegun_of_running hput hphase] at hrun
  subst hout hu
  rw [ht, hrun]
  refine ⟨⟨_, begunFind_begunPut (c := { c with hops := 1, phase := .ended cDONE 0 }) hput, rfl⟩, ?stored, onlyRegs_countVector _ _ _ _⟩
  case stored =>
    rw [begunPut_mem, begunPut_mem]
    rfl

/-- The canonical NaN of FP32 (R82). -/
theorem nan32_eq : nan32 = 0x7FC00000 := by decide

theorem isNan_iff {w : Nat} : isNan w = true ↔ val32 w = .nan := by simp only [isNan, beq_iff_eq]

section
variable {w : Nat}

theorem fmax_of_nan {a b : Nat} (h : (isNan a || isNan b) = true) : fmax a b = nan32 := if_pos h
theorem fmin_of_nan {a b : Nat} (h : (isNan a || isNan b) = true) : fmin a b = nan32 := if_pos h

@[simp] theorem vlt_nan_left (v : Val) : vlt .nan v = false := rfl
@[simp] theorem vlt_nan_right (v : Val) : vlt v .nan = false := by cases v <;> rfl
@[simp] theorem veq_nan_left (v : Val) : veq .nan v = false := rfl

theorem vrecip_of_nan (h : val32 w = .nan) : vrecip w = nan32 := by simp only [vrecip, h]
theorem vrsqrt_of_nan (h : val32 w = .nan) : vrsqrt w = nan32 := by simp only [vrsqrt, h]
theorem vexp_of_nan (h : val32 w = .nan) : vexp w = nan32 := by simp only [vexp, h]
theorem vlog_of_nan (h : val32 w = .nan) : vlog w = nan32 := by simp only [vlog, h]

/-- An encoding of exponent field 0 is its fraction in units of 2^-149 (R80). -/
theorem val32_of_exponent_zero (h : bits w 23 8 = 0) : val32 w = .fin (bit w 31) (bits w 0 23) (-149) := by
  simp [val32, unpack, fp32, Fmt.bias, h]

/-- 1/x for 0 < |x| ≤ 2^-128 overflows to the infinity of its sign (R270). -/
theorem vrecip_of_tiny (hexp : bits w 23 8 = 0) (hpos : bits w 0 23 ≠ 0) (hle : bits w 0 23 ≤ 2 ^ 21) :
    vrecip w = (if isNeg w then fp32.signBit else 0) + inf32 := by
  simp only [vrecip, val32_of_exponent_zero hexp, if_neg hpos, if_pos (And.intro hle hexp)]

theorem isNeg_iff (h : w < 2 ^ 32) : isNeg w = true ↔ 2 ^ 31 ≤ w := by
  simp only [isNeg, bit, Nat.testBit_eq_decide_div_mod_eq, decide_eq_true_eq]
  omega

/-- An encoding above that of -0 is a NaN, or a negative number or infinity (R80). -/
theorem val32_of_above_negative_zero (hlo : 0x80000000 < w) (hhi : w < 2 ^ 32) :
    val32 w = .nan ∨ val32 w = .inf true ∨ ∃ m e, m ≠ 0 ∧ val32 w = .fin true m e := by
  have hneg : bit w 31 = true := (isNeg_iff hhi).2 (Nat.le_of_lt hlo)
  have hfraction : bits w 23 8 = 0 → bits w 0 23 ≠ 0 := by
    simp only [bits, Nat.shiftRight_eq_div_pow]
    omega
  unfold val32 unpack
  simp only [fp32, hneg]
  split
  · split
    · exact .inr (.inl rfl)
    · exact .inl rfl
  · split
    · next hzero => exact .inr (.inr ⟨_, _, hfraction hzero, rfl⟩)
    · exact .inr (.inr ⟨_, _, Nat.ne_of_gt (Nat.add_pos_left (Nat.two_pow_pos 23) _), rfl⟩)

/-- The square root of a negative operand is no number (R270). -/
theorem vrsqrt_of_above_negative_zero (hlo : 0x80000000 < w) (hhi : w < 2 ^ 32) : vrsqrt w = nan32 := by
  rcases val32_of_above_negative_zero hlo hhi with h | h | ⟨m, e, hm, h⟩
  · exact vrsqrt_of_nan h
  · simp only [vrsqrt, h, if_true]
  · simp only [vrsqrt, h, if_neg hm, if_true]

/-- The logarithm of a negative operand is no number (R270). -/
theorem vlog_of_above_negative_zero (hlo : 0x80000000 < w) (hhi : w < 2 ^ 32) : vlog w = nan32 := by
  rcases val32_of_above_negative_zero hlo hhi with h | h | ⟨m, e, hm, h⟩
  · exact vlog_of_nan h
  · simp only [vlog, h, if_true]
  · simp only [vlog, h, if_neg hm, if_true]

end

/-- Both signs of an operand of magnitude at most 2^-128. -/
theorem vrecip_of_tiny_signs {w : Nat} (hpos : 0 < w) (hle : w ≤ 2 ^ 21) :
    vrecip w = 0x7F800000 ∧ vrecip (w + 2 ^ 31) = 0xFF800000 := by
  have hfields : ∀ v, v = w ∨ v = w + 2 ^ 31 → bits v 23 8 = 0 ∧ bits v 0 23 = w := by
    intro v hv
    simp only [bits, Nat.shiftRight_eq_div_pow]
    omega
  have hplus : ¬ isNeg w = true := by
    rw [isNeg_iff (by omega)]
    omega
  have hminus : isNeg (w + 2 ^ 31) = true := (isNeg_iff (by omega)).2 (by omega)
  obtain ⟨hexp, hfrac⟩ := hfields w (.inl rfl)
  obtain ⟨hexp', hfrac'⟩ := hfields (w + 2 ^ 31) (.inr rfl)
  rw [vrecip_of_tiny hexp (by omega) (by omega), vrecip_of_tiny hexp' (by omega) (by omega), if_neg hplus, if_pos hminus]
  decide

/-- Settles O20: a NaN by its class, tiny and negative operands by their fields, and each single encoding by the table of R270. -/
theorem functionSpecialCases : Obligations.FunctionSpecialCases := by
  simp only [Obligations.FunctionSpecialCases, ← nan32_eq]
  refine ⟨fun a b _ _ ha => ?pairs, fun a _ ha => ?functions, ?_, ?_, ?_, ?_, ?_, ?_, ?_, ?_, fun w => vrecip_of_tiny_signs, ?_, ?_, ?_,
    fun w hlo hhi => ⟨vrsqrt_of_above_negative_zero hlo hhi, vlog_of_above_negative_zero hlo hhi⟩, ?_⟩
  case pairs =>
    have hnan := isNan_iff.1 ha
    have hleft : (isNan a || isNan b) = true := by rw [ha, Bool.true_or]
    have hright : (isNan b || isNan a) = true := by rw [ha, Bool.or_true]
    exact ⟨fmax_of_nan hleft, fmax_of_nan hright, fmin_of_nan hleft, fmin_of_nan hright, by rw [hnan, veq_nan_left],
      by rw [hnan, vlt_nan_left], by rw [hnan, vlt_nan_right]⟩
  case functions =>
    have hnan := isNan_iff.1 ha
    exact ⟨vrecip_of_nan hnan, vrsqrt_of_nan hnan, vexp_of_nan hnan, vlog_of_nan hnan⟩
  all_goals decide

end Sys2Proof.Machine
end

section
/-! PROOFS of the resilience family: what sending, storing and recording leave of partitions and sessions, the images that leave the
module (O43), and the requests of the checkpoint engine (O44). -/

namespace Sys2Proof.Machine

open Claims

/-- A state that differs from another only in what memory holds, in its error patterns, and in the self-refresh of a stack (R442, R490). -/
def StoreOnly (s t : State) : Prop := t = { s with mem := t.mem, guard := t.guard, power := t.power }

theorem StoreOnly.refl (s : State) : StoreOnly s s := rfl

theorem StoreOnly.trans {s t u : State} (hst : StoreOnly s t) (htu : StoreOnly t u) : StoreOnly s u := by
  unfold StoreOnly at *
  rw [htu, hst]

theorem storeOnly_memPut (s : State) (a : Nat) (b : Byte) : StoreOnly s (memPut s a b) := rfl

theorem storeOnly_foldl_memPut (l : List Nat) (f : Nat → Nat) (h : Nat → Byte) (s : State) :
    StoreOnly s (l.foldl (fun t i => memPut t (f i) (h i)) s) := by
  induction l generalizing s with
  | nil => exact .refl s
  | cons i r ih => exact (storeOnly_memPut s _ _).trans (ih _)

theorem storeOnly_touchStack (s : State) (a : Nat) : StoreOnly s (touchStack s a) := by
  unfold touchStack
  split <;> rfl

theorem storeOnly_healGranule (s : State) (g : Nat) : StoreOnly s (healGranule s g) := by
  unfold healGranule
  split <;> rfl

theorem storeOnly_storeGranule {s t : State} {a : Nat} {bs : List Byte} (ht : storeGranule s a bs = some t) : StoreOnly s t := by
  unfold storeGranule at ht
  dsimp only at ht
  split at ht
  · cases ht
  · split at ht
    · cases ht
      exact StoreOnly.trans (t := { s with guard := tdel s.guard (storageAddr s a / 32) }) rfl (storeOnly_foldl_memPut _ _ _ _)
    · split at ht
      · cases ht
      · cases ht
        refine StoreOnly.trans ?healed (storeOnly_foldl_memPut _ _ _ _)
        case healed =>
          split
          · exact .refl s
          · exact storeOnly_healGranule s a

theorem storeOnly_storeFrom (fuel : Nat) (s : State) (a : Nat) (bs : List Byte) : StoreOnly s (storeFrom s fuel a bs).1 := by
  induction fuel generalizing s a bs with
  | zero => exact .refl s
  | succ n ih =>
    unfold storeFrom
    split
    · exact .refl s
    · dsimp only
      split
      · exact .refl s
      · next hgranule => exact (storeOnly_storeGranule hgranule).trans (ih _ _ _)

theorem storeOnly_store (s : State) (a : Nat) (bs : List Byte) : StoreOnly s (store s a bs).1 :=
  (storeOnly_touchStack s a).trans (storeOnly_storeFrom _ _ _ _)

section
variable {s t : State}

theorem StoreOnly.regs (h : StoreOnly s t) : t.regs = s.regs := by rw [h]
theorem StoreOnly.code (h : StoreOnly s t) : t.code = s.code := by rw [h]
theorem StoreOnly.fuses (h : StoreOnly s t) : t.fuses = s.fuses := by rw [h]
theorem StoreOnly.parts (h : StoreOnly s t) : t.parts = s.parts := by rw [h]
theorem StoreOnly.sess (h : StoreOnly s t) : t.sess = s.sess := by rw [h]

theorem StoreOnly.regGet (h : StoreOnly s t) (a : Nat) : regGet t a = regGet s a := by
  simp only [Machine.regGet, h.regs, h.code, h.fuses]

theorem StoreOnly.ledger (h : StoreOnly s t) (pg i : Nat) : ledger t pg i = ledger s pg i := by
  simp only [Claims.ledger, h.regGet]

theorem EventOnly.parts (h : EventOnly s t) : t.parts = s.parts := by rw [h]
theorem EventOnly.sameMemory (h : EventOnly s t) : SameMemory s t := by
  rw [h]
  exact ⟨rfl, rfl⟩

theorem partGet_congr (h : t.parts = s.parts) (p : Nat) : partGet t p = partGet s p := by simp only [partGet, h]

end

@[simp] theorem res_resPut (s : State) (p : Nat) (r : Resil) : (partGet (resPut s p r) p).res = r := by
  simp only [resPut, partGet_partPut_same]

theorem sendsOnly_raise (s : State) (pg b : Nat) : SendsOnly s (raise s pg b) := sendsOnly_raiseOnBy sendsOnly_countEvent _ _ _ _

theorem sendsOnly_recordErr (s : State) (pg code : Nat) (part : Option Nat) (addr : Nat) (phys : Bool) (detail : Nat) :
    SendsOnly s (recordErr s pg code part addr phys detail) := by
  rw [recordErr_regsOnly]
  exact .of_same rfl rfl

/-- Every partition is as it was, and every session but for the numbers that sending a packet moves. -/
def KeepsParties (s t : State) : Prop := t.parts = s.parts ∧ ∀ i, (sessGet t i).map unsent = (sessGet s i).map unsent

theorem KeepsParties.refl (s : State) : KeepsParties s s := ⟨rfl, fun _ => rfl⟩

theorem KeepsParties.trans {s t u : State} (hst : KeepsParties s t) (htu : KeepsParties t u) : KeepsParties s u :=
  ⟨htu.1.trans hst.1, fun i => (htu.2 i).trans (hst.2 i)⟩

theorem KeepsParties.of_same {s t : State} (hparts : t.parts = s.parts) (hsess : t.sess = s.sess) : KeepsParties s t :=
  ⟨hparts, fun i => by simp only [sessGet, hsess]⟩

theorem KeepsParties.of_event {s t : State} (hevent : EventOnly s t) (hsends : SendsOnly s t) : KeepsParties s t :=
  ⟨hevent.parts, hsends.1⟩

theorem KeepsParties.of_store {s t : State} (h : StoreOnly s t) : KeepsParties s t := .of_same h.parts h.sess

theorem KeepsParties.foldl {α : Type} {f : State → α → State} (hf : ∀ t x, KeepsParties t (f t x)) (l : List α) (s : State) :
    KeepsParties s (l.foldl f s) := by
  induction l generalizing s with
  | nil => exact .refl s
  | cons x r ih => exact (hf s x).trans (ih _)

theorem keepsParties_tally (s : State) (pg i w : Nat) : KeepsParties s (tally s pg i w) :=
  .of_event (eventOnly_tally _ _ _ _) (sendsOnly_tally _ _ _ _)

theorem keepsParties_raise (s : State) (pg b : Nat) : KeepsParties s (raise s pg b) :=
  .of_event (eventOnly_raise _ _ _) (sendsOnly_raise _ _ _)

theorem keepsParties_recordErr (s : State) (pg code : Nat) (part : Option Nat) (addr : Nat) (phys : Bool) (detail : Nat) :
    KeepsParties s (recordErr s pg code part addr phys detail) :=
  .of_event (eventOnly_recordErr _ _ _ _ _ _ _) (sendsOnly_recordErr _ _ _ _ _ _ _)

theorem keepsParties_regPut (s : State) (a v : Nat) : KeepsParties s (regPut s a v) := .of_same rfl rfl

theorem keepsParties_boot (s : State) (b : Boot) : KeepsParties s { s with boot := b } := .of_same rfl rfl

theorem keepsParties_showJournal (s : State) : KeepsParties s (showJournal s) :=
  (keepsParties_regPut _ _ _).trans (keepsParties_regPut _ _ _)

theorem keepsParties_putRecord (s : State) (r : CurRec) : KeepsParties s (putRecord s r) :=
  ((keepsParties_boot _ _).trans (keepsParties_boot _ _)).trans (keepsParties_showJournal _)

theorem keepsParties_degradeStack (s : State) (k : Nat) : KeepsParties s (degradeStack s k) := by
  unfold degradeStack
  dsimp only
  split
  · exact keepsParties_raise _ _ _
  · exact (keepsParties_raise _ _ _).trans (keepsParties_putRecord _ _)

theorem keepsParties_badChannel (s : State) (a : Nat) : KeepsParties s (badChannel s a) := by
  have hcount : ∀ (words : Tab (Nat × Nat)) (pg : Nat), KeepsParties s (tally { s with badWords := words } pg 4 1) := fun words pg =>
    (KeepsParties.of_same rfl rfl).trans (keepsParties_tally { s with badWords := words } pg 4 1)
  unfold badChannel
  dsimp only
  split
  · split
    · exact (hcount _ _).trans (keepsParties_degradeStack _ _)
    · exact hcount _ _
  · exact hcount _ _

theorem keepsParties_countBad (s : State) (pg a : Nat) : KeepsParties s (countBad s pg a) := by
  unfold countBad
  dsimp only
  split
  · exact .refl s
  · split
    · exact (keepsParties_tally _ _ _ _).trans (keepsParties_badChannel _ _)
    · exact keepsParties_tally _ _ _ _

theorem keepsParties_recordAccess (s : State) (pg : Nat) (part : Option Nat) (va : Nat) (e : AccErr) :
    KeepsParties s (recordAccess s pg part va e) := by
  unfold recordAccess
  refine KeepsParties.trans ?counted (keepsParties_recordErr _ _ _ _ _ _ _)
  case counted =>
    cases e with
    | data a => exact keepsParties_countBad _ _ _
    | table a level1 => exact keepsParties_countBad _ _ _
    | owner a => exact .refl s
    | fault cause level1 toCurator => exact .refl s

theorem keepsParties_countWord (s : State) (pg a : Nat) : KeepsParties s (countWord s pg a) := by
  unfold countWord
  dsimp only
  split
  · exact (keepsParties_tally _ _ _ _).trans (keepsParties_tally _ _ _ _)
  · exact keepsParties_tally _ _ _ _

theorem keepsParties_healRange (s : State) (a n : Nat) : KeepsParties s (healRange s a n) := by
  have htouch : KeepsParties s (touchStack s a) := .of_store (storeOnly_touchStack s a)
  unfold healRange
  dsimp only
  split
  · exact htouch
  · have hrows : ∀ gs, KeepsParties (touchStack s a) (countRows (touchStack s a) gs) := fun _ => .of_same rfl rfl
    have hwords : ∀ pg gs, KeepsParties (touchStack s a) (countWords (touchStack s a) pg gs) := fun pg gs =>
      (hrows gs).trans (.foldl (fun t g => keepsParties_countWord t pg g) gs _)
    exact (htouch.trans (hwords _ _)).trans (.foldl (fun t g => .of_store (storeOnly_healGranule t g)) _ _)

theorem keepsParties_vheal (s : State) (p va n : Nat) : KeepsParties s (vheal s p va n) := by
  refine KeepsParties.foldl (fun t r => ?_) _ s
  split
  · exact keepsParties_healRange _ _ _
  · exact .refl t

theorem keepsParties_vstoreFrom (fuel : Nat) (s : State) (p va : Nat) (bs : List Byte) :
    KeepsParties s (vstoreFrom s p fuel va bs).1 := by
  induction fuel generalizing s va bs with
  | zero => exact .refl s
  | succ n ih =>
    unfold vstoreFrom
    split
    · exact .refl s
    · dsimp only
      split
      · exact .refl s
      · next a _ =>
        have hstore := KeepsParties.of_store (storeOnly_store s a (bs.take (frameSize - va % frameSize)))
        split
        · next hstored =>
          rw [hstored] at hstore
          exact hstore
        · next hstored =>
          rw [hstored] at hstore
          exact hstore.trans (ih _ _ _)

theorem keepsParties_vstore (s : State) (p va : Nat) (bs : List Byte) : KeepsParties s (vstore s p va bs).1 :=
  keepsParties_vstoreFrom _ _ _ _ _

theorem keepsParties_vfetch {s t : State} {p va n : Nat} {b : List Byte} (h : vfetch s p va n = .ok (t, b)) : KeepsParties s t := by
  unfold vfetch at h
  split at h
  · cases h
  · cases h
    exact keepsParties_vheal _ _ _ _

theorem keepsParties_skipEntry (s : State) (p g n i : Nat) : KeepsParties s (skipEntry s p g n i) := by
  unfold skipEntry
  dsimp only
  split
  · exact keepsParties_recordAccess _ _ _ _ _
  · next hfetch =>
    refine (keepsParties_vfetch hfetch).trans (.foldl (fun t r => ?_) _ _)
    have hstore := keepsParties_vstore t p (entryAt s g i + r.1) (List.replicate (r.2 - r.1) 0)
    split
    · next hstored =>
      rw [hstored] at hstore
      exact hstore
    · next hstored =>
      rw [hstored] at hstore
      exact hstore.trans (keepsParties_recordAccess _ _ _ _ _)

/-- Clearing the working records of a step leaves partitions and the parties of sessions alone (R417). -/
theorem keepsParties_clearWires (s : State) (p g n : Nat) : KeepsParties s (clearWires s p g n) :=
  .foldl (fun t _ => keepsParties_skipEntry t _ _ _ _) _ _

/-- The Vault is open by what the checkpoint engine holds and by the parties of the sessions (R406). -/
theorem vaultOpen_congr {s t : State} {p : Nat} (hres : (partGet t p).res = (partGet s p).res)
    (hsess : ∀ i, (sessGet t i).map unsent = (sessGet s i).map unsent) : vaultOpen t p = vaultOpen s p := by
  unfold vaultOpen
  rw [hres]
  have hvault := hsess (rdVAULT (partGet s p).res.desc)
  cases ht : sessGet t (rdVAULT (partGet s p).res.desc) with
  | none =>
    rw [ht, Option.map_none, eq_comm, Option.map_eq_none_iff] at hvault
    rw [hvault]
  | some y =>
    rw [ht, Option.map_some, eq_comm, Option.map_eq_some_iff] at hvault
    obtain ⟨x, hx, hxy⟩ := hvault
    simp only [unsent, Sess.mk.injEq] at hxy
    obtain ⟨hrole, hphase⟩ : x.role = y.role ∧ x.phase = y.phase := by simp only [hxy, and_self]
    have hpartition : x.partition = y.partition := by simp only [hxy]
    simp only [hx, hrole, hphase, hpartition]

/-- The module-flash page is none of those that EVENT packets or vectors touch (R71, R372, R431). -/
theorem eventFree_resPage (s : State) : eventFree (resPage s) := by
  have hpage : resPage s = 3618 ∨ resPage s = 2594 := by
    unfold resPage flashXdie
    cases s.code with
    | m12x4 => exact .inl rfl
    | m14x2 => exact .inr rfl
    | m10x6 => exact .inl rfl
  refine ⟨by omega, fun x => ?_⟩
  unfold ztPage xPage
  split <;> omega

/-- A Ledger counter raised by one counts one more (R522). -/
theorem counts_tally {s u : State} {pg i : Nat} (h : ledger u pg i = ledger s pg i) : Claims.Counts s (tally u pg i 1) pg i := by
  intro hwrap
  rw [← h] at hwrap ⊢
  unfold ledger at hwrap ⊢
  rw [regGet_tally_self _ _ _ _ hwrap, Nat.mod_eq_of_lt (setBits_lt _ _ _ _ _ (regGet_lt _ _) (by decide)), bits_setBits_same,
    Nat.mod_eq_of_lt hwrap]

/-- An event leaves the Ledger counters of an event-free page. -/
theorem ledger_raise (s : State) {pg : Nat} (b : Nat) {i : Nat} (hpg : eventFree pg) (hi : i < 248) :
    ledger (raise s pg b) pg i = ledger s pg i := by
  have hword := notEventWord (off := 0x840 + 8 * i) (by omega) hpg
  rw [← Nat.add_assoc] at hword
  rw [ledger, regGet_raise _ _ _ _ (by omega) hword, ledger]

/-- With no image under way and none due, nothing is sent to the Vault (R411). -/
theorem vaultStream_of_waiting {s : State} {p : Nat} (hidle : (partGet s p).res.stream = none)
    (hdue : (partGet s p).res.due = false) : vaultStream s p = s := by
  simp only [vaultStream, hidle, hdue, true_or, if_true, ite_self]

theorem halfSealed_of_none {s : State} {p : Nat} (hidle : (partGet s p).res.stream = none) : halfSealed s p = s := by
  simp only [halfSealed, hidle]

theorem vaultStream_of_sent {s : State} {p h c : Nat} (hsent : (partGet s p).res.stream = some (h, c, true)) :
    vaultStream s p = s := by
  simp only [vaultStream, hsent, ite_self]

section
variable {s u : State} {p : Nat} {ms : List Word32} (hready : vaultReady s p = true) (hacked : (partGet s p).res.streamMsgs = [])
include hready hacked

/-- Order 1 of R411: the header of the half that is due, unsealed. -/
theorem vaultStream_of_due {c : Nat} (hidle : (partGet s p).res.stream = none) (hdue : (partGet s p).res.due = true)
    (hrun : (partGet s p).stp.run = none) (hc : c = (stepNow s p + 2 ^ 32 - 1) % 2 ^ 32)
    (hwrite : vaultWrite s p (32 * (c % 2)) (headerRecord c 1 0 s.now) 3 = (u, ms)) :
    vaultStream s p = resPut u p { (partGet u p).res with due := false, stream := some (c % 2, c, false), streamMsgs := ms } := by
  have hbegins : ¬ ((partGet s p).res.due = false ∨ (partGet s p).stp.run.isSome = true) := by simp [hdue, hrun]
  simp only [vaultStream, hready, hacked, hidle, if_neg hbegins, ← hc, hwrite, Bool.true_eq_false, ne_eq, not_true_eq_false, or_self,
    if_false]

/-- Order 2 of R411: the pieces of the half that are dirty. -/
theorem vaultStream_of_unsealed {h c len : Nat} {ps : List (Nat × List Byte)}
    (hstream : (partGet s p).res.stream = some (h, c, false))
    (hpieces : imagePieces s p ((partGet s p).res.dirty.getD h none) = .ok (ps, len))
    (hwrite : vaultPieces s p (halfAt len h) ps = (u, ms)) :
    vaultStream s p = resPut u p
      { (partGet u p).res with stream := some (h, c, true), streamMsgs := ms, dirty := setAt (partGet u p).res.dirty h (some []) } := by
  simp only [vaultStream, hready, hacked, hstream, hpieces, hwrite, Bool.true_eq_false, ne_eq, not_true_eq_false, or_self, if_false]

/-- Order 4 of R411: the header of the half, sealed. -/
theorem halfSealed_of_sent {h c : Nat} (hstream : (partGet s p).res.stream = some (h, c, true))
    (hwrite : vaultWrite s p (32 * h) (headerRecord c 2 (halfLen s p) s.now) 3 = (u, ms)) :
    halfSealed s p = tally (resPut u p { (partGet u p).res with
      stream := none, streamMsgs := ms, sealedAt := setAt (partGet s p).res.sealedAt h (some c) }) (resPage s) 2 1 := by
  simp only [halfSealed, hready, hacked, hstream, hwrite, Bool.true_eq_false, ne_eq, not_true_eq_false, or_self, if_false]

end

theorem flashImage_of_none {s : State} {p : Nat} (hdue : (partGet s p).res.flashDue = none) : flashImage s p = s := by
  simp only [flashImage, hdue]

theorem flashImage_of_due {s : State} {p c : Nat} (hdue : (partGet s p).res.flashDue = some c) (hfree : (partGet s p).res.flash = none)
    (hruns : running s (resPage s) = true) : flashImage s p =
      (flashImageTo (resPut s p { (partGet s p).res with flashDue := none }) p (c / rdEVERY (partGet s p).res.desc % 2) c).1 := by
  simp only [flashImage, hdue, hfree, hruns, Option.isSome_none, Bool.false_eq_true, Bool.true_eq_false, or_self, if_false]

theorem flashDone_of_none {s : State} {p : Nat} (hflash : (partGet s p).res.flash = none) : flashDone s p = s := by
  simp only [flashDone, hflash]

/-- The state in which a flash image stands as whole: the checkpoint engine holds it, and so does its header, where its frame is
there (R412). -/
def flashMarked (s : State) (p slot c : Nat) : State :=
  let t := resPut s p { (partGet s p).res with flash := none, flashAt := setAt (partGet s p).res.flashAt slot (some c) }
  match flashAddr s p slot 0 with
  | some a => (store (store t (a + 4) (leBytes 1 2)).1 (a + 16) (leBytes 8 s.now)).1
  | none => t

theorem flashDone_of_image {s : State} {p slot c : Nat} (hflash : (partGet s p).res.flash = some (slot, c)) :
    flashDone s p = tally (raise (flashMarked s p slot c) (resPage s) 10) (resPage s) 3 1 := by
  simp only [flashDone, flashMarked, hflash] <;> rfl

theorem storeOnly_flashMarked (s : State) (p slot c : Nat) : StoreOnly
    (resPut s p { (partGet s p).res with flash := none, flashAt := setAt (partGet s p).res.flashAt slot (some c) })
    (flashMarked s p slot c) := by
  unfold flashMarked
  dsimp only
  split
  · exact (storeOnly_store _ _ _).trans (storeOnly_store _ _ _)
  · exact .refl _

theorem res_flashDone {s : State} {p slot c : Nat} (hflash : (partGet s p).res.flash = some (slot, c)) :
    (partGet (flashDone s p) p).res = { (partGet s p).res with
      flash := none, flashAt := setAt (partGet s p).res.flashAt slot (some c) } := by
  have hparts := (storeOnly_flashMarked s p slot c).parts
  rw [flashDone_of_image hflash, partGet_congr (((tally_parts _ _ _ _).trans (raise_parts _ _ _)).trans hparts), res_resPut]

theorem counts_flashDone {s : State} {p slot c : Nat} (hflash : (partGet s p).res.flash = some (slot, c)) :
    Claims.Counts s (flashDone s p) (resPage s) 3 := by
  rw [flashDone_of_image hflash]
  exact counts_tally ((ledger_raise _ _ (eventFree_resPage s) (by decide)).trans ((storeOnly_flashMarked s p slot c).ledger _ _))

/-- Bit 10 of EVT_RAW reports a flash image that is whole (R412, R432). -/
theorem flashDone_event {s : State} {p slot c : Nat} (hflash : (partGet s p).res.flash = some (slot, c)) :
    (rd (flashDone s p) (resPage s) fEVTRAW).testBit 10 = true := by
  rw [flashDone_of_image hflash]
  exact rawGrows_tally _ _ _ _ (by decide) _ _ (raise_testBit _ _ _ (by decide))

theorem storeCopy_of_early {s : State} {p : Nat}
    (hearly : s.now < (partGet s p).res.storeAt + rdPERIOD (partGet s p).res.desc ∨ (partGet s p).res.store.isSome = true) :
    storeCopy s p = s := by
  refine if_pos ?_
  rcases hearly with hnow | hbusy
  · exact .inr (.inr (.inr (.inr (.inl hnow))))
  · exact .inr (.inr (.inl hbusy))

theorem storeCopy_of_due {s : State} {p : Nat} (hdesc : (partGet s p).res.desc ≠ []) (hsound : (partGet s p).res.broken = false)
    (hfree : (partGet s p).res.store = none) (hstore : rdSTORE (partGet s p).res.desc ≠ 0xFFFF)
    (hnow : (partGet s p).res.storeAt + rdPERIOD (partGet s p).res.desc ≤ s.now) (hruns : running s (resPage s) = true) :
    storeCopy s p = if storeOpen s p = true ∧ (partGet s p).ctxStopped = false
      then storeStart (resPut s p { (partGet s p).res with storeAt := s.now }) p
      else resPut s p { (partGet s p).res with storeAt := s.now } := by
  refine if_neg ?_
  simp [hdesc, hsound, hfree, hstore, hnow, hruns]

/-- Settles O43: each row by the equations of its order of R411, of the flash image of R412, and of the cadence of R413. -/
theorem imagesLeave : Obligations.ImagesLeave := by
  intro s p hlive
  have hstream : exec (.vaultImageStream p) s = .next (vaultStream s p.val) := congrArg Host.Outcome.next (alive_of_live hlive _)
  have hseal : exec (.halfSealed p) s = .next (halfSealed s p.val) := congrArg Host.Outcome.next (alive_of_live hlive _)
  have hflash : exec (.flashImage p) s = .next (flashImage s p.val) := congrArg Host.Outcome.next (alive_of_live hlive _)
  have hdone : exec (.flashImageDone p) s = .next (flashDone s p.val) := congrArg Host.Outcome.next (alive_of_live hlive _)
  have hcopy : exec (.storeCopy p) s = .next (storeCopy s p.val) := congrArg Host.Outcome.next (alive_of_live hlive _)
  simp only [hstream, hseal, hflash, hdone, hcopy, Host.Outcome.next.injEq, exists_eq_left', ckpt]
  refine ⟨fun hready hacked => ⟨?unsealed, ?pieces, ?sealed⟩, fun hidle => ⟨halfSealed_of_none hidle, vaultStream_of_waiting hidle⟩,
    flashImage_of_none, fun c => flashImage_of_due, flashDone_of_none, ?whole, storeCopy_of_early, storeCopy_of_due⟩
  case unsealed => exact fun c u ms => vaultStream_of_due hready hacked
  case pieces => exact fun h c len ps u ms => vaultStream_of_unsealed hready hacked
  case sealed =>
    intro h c hsent
    rcases hwrite : vaultWrite s p.val (32 * h) (headerRecord c 2 (halfLen s p.val) s.now) 3 with ⟨u, ms⟩
    refine ⟨vaultStream_of_sent hsent, _, u, ms, halfSealed_of_sent hready hacked hsent hwrite, rfl, ?engine, counts_tally rfl⟩
    case engine => rw [partGet_congr (tally_parts _ _ _ _), res_resPut]
  case whole =>
    intro slot c himage
    have hengine := res_flashDone himage
    exact ⟨by rw [hengine], by rw [hengine], flashDone_event himage, counts_flashDone himage⟩

/-- Registers of an event-free page between its header and its Ledger region stand when a Ledger counter of it is raised (R522). -/
theorem rd_tally_middle (s : State) {pg : Nat} (hpg : eventFree pg) (i w : Nat) {f : FRef} (hlow : 0x100 ≤ f.off) (hhigh : f.off < 0x840) :
    rd (tally s pg i w) pg f = rd s pg f := rd_tally _ _ _ _ _ _ (by omega) (by omega) (by omega) hpg

/-- A request ended, but for the Ledger: its error recorded where it has one, its RESULT given, BUSY cleared and bit 9 raised (R431). -/
def requestClosed (s : State) (p code : Nat) : State :=
  let t := if code = 0 then s else recordErr s (resPage s) 0x80 (some p) 0 false (code * 2 ^ 8)
  raise (wr (wr t (resPage s) (fRRESULT p) code) (resPage s) (fRCBUSY p) 0) (resPage s) 9

theorem resEnd_eq (s : State) (p code : Nat) : resEnd s p code =
    if code = 0 then tally (requestClosed s p code) (resPage s) 9 1
    else tally (tally (requestClosed s p code) (resPage s) 9 1) (resPage s) 10 1 := rfl

theorem eventOnly_requestClosed (s : State) (p code : Nat) : EventOnly s (requestClosed s p code) := by
  unfold requestClosed
  refine EventOnly.trans ?recorded (((eventOnly_wr _ _ _ _).trans (eventOnly_wr _ _ _ _)).trans (eventOnly_raise _ _ _))
  case recorded =>
    split
    · exact .refl s
    · exact eventOnly_recordErr _ _ _ _ _ _ _

theorem sendsOnly_requestClosed (s : State) (p code : Nat) : SendsOnly s (requestClosed s p code) := by
  unfold requestClosed
  refine SendsOnly.trans ?recorded (((sendsOnly_regPut _ _ _).trans (sendsOnly_regPut _ _ _)).trans (sendsOnly_raise _ _ _))
  case recorded =>
    split
    · exact .refl s
    · exact sendsOnly_recordErr _ _ _ _ _ _ _

/-- The end of a request changes registers, and what its event and the Ledger's may send (R431, R432). -/
theorem onlyRegs_resEnd (s : State) (p code : Nat) : OnlyRegs s (resEnd s p code) := by
  have hcounted : OnlyRegs s (tally (requestClosed s p code) (resPage s) 9 1) :=
    ⟨(eventOnly_requestClosed s p code).trans (eventOnly_tally _ _ _ _), (sendsOnly_requestClosed s p code).trans (sendsOnly_tally _ _ _ _)⟩
  rw [resEnd_eq]
  split
  · exact hcounted
  · exact ⟨EventOnly.trans hcounted.1 (eventOnly_tally _ _ _ _), SendsOnly.trans hcounted.2 (sendsOnly_tally _ _ _ _)⟩

theorem sameMemory_resEnd (s : State) (p code : Nat) : SameMemory s (resEnd s p code) := EventOnly.sameMemory (onlyRegs_resEnd s p code).1

theorem res_resEnd (s : State) (p code q : Nat) : (partGet (resEnd s p code) q).res = (partGet s q).res := by
  rw [partGet_congr (EventOnly.parts (onlyRegs_resEnd s p code).1)]

/-- The Ledger counts of a request's end leave the page's own registers as its RESULT and its event leave them (R432). -/
theorem rd_resEnd (s : State) (p code : Nat) {f : FRef} (hlow : 0x100 ≤ f.off) (hhigh : f.off < 0x840) :
    rd (resEnd s p code) (resPage s) f = rd (requestClosed s p code) (resPage s) f := by
  have hpage := eventFree_resPage s
  rw [resEnd_eq]
  split
  · exact rd_tally_middle _ hpage _ _ hlow hhigh
  · rw [rd_tally_middle _ hpage _ _ hlow hhigh, rd_tally_middle _ hpage _ _ hlow hhigh]

section
variable (s : State) {p : Nat} (hp : p < 64)
include hp

theorem rd_resEnd_result {code : Nat} (hcode : code < 16) : rd (resEnd s p code) (resPage s) (fRRESULT p) = code := by
  rw [rd_resEnd _ _ _ (by simp only [fRRESULT]; omega) (by simp only [fRRESULT]; omega), requestClosed,
    rd_raise _ _ _ _ _ (by simp only [fRRESULT]; omega) (by simp only [fRRESULT]; omega) (eventFree_resPage s),
    rd_wr_ne _ _ _ _ _ _ (by simp only [fRCBUSY]; omega) (.inr (.inr (by simp only [fRCBUSY, fRRESULT]; omega))),
    rd_wr_same _ _ _ _ (by simp only [fRRESULT]; omega)]
  exact Nat.mod_eq_of_lt hcode

theorem rd_resEnd_busy (code : Nat) : rd (resEnd s p code) (resPage s) (fRCBUSY p) = 0 := by
  rw [rd_resEnd _ _ _ (by simp only [fRCBUSY]; omega) (by simp only [fRCBUSY]; omega), requestClosed,
    rd_raise _ _ _ _ _ (by simp only [fRCBUSY]; omega) (by simp only [fRCBUSY]; omega) (eventFree_resPage s),
    rd_wr_same _ _ _ _ (by simp only [fRCBUSY]; omega), Nat.zero_mod]

end

/-- Bit 9 of EVT_RAW reports the end of a request (R431, R432). -/
theorem resEnd_event (s : State) (p code : Nat) : (rd (resEnd s p code) (resPage s) fEVTRAW).testBit 9 = true := by
  have hraised : (rd (requestClosed s p code) (resPage s) fEVTRAW).testBit 9 = true := raise_testBit _ _ _ (by decide)
  have hcounted := rawGrows_tally _ (resPage s) 9 1 (by decide) _ _ hraised
  rw [resEnd_eq]
  split
  · exact hcounted
  · exact rawGrows_tally _ _ _ _ (by decide) _ _ hcounted

/-- A request ended in any state of the module closes with its RESULT (R431). -/
theorem closes_resEnd {s u : State} (hcode : u.code = s.code) (p : Fin 64) {code : Nat} (hresult : code < 16) :
    Closes s (resEnd u p.val code) p code := by
  have hpage : resPage s = resPage u := by simp only [resPage, hcode]
  rw [Closes, hpage]
  exact ⟨rd_resEnd_result u p.isLt hresult, rd_resEnd_busy u p.isLt code, resEnd_event u p.val code⟩

section
variable {s u : State} {p : Fin 64} {c : Instr} {code : Nat}

/-- A row that only ends its request: the RESULT is given, and memory stands. -/
theorem ends_of_exec (hexec : exec c s = .next (resEnd s p.val code)) (hresult : code < 16) :
    ∃ t, exec c s = .next t ∧ Closes s t p code ∧ SameMemory s t :=
  ⟨_, hexec, closes_resEnd rfl p hresult, sameMemory_resEnd _ _ _⟩

/-- A row that acts before it ends its request. -/
theorem closes_of_exec (hexec : exec c s = .next (resEnd u p.val code)) (hcode : u.code = s.code) (hresult : code < 16) :
    ∃ t, exec c s = .next t ∧ Closes s t p code ∧ t = resEnd u p.val code := ⟨_, hexec, closes_resEnd hcode p hresult, rfl⟩

end

/-- What the request with an operation code does in its turn (R417-R431). -/
def requestEffect (op : Nat) (s : State) (p : Nat) : State :=
  match op with
  | 1 => resRestart s p
  | 2 => resFinish s p
  | 3 => resRestore s p
  | 4 => resReplay s p
  | 5 => resRepoint s p
  | 6 => resFlashNow s p
  | _ => resStoreNow s p

theorem exec_request {row : Nat × (Fin 64 → Instr)} (hrow : row ∈ resRows) {s : State} (hlive : Live s) (p : Fin 64) :
    exec (row.2 p) s = .next (resRow s p.val row.1 (fun u => requestEffect row.1 u p.val)) := by
  simp only [resRows, List.mem_cons, List.not_mem_nil, or_false] at hrow
  rcases hrow with rfl | rfl | rfl | rfl | rfl | rfl | rfl <;> exact congrArg Host.Outcome.next (alive_of_live hlive _)

section
variable {s : State} {p op : Nat} {f : State → State}

theorem resRow_of_idle (hidle : rd s (resPage s) (fRCBUSY p) = 0) : resRow s p op f = s := by
  refine if_pos ?_
  simp only [resAsked, hidle]
  rfl

theorem resRow_of_other (hother : resOp s p ≠ op) (hlow : 1 ≤ resOp s p) (hhigh : resOp s p ≤ 7) : resRow s p op f = s := by
  have hdefined : ¬ resOp s p = 0 ∧ ¬ 7 < resOp s p := by omega
  refine if_pos ?_
  simp [resAsked, hother, hdefined]

variable (hbusy : rd s (resPage s) (fRCBUSY p) = 1) (hruns : running s (resPage s) = true)
include hbusy hruns

theorem resRow_of_reserved (hother : resOp s p ≠ op) (hreserved : resOp s p = 0 ∨ 8 ≤ resOp s p) : resRow s p op f = resEnd s p 5 := by
  have hasked : resAsked s p op = true := by
    simp only [resAsked, hbusy, hruns, beq_self_eq_true, Bool.and_self, Bool.true_and, Bool.or_eq_true, beq_iff_eq, decide_eq_true_eq]
    omega
  rw [resRow, hasked, if_neg (by decide), if_neg hother]

theorem resRow_of_own (hown : resOp s p = op) : resRow s p op f = f s := by
  have hasked : resAsked s p op = true := by simp [resAsked, hbusy, hruns, hown]
  rw [resRow, hasked, if_neg (by decide), if_pos hown]

end

theorem exec_of_waiting {row : Nat × (Fin 64 → Instr)} (hrow : row ∈ resRows) {s : State} {p : Fin 64} (hwaits : Waiting s p row.1) :
    exec (row.2 p) s = .next (requestEffect row.1 s p.val) := by
  obtain ⟨hlive, hbusy, hruns, hown⟩ := hwaits
  rw [exec_request hrow hlive, resRow_of_own hbusy hruns hown]

section
variable {s : State} {p : Nat}

theorem resRestart_of_refused (h : leadOf s p = none ∨ isQuiet s p = false ∨ resStep s p ≠ stepNow s p ∨
    (partGet s p).stp.run.isSome = true) : resRestart s p = resEnd s p 1 := by
  unfold resRestart
  cases hlead : leadOf s p with
  | none => rfl
  | some g =>
    rw [hlead] at h
    exact if_pos (h.resolve_left (by simp))

/-- The reductions of the step named begin anew, with the working records cleared, and those whose triggers are met fire (R417). -/
theorem resRestart_of_quiet {g n : Nat} {u v : State} (hlead : leadOf s p = some g) (hquiet : isQuiet s p = true) (hn : n = resStep s p)
    (hstep : n = stepNow s p) (hrun : (partGet s p).stp.run = none) (hu : u = clearWires s p g n) (hvault : vaultOpen s p = false)
    (hv : v = collStart (partPut u p { partGet u p with
      stp := { (partGet u p).stp with job := none }, coll := { (partGet u p).coll with result := none } }) p n (partGet u p).coll.tabs) :
    resRestart s p = resEnd ((partGet v p).coll.reds.foldl (fun t r => redFire t r.xdie p r.rid none) v) p 0 := by
  have hkeeps := keepsParties_clearWires s p g n
  rw [← hu] at hkeeps
  have hclosed : vaultOpen (partPut u p { partGet u p with
      stp := { (partGet u p).stp with job := none }, coll := { (partGet u p).coll with result := none } }) p = false := by
    rw [← hvault]
    refine vaultOpen_congr ?_ hkeeps.2
    rw [partGet_partPut_same, partGet_congr hkeeps.1]
  have hgo : ¬ (isQuiet s p = false ∨ n ≠ stepNow s p ∨ (partGet s p).stp.run.isSome = true) := by simp [hquiet, ← hstep, hrun]
  simp only [resRestart, hlead, ← hn, if_neg hgo, ← hu, hclosed, Bool.false_eq_true, if_false, ← hv]

theorem code_restarted {g n : Nat} {x : Part} {tabs : List (Nat × Nat × Nat)} {v : State}
    (hv : v = collStart (partPut (clearWires s p g n) p x) p n tabs) (l : List RedRun) :
    (l.foldl (fun t r => redFire t r.xdie p r.rid none) v).code = s.code := by
  have hbegun : Kept s v := by
    rw [hv]
    exact kept_collStart _ _ _ _ (kept_partPut _ _ _ (kept_clearWires _ _ _ _ (.refl s)))
  exact (kept_foldl (fun t r ht => kept_redFire t _ _ _ _ ht) hbegun).code

theorem resFinish_of_unfinished (hstep : resStep s p = stepNow s p) (hreds : (partGet s p).coll.reds ≠ [])
    (hnone : (partGet s p).coll.reds.any redComplete = false) : resFinish s p = resEnd s p 1 := by
  have hall : (partGet s p).coll.reds.all (fun r => !redComplete r) = true := by
    rw [← List.not_any_eq_all_not, hnone]
    rfl
  exact if_pos ⟨hstep, hreds, hall⟩

/-- Where a reduction of the step is complete, FINISH finds something to send (R418). -/
theorem finish_finds_complete (hsome : (partGet s p).coll.reds.any redComplete = true) :
    ¬ (resStep s p = stepNow s p ∧ (partGet s p).coll.reds ≠ [] ∧ (partGet s p).coll.reds.all (fun r => !redComplete r) = true) := by
  rintro ⟨-, -, hall⟩
  rw [← List.not_any_eq_all_not, hsome] at hall
  cases hall

theorem resFinish_of_other (hsome : (partGet s p).coll.reds.any redComplete = true)
    (hother : resSource s p ≠ groupSelf (partGet s p).coll.job) : resFinish s p = resEnd s p 0 :=
  (if_neg (finish_finds_complete hsome)).trans (if_pos (.inl hother))

/-- SOURCE sends the combined result it holds to the other members of the job that are here (R418). -/
theorem resFinish_of_source {c : Combined} (hsome : (partGet s p).coll.reds.any redComplete = true)
    (hsource : resSource s p = groupSelf (partGet s p).coll.job)
    (hgroup : groupOk (partGet s p).coll.job (partGet s p).coll.jobMembers = true) (hheld : heldResult s p (resStep s p) = some c) :
    resFinish s p = resEnd (((hereMembers (partGet s p).coll.job (partGet s p).coll.jobMembers).filter
      (· != groupSelf (partGet s p).coll.job)).foldl (fun t m => sendCombine t p 3 m c) s) p 0 := by
  simp only [resFinish, if_neg (finish_finds_complete hsome), hsource, hgroup, hheld, ne_eq, not_true_eq_false, Bool.true_eq_false, or_self,
    if_false]

theorem resRestore_of_running (hnew : (partGet s p).res.restore = none) (hstate : rd s rootPage (fPSTATE p) ≠ 2) :
    resRestore s p = resEnd s p 1 := by
  simp only [resRestore, hnew, if_pos hstate]

/-- A RESTORE begins with the header of the Vault (R421). -/
theorem resRestore_of_stopped {u : State} {i : Nat} (hnew : (partGet s p).res.restore = none) (hstate : rd s rootPage (fPSTATE p) = 2)
    (hdesc : readDesc s p = (u, 0)) (hi : i = rdVAULT (partGet u p).res.desc) (hopen : peerOpen u p i = true) :
    resRestore s p = restoreRead (resPut u p { (partGet u p).res with
      restore := some ⟨resStep s p, 0, 0, 0, .header, 4096, [], [], []⟩, readFailed := false }) p i (rdVBASE (partGet u p).res.desc) 4096 0 := by
  simp only [resRestore, hnew, hstate, hdesc, ← hi, hopen, ne_eq, not_true_eq_false, Bool.true_eq_false, if_false]

theorem resRestore_of_failed (hbegun : (partGet s p).res.restore.isSome = true) (hfailed : (partGet s p).res.readFailed = true) :
    resRestore s p = restoreEnd s p 4 := by
  obtain ⟨r, hr⟩ := Option.isSome_iff_exists.1 hbegun
  simp only [resRestore, hr, hfailed, if_true]

theorem resRestore_of_reading (hbegun : (partGet s p).res.restore.isSome = true) (hreads : (partGet s p).res.readFailed = false) :
    resRestore s p = s := by
  obtain ⟨r, hr⟩ := Option.isSome_iff_exists.1 hbegun
  simp only [resRestore, hr, hreads, Bool.false_eq_true, if_false]

theorem res_restoreEnd (code : Nat) : (partGet (restoreEnd s p code) p).res = { (partGet s p).res with restore := none, readFailed := false } := by
  rw [restoreEnd, res_resEnd, res_resPut]

/-- A RESTORE that ends leaves none under way, and closes with its RESULT (R421, R431). -/
theorem closes_restoreEnd {p : Fin 64} {code : Nat} (hresult : code < 16) : Closes s (restoreEnd s p.val code) p code :=
  closes_resEnd (u := resPut s p.val _) (partPut_code _ _ _) p hresult

theorem resReplay_of_refused (hnew : (partGet s p).res.replay = none)
    (hstate : resStep s p ≠ stepNow s p ∨ (partGet s p).stp.job.isSome = true) : resReplay s p = resEnd s p 1 := by
  have hrefused : resStep s p ≠ stepNow s p ∨ (partGet s p).stp.started = false ∨ (partGet s p).stp.job.isSome = true ∨
      (leadOf s p).isNone = true ∨ (partGet s p).stp.dead = true := hstate.imp_right fun hjob => .inr (.inl hjob)
  simp only [resReplay, hnew, if_pos hrefused, Option.isSome_none, Bool.false_eq_true, if_false]

/-- REPLAY opens the gate of the step with both job flags 1 and the N that it reads (R422). -/
theorem resReplay_of_started {g : Nat} {d : List Byte} (hnew : (partGet s p).res.replay = none) (hlead : leadOf s p = some g)
    (hstep : resStep s p = stepNow s p) (hstarted : (partGet s p).stp.started = true) (hjob : (partGet s p).stp.job = none)
    (halive : (partGet s p).stp.dead = false) (hload : vload s p (rd s (resPage s) (fRBASE p)) 64 = .ok d) :
    resReplay s p = partPut s p { partGet s p with
      stp := { (partGet s p).stp with job := some (true, true, leAt d 60 4), gateAt := s.now },
      res := { (partGet s p).res with replay := some (stepNow s p) } } := by
  simp only [resReplay, hnew, hlead, hstep, hstarted, hjob, halive, hload, Option.isSome_none, Option.isNone_some, ne_eq, not_true_eq_false,
    Bool.false_eq_true, Bool.true_eq_false, or_self, if_false]

theorem hasVault_of_none {r : Resil} (h : rdVAULT r.desc = 0xFFFF) : hasVault r = false := by
  simp only [hasVault, h, bne_self_eq_false, Bool.and_false]

section
variable {u : State} {c : Nat} (hdesc : readDesc s p = (u, c))
include hdesc

theorem resRepoint_of_refused (hc : c ≠ 0) : resRepoint s p = resEnd u p c := by
  cases c with
  | zero => exact absurd rfl hc
  | succ n => simp only [resRepoint, hdesc]

/-- A descriptor in force without a Vault leaves nothing to mirror again (R425, R431). -/
theorem resRepoint_of_vaultless (hc : c = 0) (hvault : rdVAULT (partGet u p).res.desc = 0xFFFF) : resRepoint s p = resEnd u p c := by
  subst hc
  simp only [resRepoint, hdesc, hvault, hasVault_of_none hvault, ne_eq, not_true_eq_false, false_and, Bool.and_false, Bool.false_eq_true,
    if_false]

theorem resRepoint_of_closed (hc : c = 0) (hvault : rdVAULT (partGet u p).res.desc ≠ 0xFFFF)
    (hclosed : peerOpen u p (rdVAULT (partGet u p).res.desc) = false) : resRepoint s p = resEnd u p 4 := by
  subst hc
  simp only [resRepoint, hdesc, if_pos (And.intro hvault hclosed)]

end

theorem resFlashNow_of_none (hlast : (partGet s p).res.lastStep = none) : resFlashNow s p = resEnd s p 1 := by
  simp only [resFlashNow, hlast]

/-- FLASH_NOW ends with the RESULT of the image that it writes (R431). -/
theorem resFlashNow_of_free {c e : Nat} {u : State} (hlast : (partGet s p).res.lastStep = some c) (hdesc : (partGet s p).res.desc ≠ [])
    (hsound : (partGet s p).res.broken = false) (hevery : rdEVERY (partGet s p).res.desc ≠ 0) (hflash : (partGet s p).res.flash = none)
    (hdue : (partGet s p).res.flashDue = none) (hstore : (partGet s p).res.store ≠ some ((c / rdEVERY (partGet s p).res.desc + 1) % 2))
    (hrun : (partGet s p).stp.run = none)
    (himage : flashImageTo s p ((c / rdEVERY (partGet s p).res.desc + 1) % 2) c = (u, e)) : resFlashNow s p = resEnd u p e := by
  simp only [resFlashNow, hlast, hdesc, hsound, hevery, hflash, hdue, hstore, hrun, himage, Option.isSome_none, Bool.false_eq_true,
    or_self, if_false]

theorem resStoreNow_of_none (hslot : newestSlot (partGet s p).res = none) : resStoreNow s p = resEnd s p 1 :=
  if_pos (.inr (.inr (.inr hslot)))

theorem resStoreNow_of_free (hdesc : (partGet s p).res.desc ≠ []) (hsound : (partGet s p).res.broken = false)
    (hfree : (partGet s p).res.store = none) (hslot : newestSlot (partGet s p).res ≠ none) :
    resStoreNow s p = if storeOpen s p = false then resEnd s p 4 else resEnd (storeStart s p) p 0 := by
  refine if_neg ?_
  simp [hdesc, hsound, hfree, hslot]

end

/-- The RESULT code of a flash image fits the four bits of its field (R412, R431). -/
theorem flashImageTo_result_lt (s : State) (p slot c : Nat) : (flashImageTo s p slot c).2 < 16 := by
  unfold flashImageTo
  dsimp only
  repeat' split
  all_goals simp only [Nat.reduceLT]

/-- Settles O44: what each of the seven requests does when it waits, by the equations of its meaning; a request that ends closes with its
RESULT. -/
theorem resilienceRequestsEnd : Obligations.ResilienceRequestsEnd := by
  intro s p
  refine ⟨?rows, ?restart, ?unfinished, ?finish, ?restore, ?restoring, ?replay, ?repoint, ?flashNow, ?storeNow⟩
  case rows =>
    intro row hrow
    refine ⟨fun hlive hidle => ?_, fun op hwaits hother => ⟨fun hdefined => ?_, fun hreserved => ?_⟩⟩
    · rw [exec_request hrow hlive, resRow_of_idle hidle]
    · obtain ⟨hlive, -, -, rfl⟩ := hwaits
      rw [exec_request hrow hlive, resRow_of_other hother hdefined.1 hdefined.2]
    · obtain ⟨hlive, hbusy, hruns, rfl⟩ := hwaits
      refine ends_of_exec ?_ (by decide)
      rw [exec_request hrow hlive, resRow_of_reserved hbusy hruns hother hreserved]
  case restart =>
    intro hwaits
    have hexec : exec (.restart p) s = .next (resRestart s p.val) := exec_of_waiting (row := (1, .restart)) (by simp [resRows]) hwaits
    refine ⟨fun hrefused => ends_of_exec (by rw [hexec, resRestart_of_refused hrefused]) (by decide), ?_⟩
    intro g n u v hlead hquiet hn hstep hrun hu hvault hv
    refine closes_of_exec (by rw [hexec, resRestart_of_quiet hlead hquiet hn hstep hrun hu hvault hv]) ?_ (by decide)
    rw [hu] at hv
    exact code_restarted hv _
  case unfinished =>
    intro hwaits hstep hreds hnone
    have hexec : exec (.finish p) s = .next (resFinish s p.val) := exec_of_waiting (row := (2, .finish)) (by simp [resRows]) hwaits
    rw [resFinish_of_unfinished hstep hreds hnone] at hexec
    exact ⟨_, hexec, closes_resEnd rfl p (by decide), onlyRegs_resEnd _ _ _⟩
  case finish =>
    intro hwaits hsome
    have hexec : exec (.finish p) s = .next (resFinish s p.val) := exec_of_waiting (row := (2, .finish)) (by simp [resRows]) hwaits
    refine ⟨fun hother => ?_, fun c hsource hgroup hheld => ?_⟩
    · rw [resFinish_of_other hsome hother] at hexec
      exact ⟨_, hexec, closes_resEnd rfl p (by decide), onlyRegs_resEnd _ _ _⟩
    · refine closes_of_exec (by rw [hexec, resFinish_of_source hsome hsource hgroup hheld]) ?_ (by decide)
      exact (kept_foldl (fun t m ht => kept_sendCombine t _ _ _ _ ht) (.refl s)).code
  case restore =>
    intro hwaits hnew
    have hexec : exec (.restore p) s = .next (resRestore s p.val) := exec_of_waiting (row := (3, .restore)) (by simp [resRows]) hwaits
    refine ⟨fun hstate => ends_of_exec (by rw [hexec, resRestore_of_running hnew hstate]) (by decide), ?_⟩
    intro u i hstate hdesc hi hopen
    exact hexec.trans (congrArg Host.Outcome.next (resRestore_of_stopped hnew hstate hdesc hi hopen))
  case restoring =>
    intro hwaits hbegun
    have hexec : exec (.restore p) s = .next (resRestore s p.val) := exec_of_waiting (row := (3, .restore)) (by simp [resRows]) hwaits
    refine ⟨fun hfailed => ?_, fun hreads => hexec.trans (congrArg Host.Outcome.next (resRestore_of_reading hbegun hreads))⟩
    rw [resRestore_of_failed hbegun hfailed] at hexec
    exact ⟨_, hexec, closes_restoreEnd (by decide), by rw [ckpt, res_restoreEnd]⟩
  case replay =>
    intro hwaits hnew
    have hexec : exec (.replay p) s = .next (resReplay s p.val) := exec_of_waiting (row := (4, .replay)) (by simp [resRows]) hwaits
    refine ⟨fun hstate => ends_of_exec (by rw [hexec, resReplay_of_refused hnew hstate]) (by decide), ?_⟩
    intro g d hlead hstep hstarted hjob halive hload
    exact hexec.trans (congrArg Host.Outcome.next (resReplay_of_started hnew hlead hstep hstarted hjob halive hload))
  case repoint =>
    intro hwaits u c hdesc hc
    have hexec : exec (.repoint p) s = .next (resRepoint s p.val) := exec_of_waiting (row := (5, .repoint)) (by simp [resRows]) hwaits
    have hcode : u.code = s.code := by
      have hkept := kept_readDesc s p.val (.refl s)
      rw [hdesc] at hkept
      exact hkept.code
    refine ⟨fun hends => closes_of_exec ?_ hcode hc, fun hzero hvault hclosed => ?_⟩
    · by_cases hzero : c = 0
      · rw [hexec, resRepoint_of_vaultless hdesc hzero (hends.resolve_left (not_not_intro hzero))]
      · rw [hexec, resRepoint_of_refused hdesc hzero]
    · rw [resRepoint_of_closed hdesc hzero hvault hclosed] at hexec
      exact ⟨_, hexec, closes_resEnd hcode p (by decide)⟩
  case flashNow =>
    intro hwaits
    have hexec : exec (.flashNow p) s = .next (resFlashNow s p.val) := exec_of_waiting (row := (6, .flashNow)) (by simp [resRows]) hwaits
    refine ⟨fun hlast => ends_of_exec (by rw [hexec, resFlashNow_of_none hlast]) (by decide), ?_⟩
    intro c u e hlast hdesc hsound hevery hflash hdue hstore hrun himage
    have hkept := kept_flashImageTo s p.val ((c / rdEVERY (ckpt s p).desc + 1) % 2) c (.refl s)
    have hresult := flashImageTo_result_lt s p.val ((c / rdEVERY (ckpt s p).desc + 1) % 2) c
    rw [himage] at hkept hresult
    exact closes_of_exec (by rw [hexec, resFlashNow_of_free hlast hdesc hsound hevery hflash hdue hstore hrun himage]) hkept.code hresult
  case storeNow =>
    intro hwaits
    have hexec : exec (.storeNow p) s = .next (resStoreNow s p.val) := exec_of_waiting (row := (7, .storeNow)) (by simp [resRows]) hwaits
    refine ⟨fun hslot => ends_of_exec (by rw [hexec, resStoreNow_of_none hslot]) (by decide), ?_⟩
    intro hdesc hsound hfree hslot
    rw [resStoreNow_of_free hdesc hsound hfree hslot] at hexec
    refine ⟨fun hclosed => ends_of_exec (by rw [hexec, if_pos hclosed]) (by decide), fun hopen => closes_of_exec ?_ ?_ (by decide)⟩
    · rw [hexec, if_neg (by simp [hopen])]
    · exact (kept_storeStart s p.val (.refl s)).code

end Sys2Proof.Machine
end

section
/-! PROOFS of the integrity family: what counting and reporting leave alone, the end of a check-value run and of a scan (O27), and the
watchdogs and the takeover of the Curator's cores (O48). -/

namespace Sys2Proof.Machine

open Claims

/-- A register that neither an event, nor a Ledger counter, nor an error record, nor the journal's length changes: one between the header
of its page and its Ledger region (R52, R70, R506, R522). -/
def ownWord (a : Nat) : Prop :=
  ¬ eventWord a ∧ 0x100 ≤ a % 4096 ∧ a % 4096 < 0x840 ∧ a ≠ curPage 0 * 4096 + 0x118 ∧ a ≠ curPage 1 * 4096 + 0x118

theorem xPage_mod (x : Nat) {p : Nat} (hp : p < 256) : xPage x p % 256 = p := by
  unfold xPage
  split <;> omega

/-- The first 64 pages of an X-die, the transport page apart, are event-free. -/
theorem eventFree_xPage {x p : Nat} (hp : p < 0x40) (hzt : p ≠ 9) : eventFree (xPage x p) := by
  constructor
  · unfold xPage
    split <;> omega
  · intro y hy
    have hmod := xPage_mod x (show p < 256 by omega)
    rw [hy, ztPage, xPage_mod y (by decide)] at hmod
    exact hzt hmod.symm

theorem ownWord_xPage {x p off : Nat} (hp : p < 0x40) (hzt : p ≠ 9) (hjournal : p = 0x20 → off ≠ 0x118) (hlow : 0x100 ≤ off)
    (hhigh : off < 0x840) : ownWord (xPage x p * 4096 + off) := by
  have hmod := xPage_mod x (show p < 256 by omega)
  have hcur0 := xPage_mod 0 (show 0x20 < 256 by decide)
  have hcur1 := xPage_mod 1 (show 0x20 < 256 by decide)
  exact ⟨notEventWord (by omega) (eventFree_xPage hp hzt), by omega, by omega, by unfold curPage; omega, by unfold curPage; omega⟩

/-- From one state to another, stored bytes stand, own registers outside W stand, and no bit of EVT_RAW is cleared. -/
structure KeepsBytes (W : Nat → Prop) (s t : State) : Prop where
  mem : t.mem = s.mem
  regs : ∀ a, ownWord a → ¬ W a → regGet t a = regGet s a
  raw : RawGrows s t

/-- Error patterns and the Curator's cores stand besides. -/
structure KeepsCores (W : Nat → Prop) (s t : State) : Prop extends KeepsBytes W s t where
  guard : t.guard = s.guard
  active : t.boot.active = s.boot.active
  cores : t.boot.cores = s.boot.cores
  update : t.boot.update = s.boot.update

section
variable {W V : Nat → Prop} {s t u : State}

theorem KeepsBytes.refl (s : State) : KeepsBytes W s s := ⟨rfl, fun _ _ _ => rfl, fun _ _ h => h⟩

theorem KeepsBytes.trans (hst : KeepsBytes W s t) (htu : KeepsBytes W t u) : KeepsBytes W s u :=
  ⟨htu.mem.trans hst.mem, fun a hown hout => (htu.regs a hown hout).trans (hst.regs a hown hout), hst.raw.trans htu.raw⟩

theorem KeepsBytes.mono (h : KeepsBytes V s t) (hsub : ∀ a, V a → W a) : KeepsBytes W s t :=
  ⟨h.mem, fun a hown hout => h.regs a hown fun hv => hout (hsub a hv), h.raw⟩

theorem KeepsBytes.foldl {α : Type} {f : State → α → State} (hf : ∀ t x, KeepsBytes W t (f t x)) (l : List α) (s : State) :
    KeepsBytes W s (l.foldl f s) := by
  induction l generalizing s with
  | nil => exact .refl s
  | cons x r ih => exact (hf s x).trans (ih _)

/-- An own field outside W reads as before. -/
theorem KeepsBytes.rd (h : KeepsBytes W s t) {pg : Nat} {f : FRef} (hown : ownWord (pg * 4096 + f.off)) (hout : ¬ W (pg * 4096 + f.off)) :
    rd t pg f = rd s pg f := by
  rw [Machine.rd, h.regs _ hown hout, Machine.rd]

theorem KeepsCores.refl (s : State) : KeepsCores W s s := ⟨.refl s, rfl, rfl, rfl, rfl⟩

theorem KeepsCores.trans (hst : KeepsCores W s t) (htu : KeepsCores W t u) : KeepsCores W s u :=
  ⟨hst.toKeepsBytes.trans htu.toKeepsBytes, htu.guard.trans hst.guard, htu.active.trans hst.active, htu.cores.trans hst.cores,
    htu.update.trans hst.update⟩

theorem KeepsCores.mono (h : KeepsCores V s t) (hsub : ∀ a, V a → W a) : KeepsCores W s t :=
  ⟨h.toKeepsBytes.mono hsub, h.guard, h.active, h.cores, h.update⟩

theorem KeepsCores.foldl {α : Type} {f : State → α → State} (hf : ∀ t x, KeepsCores W t (f t x)) (l : List α) (s : State) :
    KeepsCores W s (l.foldl f s) := by
  induction l generalizing s with
  | nil => exact .refl s
  | cons x r ih => exact (hf s x).trans (ih _)

theorem KeepsCores.sameMemory (h : KeepsCores W s t) : SameMemory s t := ⟨h.mem, h.guard⟩

/-- A change of none of the fields that these relations speak of. -/
theorem KeepsCores.of_same (hregs : ∀ a, regGet t a = regGet s a) (hmem : SameMemory s t) (hactive : t.boot.active = s.boot.active)
    (hcores : t.boot.cores = s.boot.cores) (hupdate : t.boot.update = s.boot.update) : KeepsCores W s t :=
  ⟨⟨hmem.1, fun a _ _ => hregs a, .of_eq fun _ => hregs _⟩, hmem.2, hactive, hcores, hupdate⟩

theorem KeepsCores.of_event (h : EventOnly s t) (hregs : ∀ a, ownWord a → ¬ W a → regGet t a = regGet s a) (hraw : RawGrows s t) :
    KeepsCores W s t := by
  have hboot : t.boot = s.boot := by rw [h]
  exact ⟨⟨h.sameMemory.1, hregs, hraw⟩, h.sameMemory.2, by rw [hboot], by rw [hboot], by rw [hboot]⟩

end

/-! Each shared operation that counts or reports: it writes no own register but those it is told to. -/
section
variable {W : Nat → Prop} (s : State)

theorem keepsCores_regPut {a : Nat} (v : Nat) (hin : ownWord a → W a) (hraw : a % 4096 ≠ 0x20) : KeepsCores W s (regPut s a v) :=
  .of_event (eventOnly_regPut s a v)
    (fun b hown hout => regGet_regPut_ne s v fun e => hout (e ▸ hin (e ▸ hown)))
    (.of_eq fun pg => regGet_regPut_ne s v (by omega))

theorem keepsCores_wr {pg : Nat} {f : FRef} (v : Nat) (hin : W (pg * 4096 + f.off)) (hraw : f.off % 4096 ≠ 0x20) :
    KeepsCores W s (wr s pg f v) := keepsCores_regPut s _ (fun _ => hin) (by omega)

theorem keepsCores_raise (pg b : Nat) : KeepsCores W s (raise s pg b) :=
  .of_event (eventOnly_raise s pg b)
    (fun a ⟨hevent, hlow, _⟩ _ => regGet_raise s pg b a (by omega) hevent) (rawGrows_raise s pg b)

theorem keepsCores_tally (pg : Nat) {i : Nat} (w : Nat) (hi : i < 248) : KeepsCores W s (tally s pg i w) :=
  .of_event (eventOnly_tally s pg i w)
    (fun a ⟨hevent, hlow, hhigh, _⟩ _ => regGet_tally s pg i w a (by omega) (by omega) hevent) (rawGrows_tally s pg i w hi)

theorem keepsCores_recordErr (pg code : Nat) (part : Option Nat) (addr : Nat) (phys : Bool) (detail : Nat) :
    KeepsCores W s (recordErr s pg code part addr phys detail) :=
  .of_event (eventOnly_recordErr s pg code part addr phys detail)
    (fun a ⟨_, hlow, _⟩ _ => regGet_recordErr s pg code part addr phys detail a (by omega) (by omega))
    (.of_eq fun _ => regGet_recordErr s pg code part addr phys detail _ (by omega) (by omega))

theorem keepsCores_showJournal : KeepsCores W s (showJournal s) :=
  (keepsCores_regPut s _ (fun ⟨_, _, _, h, _⟩ => absurd rfl h) (by omega)).trans
    (keepsCores_regPut _ _ (fun ⟨_, _, _, _, h⟩ => absurd rfl h) (by omega))

theorem keepsCores_journalled (what : Nat) : KeepsCores W s (journalled s what) :=
  KeepsCores.trans (t := { s with boot := { s.boot with journal := s.boot.journal ++ [⟨what, true⟩] } })
    (.of_same (fun _ => rfl) ⟨rfl, rfl⟩ rfl rfl rfl) (keepsCores_showJournal _)

theorem keepsCores_putRecord (r : CurRec) : KeepsCores W s (putRecord s r) :=
  KeepsCores.trans (t := { s with boot := { s.boot with rcd := r, copies := writeCopy s.boot.copies r } })
    (.of_same (fun _ => rfl) ⟨rfl, rfl⟩ rfl rfl rfl) (keepsCores_journalled _ _)

theorem keepsCores_degradeStack (k : Nat) : KeepsCores W s (degradeStack s k) := by
  unfold degradeStack
  dsimp only
  split
  · exact keepsCores_raise s _ _
  · exact (keepsCores_raise s _ _).trans (keepsCores_putRecord _ _)

theorem keepsCores_badChannel (a : Nat) : KeepsCores W s (badChannel s a) := by
  have hcounted : ∀ (words : Tab (Nat × Nat)) (pg : Nat), KeepsCores W s (tally { s with badWords := words } pg 4 1) := fun words pg =>
    KeepsCores.trans (t := { s with badWords := words }) (.of_same (fun _ => rfl) ⟨rfl, rfl⟩ rfl rfl rfl)
      (keepsCores_tally _ pg 1 (by decide))
  unfold badChannel
  dsimp only
  split
  · split
    · exact (hcounted _ _).trans (keepsCores_degradeStack _ _)
    · exact hcounted _ _
  · exact hcounted _ _

theorem wordPlace_lt (code : OrderCode) (a : Nat) : wordPlace code a < 3 := by
  unfold wordPlace
  split
  · decide
  · split <;> decide

theorem keepsCores_countBad (pg a : Nat) : KeepsCores W s (countBad s pg a) := by
  have hcounted : KeepsCores W s (tally s pg (6 + wordPlace s.code a) 1) :=
    keepsCores_tally s pg 1 (by have := wordPlace_lt s.code a; omega)
  unfold countBad
  dsimp only
  split
  · exact .refl s
  · split
    · exact hcounted.trans (keepsCores_badChannel _ _)
    · exact hcounted

theorem keepsCores_recordBad (pg : Nat) (part : Option Nat) (a : Nat) : KeepsCores W s (recordBad s pg part a) :=
  (keepsCores_recordErr s _ _ _ _ _ _).trans (keepsCores_countBad _ _ _)

theorem keepsCores_countWord (pg a : Nat) : KeepsCores W s (countWord s pg a) := by
  have hcounted : KeepsCores W s (tally s pg (wordPlace s.code a) 1) :=
    keepsCores_tally s pg 1 (by have := wordPlace_lt s.code a; omega)
  unfold countWord
  dsimp only
  split
  · exact hcounted.trans (keepsCores_tally _ _ _ (by decide))
  · exact hcounted

theorem keepsCores_countWords (pg : Nat) (gs : List Nat) : KeepsCores W s (countWords s pg gs) :=
  KeepsCores.trans (t := countRows s gs) (.of_same (fun _ => rfl) ⟨rfl, rfl⟩ rfl rfl rfl)
    (.foldl (fun t g => keepsCores_countWord t pg g) gs _)

theorem keepsCores_touchStack (a : Nat) : KeepsCores W s (touchStack s a) := by
  unfold touchStack
  split
  · exact .of_same (fun _ => rfl) ⟨rfl, rfl⟩ rfl rfl rfl
  · exact .refl s

theorem keepsBytes_healGranule (g : Nat) : KeepsBytes W s (healGranule s g) := by
  unfold healGranule
  split
  · exact ⟨rfl, fun _ _ _ => rfl, fun _ _ h => h⟩
  · exact .refl s

/-- A read corrects error patterns, and counts what it corrected (R229, R440). -/
theorem keepsBytes_healRange (a n : Nat) : KeepsBytes W s (healRange s a n) := by
  have htouch : KeepsBytes W s (touchStack s a) := (keepsCores_touchStack s a).toKeepsBytes
  unfold healRange
  dsimp only
  split
  · exact htouch
  · exact (htouch.trans (keepsCores_countWords _ _ _).toKeepsBytes).trans (.foldl keepsBytes_healGranule _ _)

theorem keepsBytes_vheal (p va n : Nat) : KeepsBytes W s (vheal s p va n) := by
  refine .foldl (fun t r => ?_) _ s
  split
  · exact keepsBytes_healRange t _ _
  · exact .refl t

end

/-! The check-value units (R449-R452). -/

theorem eventFree_cvPage (x : Nat) : eventFree (cvPage x) := eventFree_xPage (by decide) (by decide)

theorem ownWord_cvPage (x : Nat) {off : Nat} (hlow : 0x100 ≤ off) (hhigh : off < 0x840) : ownWord (cvPage x * 4096 + off) :=
  ownWord_xPage (by decide) (by decide) (absurd · (by decide)) hlow hhigh

/-- The registers of an X-die's check-value units. -/
def cvWord (x a : Nat) : Prop := a / 4096 = cvPage x

section
variable (s : State) (x : Nat) {u : Nat} (hu : u < 8)
include hu

theorem keepsCores_wr_unit (off lo w v : Nat) (hoff : off < 0x40) : KeepsCores (cvWord x) s (wr s (cvPage x) (fCV u off lo w) v) :=
  keepsCores_wr s v (by simp only [cvWord, fCV]; omega) (by simp only [fCV]; omega)

theorem keepsCores_cvTake (bs : List Byte) : KeepsCores (cvWord x) s (cvTake s x u bs) :=
  ((keepsCores_wr_unit s x hu _ _ _ _ (by decide)).trans (keepsCores_wr_unit _ x hu _ _ _ _ (by decide))).trans
    (keepsCores_tally _ _ _ (by omega))

theorem rd_cvTake_value (bs : List Byte) : rd (cvTake s x u bs) (cvPage x) (fCVVALUE u) =
    cvFeed (rd s (cvPage x) (fCV u 0 0 1)) (rd s (cvPage x) (fCVVALUE u)) bs % 2 ^ 64 := by
  rw [cvTake, rd_tally_middle _ (eventFree_cvPage x) _ _ (by simp only [fCVVALUE, fCV]; omega) (by simp only [fCVVALUE, fCV]; omega),
    rd_wr_off _ _ _ _ _ (by simp [fCVVALUE, fCVFED, fCV]), rd_wr_same _ _ _ _ (by simp [fCVVALUE, fCV])]
  rfl

theorem rd_cvTake_fed (bs : List Byte) :
    rd (cvTake s x u bs) (cvPage x) (fCVFED u) = (rd s (cvPage x) (fCVFED u) + bs.length) % 2 ^ 48 := by
  rw [cvTake, rd_tally_middle _ (eventFree_cvPage x) _ _ (by simp only [fCVFED, fCV]; omega) (by simp only [fCVFED, fCV]; omega),
    rd_wr_same _ _ _ _ (by simp [fCVFED, fCV])]
  rfl

/-- The end of a run: DONE, the comparison of CMP, and counts and events of the page (R451, R467). -/
theorem cvEnd_induction {P : State → Prop} (hdone : P (wr s (cvPage x) (fCVSTATE u) 2))
    (hmatch : ∀ t v, P t → P (wr t (cvPage x) (fCV u 0x30 2 1) v)) (hmismatch : ∀ t v, P t → P (wr t (cvPage x) (fCV u 0x30 3 1) v))
    (hcount : ∀ t i, i < 248 → P t → P (tally t (cvPage x) i 1)) (hevent : ∀ t b, P t → P (raise t (cvPage x) b)) : P (cvEnd s x u) := by
  have hended := hcount _ (3 * u + 1) (by omega) hdone
  have hjudged := fun v v' => hmismatch _ v' (hmatch _ v hended)
  unfold cvEnd
  extract_lets pg w same s1 judged compared
  refine hevent _ _ ?compared
  case compared =>
    simp only [compared]
    split
    · exact hended
    · split
      · exact hjudged _ _
      · exact hevent _ _ (hcount _ (3 * u + 2) (by omega) (hjudged _ _))

/-- STATUS beside MATCH and MISMATCH reads as the new STATE leaves it. -/
theorem rd_cvEnd_status {lo w : Nat} (hbits : lo + w ≤ 2 ∨ 4 ≤ lo) :
    rd (cvEnd s x u) (cvPage x) (fCV u 0x30 lo w) = rd (wr s (cvPage x) (fCVSTATE u) 2) (cvPage x) (fCV u 0x30 lo w) := by
  have hlow : 0x100 ≤ (fCV u 0x30 lo w).off := by simp only [fCV]; omega
  have hhigh : (fCV u 0x30 lo w).off < 0x840 := by simp only [fCV]; omega
  have hother : ∀ t i v, 2 ≤ i ∧ i < 4 → rd (wr t (cvPage x) (fCV u 0x30 i 1) v) (cvPage x) (fCV u 0x30 lo w) =
      rd t (cvPage x) (fCV u 0x30 lo w) := fun t i v hi =>
    rd_wr_ne t _ _ v _ _ (by simp only [fCV]; omega) (.inr (by simp only [fCV]; omega))
  exact cvEnd_induction s x hu (P := fun t => rd t (cvPage x) (fCV u 0x30 lo w) = _) rfl
    (fun t v h => (hother t 2 v (by decide)).trans h) (fun t v h => (hother t 3 v (by decide)).trans h)
    (fun t i _ h => (rd_tally_middle t (eventFree_cvPage x) i 1 hlow hhigh).trans h)
    (fun t b h => (rd_raise t _ b _ _ (by omega) (by omega) (eventFree_cvPage x)).trans h)

theorem rd_cvEnd_state : rd (cvEnd s x u) (cvPage x) (fCVSTATE u) = 2 := by
  rw [fCVSTATE, rd_cvEnd_status s x hu (by decide), fCVSTATE, rd_wr_same _ _ _ _ (by simp [fCV])]
  rfl

theorem rd_cvEnd_fed : rd (cvEnd s x u) (cvPage x) (fCVFED u) = rd s (cvPage x) (fCVFED u) := by
  rw [fCVFED, rd_cvEnd_status s x hu (by decide), fCVSTATE, rd_wr_ne _ _ _ _ _ _ (by simp [fCV]) (.inr (by simp [fCV]))]

theorem keepsCores_cvEnd : KeepsCores (fun a => a = cvPage x * 4096 + (fCVSTATE u).off) s (cvEnd s x u) := by
  have hstatus : ∀ t lo w v, KeepsCores (fun a => a = cvPage x * 4096 + (fCVSTATE u).off) t (wr t (cvPage x) (fCV u 0x30 lo w) v) :=
    fun t lo w v => keepsCores_wr t v rfl (by simp only [fCV]; omega)
  exact cvEnd_induction s x hu (P := KeepsCores _ s) (hstatus _ _ _ _) (fun t v h => h.trans (hstatus t _ _ v))
    (fun t v h => h.trans (hstatus t _ _ v)) (fun t i hi h => h.trans (keepsCores_tally t _ 1 hi))
    (fun t b h => h.trans (keepsCores_raise t _ b))

theorem rd_cvEnd_value : rd (cvEnd s x u) (cvPage x) (fCVVALUE u) = rd s (cvPage x) (fCVVALUE u) :=
  (keepsCores_cvEnd s x hu).rd (ownWord_cvPage x (by simp only [fCVVALUE, fCV]; omega) (by simp only [fCVVALUE, fCV]; omega))
    (by simp [fCVVALUE, fCVSTATE, fCV])

omit hu in
/-- A failed run is ABORTED, and its reason recorded (R441, R448, R452). -/
theorem keepsCores_cvFail (part va : Nat) (e : AccErr) :
    KeepsCores (fun _ => False) (wr s (cvPage x) (fCVSTATE u) 3) (cvFail s x u part va e) := by
  unfold cvFail
  cases e with
  | fault c level1 toCurator => exact keepsCores_recordErr _ _ _ _ _ _ _
  | table a level1 => exact keepsCores_recordBad _ _ _ _
  | owner a => exact keepsCores_recordErr _ _ _ _ _ _ _
  | data a => exact keepsCores_recordBad _ _ _ _

theorem rd_cvFail_state (part va : Nat) (e : AccErr) : rd (cvFail s x u part va e) (cvPage x) (fCVSTATE u) = 3 := by
  rw [(keepsCores_cvFail s x part va e).rd
    (ownWord_cvPage x (by simp only [fCVSTATE, fCV]; omega) (by simp only [fCVSTATE, fCV]; omega)) not_false,
    rd_wr_same _ _ _ _ (by simp [fCVSTATE, fCV])]
  rfl

end

/-- The bytes that the next read of a run takes: no more than its aligned 4 KiB holds (R452). -/
def readLength (a n : Nat) : Nat := min n (4096 - a % 4096)

/-- The state once that read has corrected the errors it met (R229, R451). -/
def readHealed (s : State) (phys : Bool) (part a n : Nat) : State :=
  if phys then healRange s a (readLength a n) else vheal s part a (readLength a n)

section
variable {s : State} {x u : Nat} {phys : Bool} {part : Nat}

/-- A run has ended: DONE or ABORTED, with the bytes of memory as they were (R452). -/
def CvEnded (x u : Nat) (s t : State) : Prop :=
  t.mem = s.mem ∧ (rd t (cvPage x) (fCVSTATE u) = 2 ∨ rd t (cvPage x) (fCVSTATE u) = 3)

theorem cvEnded_cvEnd (hu : u < 8) : CvEnded x u s (cvEnd s x u) := ⟨(keepsCores_cvEnd s x hu).mem, .inl (rd_cvEnd_state s x hu)⟩

theorem cvEnded_cvFail (hu : u < 8) (va : Nat) (e : AccErr) : CvEnded x u s (cvFail s x u part va e) :=
  ⟨(keepsCores_cvFail s x part va e).mem, .inr (rd_cvFail_state s x hu part va e)⟩

/-- A run with nothing left ends (R452). -/
theorem cvRun_of_nothing (fuel a : Nat) : cvRun s x u phys part (fuel + 1) a 0 = cvEnd s x u := by simp only [cvRun, if_true]

/-- One read of a run that the unit may make: its bytes are fed, and the run goes on (R452). -/
theorem cvRun_of_read {fuel a n : Nat} {bs : List Byte} (hn : n ≠ 0) (hread : cvRead s phys part a (readLength a n) = .ok bs) :
    cvRun s x u phys part (fuel + 1) a n =
      cvRun (cvTake (readHealed s phys part a n) x u bs) x u phys part fuel (a + readLength a n) (n - readLength a n) := by
  unfold readLength at hread
  simp only [cvRun, if_neg hn, hread, readHealed, readLength]

theorem cvRun_of_refused {fuel a n : Nat} {e : Nat × AccErr} (hn : n ≠ 0) (hread : cvRead s phys part a (readLength a n) = .error e) :
    cvRun s x u phys part (fuel + 1) a n = cvFail s x u part e.1 e.2 := by
  unfold readLength at hread
  simp only [cvRun, if_neg hn, hread]

theorem readHealed_mem (a n : Nat) : (readHealed s phys part a n).mem = s.mem := by
  unfold readHealed
  split
  · exact (keepsBytes_healRange (W := fun _ => False) s _ _).mem
  · exact (keepsBytes_vheal (W := fun _ => False) s _ _ _).mem

/-- Enough fuel for every aligned 4 KiB that a run has left takes it to its end (R452). -/
theorem cvRun_ends (hu : u < 8) (fuel a n : Nat) (hfuel : n = 0 ∨ a % 4096 + n ≤ 4096 * fuel) :
    CvEnded x u s (cvRun s x u phys part (fuel + 1) a n) := by
  induction fuel generalizing s a n with
  | zero =>
    obtain rfl : n = 0 := by omega
    rw [cvRun_of_nothing]
    exact cvEnded_cvEnd hu
  | succ k ih =>
    by_cases hn : n = 0
    · rw [hn, cvRun_of_nothing]
      exact cvEnded_cvEnd hu
    · cases hread : cvRead s phys part a (readLength a n) with
      | error e =>
        rw [cvRun_of_refused hn hread]
        exact cvEnded_cvFail hu _ _
      | ok bs =>
        rw [cvRun_of_read hn hread]
        obtain ⟨hmem, hstate⟩ := ih (a + readLength a n) (n - readLength a n) (by unfold readLength; omega)
        exact ⟨hmem.trans ((keepsCores_cvTake _ x hu bs).mem.trans (readHealed_mem a n)), hstate⟩

end

/-- The bytes that a load delivers are as many as were asked for. -/
theorem length_of_load {s : State} {a n : Nat} {bs : List Byte} (hload : load s a n = .ok bs) : bs.length = n := by
  unfold load at hload
  split at hload
  · cases hload
  · cases hload
    rw [List.length_map, List.length_range]

theorem cvRead_of_physical {s : State} {part a n : Nat} {bs : List Byte} (hin : inMemory s.code a n = true) (hload : load s a n = .ok bs) :
    cvRead s true part a n = .ok bs := by simp only [cvRead, hin, hload, if_true]

section
variable {s : State} {x : Fin 6} {u : Fin 8}

theorem exec_cvRunComplete_of_live (hlive : Live s) : exec (.cvRunComplete x u) s = .next (cvComplete s x.val u.val) :=
  congrArg Host.Outcome.next (alive_of_live hlive _)

theorem cvComplete_of_idle {x u : Nat} (hidle : rd s (cvPage x) (fCVSTATE u) ≠ 1) : cvComplete s x u = s :=
  if_neg fun ⟨_, _, hbusy, _⟩ => hidle hbusy

variable (hx : x.val < xdieCount s.code) (hruns : running s (cvPage x.val) = true)
  (hbusy : rd s (cvPage x.val) (fCVSTATE u.val) = 1) (hscan : rd s (cvPage x.val) (fCVSCAN u.val) = 0)
include hx hruns hbusy hscan

theorem cvEnded_cvComplete : CvEnded x.val u.val s (cvComplete s x.val u.val) := by
  unfold cvComplete
  rw [if_pos ⟨hx, hruns, hbusy, hscan⟩]
  exact cvRun_ends u.isLt _ _ _ (.inr (by omega))

/-- A run of one physical read takes its bytes into VALUE, and ends (R451, R452). -/
theorem cvComplete_of_one_read {a n : Nat} {bs : List Byte} (hmodule : pageOwner s (cvPage x.val) = none)
    (hphys : rd s (cvPage x.val) (fCV u.val 0 2 1) = 1) (hfed : rd s (cvPage x.val) (fCVFED u.val) = 0)
    (ha : a = rd s (cvPage x.val) (fCV u.val 8 0 48)) (hn : n = rd s (cvPage x.val) (fCV u.val 0x10 0 48)) (hpos : 0 < n)
    (hone : a % 4096 + n ≤ 4096) (hin : inMemory s.code a n = true) (hload : load s a n = .ok bs) :
    cvComplete s x.val u.val = cvEnd (cvTake (healRange s a n) x.val u.val bs) x.val u.val := by
  have hwhole : readLength a n = n := by unfold readLength; omega
  have hread : cvRead s true (rd s (cvPage x.val) (fCV u.val 0 4 6)) a (readLength a n) = .ok bs := by
    rw [hwhole]
    exact cvRead_of_physical hin hload
  have hrun := cvRun_of_read (x := x.val) (u := u.val) (fuel := n / 4096 + 2) (by omega) hread
  rw [readHealed, if_pos rfl, hwhole, Nat.sub_self, cvRun_of_nothing] at hrun
  unfold cvComplete
  rw [if_pos ⟨hx, hruns, hbusy, hscan⟩]
  simp only [hmodule, hphys, hfed, ← ha, ← hn, Option.isNone_none, Option.getD_none, beq_self_eq_true, Bool.and_self, Nat.sub_zero, Nat.add_zero]
  exact hrun

end

/-- The units of an X-die read as before after a healed read. -/
theorem rd_healRange_unit (s : State) (a n x : Nat) {u off lo w : Nat} (hu : u < 8) (hoff : off < 0x40) :
    rd (healRange s a n) (cvPage x) (fCV u off lo w) = rd s (cvPage x) (fCV u off lo w) :=
  (keepsBytes_healRange (W := fun _ => False) s a n).rd (ownWord_cvPage x (by simp only [fCV]; omega) (by simp only [fCV]; omega)) not_false

theorem checkRunsEnd : CheckRunsEnd := by
  intro s x u hlive hx
  simp only [exec_cvRunComplete_of_live hlive, Host.Outcome.next.injEq, exists_eq_left']
  refine ⟨cvComplete_of_idle, fun hruns hbusy hscan => ?_⟩
  obtain ⟨hmem, hended⟩ := cvEnded_cvComplete hx hruns hbusy hscan
  refine ⟨hmem, hended, ?oneRead⟩
  case oneRead =>
    intro a n bs hmodule hphys hfed ha hn hpos hone hin hload
    rw [cvComplete_of_one_read hx hruns hbusy hscan hmodule hphys hfed ha hn hpos hone hin hload]
    refine ⟨rfl, rd_cvEnd_state _ _ u.isLt, ?fed, ?value⟩
    case fed =>
      rw [rd_cvEnd_fed _ _ u.isLt, rd_cvTake_fed _ _ u.isLt, fCVFED, rd_healRange_unit _ _ _ _ u.isLt (by decide), ← fCVFED, hfed,
        length_of_load hload, Nat.zero_add, Nat.mod_eq_of_lt (by omega)]
    case value =>
      rw [rd_cvEnd_value _ _ u.isLt, rd_cvTake_value _ _ u.isLt, fCVVALUE, rd_healRange_unit _ _ _ _ u.isLt (by decide),
        rd_healRange_unit _ _ _ _ u.isLt (by decide)]

/-! The memory scans (R453). -/

theorem ownWord_scanPage (x : Nat) {off : Nat} (hlow : 0x100 ≤ off) (hhigh : off < 0x840) : ownWord (scanPage x * 4096 + off) :=
  ownWord_xPage (by decide) (by decide) (absurd · (by decide)) hlow hhigh

theorem scanPage_ne_cvPage (x : Nat) : scanPage x ≠ cvPage x := by
  intro h
  have hscan := xPage_mod x (show 0x0C < 256 by decide)
  have hcv := xPage_mod x (show 0x0B < 256 by decide)
  unfold scanPage cvPage at h
  omega

theorem rd_fSCUNIT_lt (s : State) (pg : Nat) : rd s pg fSCUNIT < 8 := rd_lt s pg fSCUNIT

/-- A scan once its STATE is written, with its event where it reached its end (R453, R469). -/
def scanStopped (s : State) (x st : Nat) : State :=
  if st = 2 then raise (wr s (scanPage x) fSCSTATE st) (scanPage x) 8 else wr s (scanPage x) fSCSTATE st

/-- What is left of a scan's end is the end of the unit that it feeds. -/
theorem keepsCores_scanEnd (s : State) (x st : Nat) : KeepsCores (cvWord x) (scanStopped s x st) (scanEnd s x st) := by
  have hu := rd_fSCUNIT_lt s (scanPage x)
  unfold scanEnd
  extract_lets pg u fed s1 s2 s3
  have hfree : KeepsCores (cvWord x) s2 s3 := keepsCores_wr_unit s2 x hu _ _ _ _ (by decide)
  change KeepsCores (cvWord x) s2 _
  split
  · split
    · split
      · exact hfree.trans ((keepsCores_cvEnd s3 x hu).mono fun a ha => by simp only [ha, cvWord, fCVSTATE, fCV]; omega)
      · exact hfree.trans (keepsCores_wr_unit s3 x hu _ _ _ _ (by decide))
    · exact hfree
  · exact .refl s2

theorem rd_scanEnd_state (s : State) (x : Nat) {st : Nat} (hst : st < 4) : rd (scanEnd s x st) (scanPage x) fSCSTATE = st := by
  have hstopped : rd (scanStopped s x st) (scanPage x) fSCSTATE = rd (wr s (scanPage x) fSCSTATE st) (scanPage x) fSCSTATE := by
    unfold scanStopped
    split
    · exact (keepsCores_raise (W := fun _ => False) _ _ _).rd (ownWord_scanPage x (by decide) (by decide)) not_false
    · rfl
  rw [(keepsCores_scanEnd s x st).rd (ownWord_scanPage x (by decide) (by decide))
      (fun h => scanPage_ne_cvPage x (by simp only [cvWord, fSCSTATE] at h; omega)),
    hstopped, rd_wr_same _ _ _ _ (by decide)]
  exact Nat.mod_eq_of_lt hst

/-- A scan's end leaves memory and its error patterns as they were. -/
theorem sameMemory_scanEnd (s : State) (x st : Nat) : SameMemory s (scanEnd s x st) := by
  obtain ⟨hmem, hguard⟩ := (keepsCores_scanEnd s x st).sameMemory
  have hstopped : SameMemory s (scanStopped s x st) := by
    unfold scanStopped
    split
    · exact (keepsCores_raise (W := fun _ => False) (wr s (scanPage x) fSCSTATE st) _ _).sameMemory
    · exact ⟨rfl, rfl⟩
  exact ⟨hmem.trans hstopped.1, hguard.trans hstopped.2⟩

/-- Bit 8 of EVT_RAW reports a scan that reached its end (R453, R469). -/
theorem scanEnd_event (s : State) (x : Nat) : (rd (scanEnd s x 2) (scanPage x) fEVTRAW).testBit 8 = true :=
  (keepsCores_scanEnd s x 2).raw _ _ (raise_testBit _ _ _ (by decide))

/-- Every register but SCAN_CFG of an X-die's scan page. -/
def besideScanCfg (x a : Nat) : Prop := a ≠ scanPage x * 4096 + 0x110

/-- A scan on its way: stored bytes and its configuration stand, and error patterns too unless it writes corrections back (R453). -/
def ScansOn (x : Nat) (s t : State) : Prop :=
  KeepsBytes (besideScanCfg x) s t ∧ (rd s (scanPage x) ⟨0x110, 6, 1⟩ = 0 → t.guard = s.guard)

section
variable {s t u : State} {x : Nat}

theorem ScansOn.of_keeps (h : KeepsCores (besideScanCfg x) s t) : ScansOn x s t := ⟨h.toKeepsBytes, fun _ => h.guard⟩

theorem ScansOn.refl (s : State) : ScansOn x s s := .of_keeps (.refl s)

theorem ScansOn.rd_heal (h : ScansOn x s t) : rd t (scanPage x) ⟨0x110, 6, 1⟩ = rd s (scanPage x) ⟨0x110, 6, 1⟩ :=
  h.1.rd (ownWord_scanPage x (by decide) (by decide)) (not_not_intro rfl)

theorem ScansOn.trans (hst : ScansOn x s t) (htu : ScansOn x t u) : ScansOn x s u :=
  ⟨hst.1.trans htu.1, fun hkeeps => (htu.2 (hst.rd_heal.trans hkeeps)).trans (hst.2 hkeeps)⟩

end

section
variable (s : State) (x a : Nat)

theorem keepsCores_scanWr {f : FRef} (v : Nat) (hoff : f.off ≠ 0x110) (hraw : f.off % 4096 ≠ 0x20) :
    KeepsCores (besideScanCfg x) s (wr s (scanPage x) f v) := keepsCores_wr s v (by simp only [besideScanCfg]; omega) hraw

theorem besideScanCfg_of_cvWord {b : Nat} (h : cvWord x b) : besideScanCfg x b := by
  intro e
  refine scanPage_ne_cvPage x ?_
  simp only [cvWord] at h
  omega

theorem scansOn_scanFeed : ScansOn x s (scanFeed s x a) := by
  unfold scanFeed
  dsimp only
  split
  · exact .of_keeps ((keepsCores_cvTake s x (rd_fSCUNIT_lt s _) _).mono fun b => besideScanCfg_of_cvWord x)
  · exact .refl s

theorem scansOn_scanBad : ScansOn x s (scanBad s x a) := by
  unfold scanBad
  extract_lets pg u s1 s2 s3
  have hcount : KeepsCores (besideScanCfg x) s s1 := keepsCores_scanWr s x _ (by decide) (by decide)
  have hfirst : KeepsCores (besideScanCfg x) s1 s2 := by
    simp only [s2]
    split
    · exact .refl s1
    · exact keepsCores_regPut s1 _ (fun _ => by simp only [besideScanCfg, pg]; omega) (by omega)
  have hreport : KeepsCores (besideScanCfg x) s2 s3 :=
    ((keepsCores_recordErr s2 _ _ _ _ _ _).trans (keepsCores_raise _ _ _)).trans (keepsCores_countBad _ _ _)
  have hmet := (hcount.trans hfirst).trans hreport
  split
  · exact .of_keeps ((hmet.trans ((keepsCores_wr_unit s3 x (rd_fSCUNIT_lt s _) _ _ _ _ (by decide)).mono
      fun b => besideScanCfg_of_cvWord x)).trans (keepsCores_recordErr _ _ _ _ _ _ _))
  · exact .of_keeps hmet

/-- A corrected word is written back where SCAN_CFG says so (R453). -/
theorem scansOn_writeBack {s t : State} (h : ScansOn x s t) :
    ScansOn x s (if rd s (scanPage x) ⟨0x110, 6, 1⟩ = 1 then healGranule t a else t) := by
  split
  · next hheals => exact ⟨h.1.trans (keepsBytes_healGranule t a), fun hkeeps => by omega⟩
  · exact h

/-- DONE_BYTES and the Ledger's count of one granule (R453, R529). -/
theorem scansOn_count (v : Nat) : ScansOn x s (tally (wr s (scanPage x) fSCBYTES v) (scanPage x) 17 32) :=
  .of_keeps ((keepsCores_scanWr s x _ (by decide) (by decide)).trans (keepsCores_tally _ _ _ (by decide)))

end

/-- Each granule lets the scan go on, until it reaches its end or an uncorrectable word stops it (R453). -/
theorem scanRun_ends (x n : Nat) (s : State) (a : Nat) :
    ∃ u st, scanRun s x n a = scanEnd u x st ∧ (st = 2 ∨ st = 3) ∧ ScansOn x s u := by
  induction n generalizing s a with
  | zero => exact ⟨s, 2, rfl, .inl rfl, .refl s⟩
  | succ k ih =>
    have hgoes : ∀ t, ScansOn x s t → ∃ u st, scanRun t x k (a + 32) = scanEnd u x st ∧ (st = 2 ∨ st = 3) ∧ ScansOn x s u := by
      intro t ht
      obtain ⟨u, st, hrun, hst, hu⟩ := ih t (a + 32)
      exact ⟨u, st, hrun, hst, ht.trans hu⟩
    have hcounted := scansOn_count s x (rd s (scanPage x) fSCBYTES + 32)
    have hnoted : ∀ t v gs, ScansOn x t (countWords (scanFeed (wr t (scanPage x) ⟨0x128, 0, 32⟩ v) x a) (scanPage x) gs) := fun t v gs =>
      ((ScansOn.of_keeps (keepsCores_scanWr t x v (by decide) (by decide))).trans (scansOn_scanFeed _ x a)).trans
        (.of_keeps (keepsCores_countWords _ _ _))
    rw [scanRun]
    cases granuleCheck s a with
    | clean => exact hgoes _ (hcounted.trans (scansOn_scanFeed _ _ _))
    | corrected p v => exact hgoes _ (scansOn_writeBack x a (hcounted.trans (hnoted _ _ _)))
    | bad =>
      dsimp only
      split
      · exact ⟨_, 3, rfl, .inr rfl, hcounted.trans (scansOn_scanBad _ _ _)⟩
      · exact hgoes _ (hcounted.trans (scansOn_scanBad _ _ _))

theorem exec_scanComplete_of_live {s : State} {x : Fin 6} (hlive : Live s) : exec (.scanComplete x) s = .next (scanComplete s x.val) :=
  congrArg Host.Outcome.next (alive_of_live hlive _)

theorem scanComplete_of_idle {s : State} {x : Nat} (hidle : rd s (scanPage x) fSCSTATE ≠ 1) : scanComplete s x = s :=
  if_neg fun ⟨_, _, hbusy⟩ => hidle hbusy

section
variable {s : State} {x : Fin 6} (hx : x.val < xdieCount s.code) (hruns : running s (scanPage x.val) = true)
  (hbusy : rd s (scanPage x.val) fSCSTATE = 1)
include hx hruns hbusy

theorem scanComplete_ends : ∃ u st, scanComplete s x.val = scanEnd u x.val st ∧ (st = 2 ∨ st = 3) ∧ ScansOn x.val s u := by
  unfold scanComplete
  rw [if_pos ⟨hx, hruns, hbusy⟩]
  exact scanRun_ends x.val _ s _

/-- With less than a granule left, the scan is at its end (R453). -/
theorem scanComplete_of_nothing (hnothing : rd s (scanPage x.val) ⟨0x108, 0, 48⟩ - rd s (scanPage x.val) fSCBYTES < 32) :
    scanComplete s x.val = scanEnd s x.val 2 := by
  unfold scanComplete
  rw [if_pos ⟨hx, hruns, hbusy⟩]
  simp only [Nat.div_eq_of_lt hnothing, Nat.zero_min, ite_self]
  rfl

end

theorem scansEnd : ScansEnd := by
  intro s x hlive hx
  simp only [exec_scanComplete_of_live hlive, Host.Outcome.next.injEq, exists_eq_left']
  refine ⟨scanComplete_of_idle, fun hruns hbusy => ?_⟩
  obtain ⟨u, st, hrun, hst, hscans⟩ := scanComplete_ends hx hruns hbusy
  obtain ⟨hmem, hguard⟩ := sameMemory_scanEnd u x.val st
  refine ⟨by rw [hrun, hmem, hscans.1.mem], ?state, fun hkeeps => by rw [hrun, hguard, hscans.2 hkeeps], fun hnothing => ?nothing⟩
  case state =>
    rw [hrun, rd_scanEnd_state u x.val (by omega)]
    exact hst
  case nothing =>
    rw [scanComplete_of_nothing hx hruns hbusy hnothing]
    exact ⟨rd_scanEnd_state s x.val (by decide), scanEnd_event s x.val⟩

/-- Settles O27: a run and a scan end by induction on the reads and the granules that they have left; each of these counts and reports, and
changes no stored byte. -/
theorem checksAndScansEnd : Obligations.ChecksAndScansEnd := ⟨checkRunsEnd, scansEnd⟩

/-! What the Curator's rows report (R70, R506, R511). -/
section
variable {W : Nat → Prop} (s : State)

theorem keepsCores_vecRaise {v : Nat} (pg : Nat) (hv : v < 4096) : KeepsCores W s (vecRaise s v pg) :=
  .of_event (eventOnly_vecRaise s v pg) (fun a ⟨hevent, _⟩ _ => regGet_vecRaise s v pg a hv hevent)
    (rawGrows_vecRaiseBy rawGrows_countEvent s v pg)

theorem keepsCores_vecTry {v : Nat} (hv : v < 4096) : KeepsCores W s (vecTry s v) :=
  .of_event (eventOnly_vecTry s v) (fun a ⟨hevent, _⟩ _ => regGet_vecTry s v a hv hevent) (rawGrows_vecTryBy rawGrows_countEvent s v)

theorem keepsCores_raiseZero (pg b : Nat) : KeepsCores W s (raiseZero s pg b) :=
  .of_event (eventOnly_raiseZero s pg b) (fun a ⟨hevent, hlow, _⟩ _ => regGet_raiseZero s pg b a (by omega) hevent)
    ((rawGrows_markEvent s pg b true).trans (rawGrows_vecRaiseBy rawGrows_countEvent _ _ _))

/-- An event of vector 0 stands in EVT_RAW too (R70). -/
theorem raiseZero_testBit (pg : Nat) {b : Nat} (hb : b < 64) : (rd (raiseZero s pg b) pg fEVTRAW).testBit b = true := by
  have hmarked : (rd (markEvent s pg b true) pg fEVTRAW).testBit b = true := by
    rw [rd_markEvent, Nat.testBit_mod_two_pow, Nat.testBit_or, Nat.testBit_shiftLeft]
    simp [hb]
  exact rawGrows_vecRaiseBy rawGrows_countEvent _ _ _ _ _ hmarked

theorem keepsCores_journalClose (what : Nat) : KeepsCores W s (journalClose s what) :=
  KeepsCores.trans (t := { s with boot := { s.boot with journal := closeFirst s.boot.journal what } })
    (.of_same (fun _ => rfl) ⟨rfl, rfl⟩ rfl rfl rfl) (keepsCores_showJournal _)

theorem keepsCores_mailDone (i k result : Nat) (data : List Byte) : KeepsCores W s (mailDone s i k result data) := by
  unfold mailDone
  extract_lets m s0 s1 v pg s2
  have hanswered : KeepsCores W s s0 := .of_same (fun _ => rfl) ⟨rfl, rfl⟩ rfl rfl rfl
  have hclosed : KeepsCores W s0 s1 := by
    simp only [s1]
    split
    · exact keepsCores_journalClose s0 4
    · exact keepsCores_journalled s0 4
  have hreported : KeepsCores W s s2 := (hanswered.trans hclosed).trans (keepsCores_raise s1 pg 11)
  split
  · next hv => exact hreported.trans (keepsCores_vecRaise s2 pg hv.1)
  · exact hreported

/-- An effect on the sources of ALERT_N is reported, and nothing else follows (R495). -/
theorem keepsCores_alerted (f : State → State) : KeepsCores W (f s) (withAlert s f) := by
  unfold withAlert
  dsimp only
  split
  · exact (keepsCores_raise _ _ _).trans (keepsCores_tally _ _ _ (by decide))
  · exact .refl _

theorem keepsCores_withAlert {f : State → State} (hf : KeepsCores W s (f s)) : KeepsCores W s (withAlert s f) :=
  hf.trans (keepsCores_alerted s f)

end

/-- The registers at some offsets of any page. -/
def atOffs (l : List Nat) (a : Nat) : Prop := a % 4096 ∈ l

theorem not_atOffs {l : List Nat} {pg off : Nat} (hoff : off < 4096) (hl : off ∉ l) : ¬ atOffs l (pg * 4096 + off) := by
  rwa [atOffs, Nat.add_comm, Nat.add_mul_mod_self_right, Nat.mod_eq_of_lt hoff]

section
variable {l : List Nat} (s : State)

theorem keepsCores_wr_atOffs (pg : Nat) {off lo w : Nat} (v : Nat) (hl : off ∈ l) (hoff : 0x100 ≤ off ∧ off < 4096) :
    KeepsCores (atOffs l) s (wr s pg ⟨off, lo, w⟩ v) := by
  refine keepsCores_wr s v ?_ (by dsimp only; omega)
  rwa [atOffs, Nat.add_comm, Nat.add_mul_mod_self_right, Nat.mod_eq_of_lt hoff.2]

theorem atOffs_mono {l' : List Nat} (hsub : l ⊆ l') {a : Nat} (h : atOffs l a) : atOffs l' a := hsub h

theorem keepsCores_setAlert (b : Nat) (hl : 0x130 ∈ l) : KeepsCores (atOffs l) s (setAlert s b) :=
  keepsCores_withAlert s (keepsCores_wr_atOffs s _ _ hl (by decide))

theorem keepsCores_showUpdate (st : Nat) (hl : 0x110 ∈ l) : KeepsCores (atOffs l) s (showUpdate s st) := by
  unfold showUpdate
  exact (keepsCores_wr_atOffs s _ _ hl (by decide)).trans (keepsCores_wr_atOffs _ _ _ hl (by decide))

/-- The module once no live update is under way (R509). -/
def withoutUpdate (s : State) : State := { s with boot := { s.boot with update := none } }

theorem rd_withoutUpdate (pg : Nat) (f : FRef) : rd (withoutUpdate s) pg f = rd s pg f := rfl

/-- An update given up is answered, and shown on the Curator's pages (R508, R509). -/
theorem keepsCores_updateEnd (result : Nat) (hl : 0x110 ∈ l) : KeepsCores (atOffs l) (withoutUpdate s) (updateEnd s result) := by
  unfold updateEnd
  split
  · next hnone => exact .of_same (fun _ => rfl) ⟨rfl, rfl⟩ rfl rfl hnone
  · exact (keepsCores_showUpdate (withoutUpdate s) 0 hl).trans (keepsCores_mailDone _ _ _ _ _)

theorem updateEnd_active (result : Nat) : (updateEnd s result).boot.active = s.boot.active :=
  (keepsCores_updateEnd (l := [0x110]) s result (by decide)).active

/-- An update completed is shown, counted and answered besides (R508). -/
theorem keepsCores_updateFinish (b : Nat) (u : Update) (hl : 0x110 ∈ l) : KeepsCores (atOffs l) (withoutUpdate s) (updateFinish s b u) := by
  unfold updateFinish
  extract_lets k b1 s1 s2
  have hslot : KeepsCores (atOffs l) (withoutUpdate s) s1 := .of_same (fun _ => rfl) ⟨rfl, rfl⟩ rfl rfl rfl
  have hcounted : KeepsCores (atOffs l) (showUpdate s1 0) s2 :=
    .foldl (fun t c => keepsCores_wr_atOffs t _ _ hl (by decide)) _ _
  exact ((((hslot.trans (keepsCores_showUpdate s1 0 hl)).trans hcounted).trans (keepsCores_raise _ _ _)).trans
    (keepsCores_mailDone _ _ _ _ _))

theorem keepsCores_ringOpen (r : Ring) (hctrl : 0x130 ∈ l) (hstatus : 0x138 ∈ l) : KeepsCores (atOffs l) s (ringOpen s r) := by
  have hopen : KeepsCores (atOffs l) s (wr s (xPage 0 0) (fROPEN r) 1) := keepsCores_wr_atOffs s _ _ hctrl (by decide)
  have htimed : ∀ (t : State) (times : Tab Nat), KeepsCores (atOffs l) t { t with ringAt := times } := fun _ _ =>
    .of_same (fun _ => rfl) ⟨rfl, rfl⟩ rfl rfl rfl
  unfold ringOpen
  dsimp only
  split
  · exact (hopen.trans (htimed _ _)).trans (keepsCores_wr_atOffs _ _ _ hstatus (by decide))
  · exact hopen

end

/-! The rings bypassed (R368). -/

/-- A ring neither settled nor, unless a watchdog expired, to be opened again (R368, R459). -/
def ringReleased (s : State) (r : Ring) (cause : Nat) : State :=
  { s with
    ringSettled := s.ringSettled.filter (· != r)
    boot := { s.boot with ringsOpen := if cause = 2 then s.boot.ringsOpen else s.boot.ringsOpen.filter (· != r) } }

/-- Its registers on X-die 0 as its bypass leaves them (R370). -/
def ringMarked (s : State) (r : Ring) (cause : Nat) : State :=
  wr (wr (wr (ringReleased s r cause) (xPage 0 0) (fRSTATE r) 0) (xPage 0 0) (fRCAUSE r) cause) (xPage 0 0) (fROPEN r) 0

section
variable {l : List Nat} (s : State) (r : Ring) (cause : Nat)

theorem keepsCores_ringMarked (hctrl : 0x130 ∈ l) (hstatus : 0x138 ∈ l) : KeepsCores (atOffs l) s (ringMarked s r cause) := by
  have hreleased : KeepsCores (atOffs l) s (ringReleased s r cause) := .of_same (fun _ => rfl) ⟨rfl, rfl⟩ rfl rfl rfl
  unfold ringMarked
  exact ((hreleased.trans (keepsCores_wr_atOffs _ _ _ hstatus (by decide))).trans
    (keepsCores_wr_atOffs _ _ _ hstatus (by decide))).trans (keepsCores_wr_atOffs _ _ _ hctrl (by decide))

/-- The rest of a ring's bypass shows on its ports, and is counted and reported. -/
theorem keepsCores_ringDrop_ports (hports : 0x120 ∈ l) : KeepsCores (atOffs l) (ringMarked s r cause) (ringDrop s r cause) := by
  unfold ringDrop
  extract_lets pg b0 s0 s1 s2
  have hbypassed : KeepsCores (atOffs l) (ringMarked s r cause) s1 :=
    KeepsCores.foldl (fun t xp => keepsCores_wr_atOffs t _ _ hports (by decide)) _ _
  have hcounted : KeepsCores (atOffs l) s1 s2 := by
    simp only [s2]
    split
    · exact keepsCores_tally s1 _ _ (by decide)
    · exact .refl s1
  have hnum : 2 * ringNum r + 1 < 248 := by cases r <;> decide
  split
  · exact hbypassed.trans hcounted
  · exact ((hbypassed.trans hcounted).trans (keepsCores_raise _ _ _)).trans (keepsCores_tally _ _ _ hnum)

theorem rd_ringDrop_status {f : FRef} (hoff : f.off = 0x138) :
    rd (ringDrop s r cause) (xPage 0 0) f = rd (ringMarked s r cause) (xPage 0 0) f :=
  (keepsCores_ringDrop_ports (l := [0x120]) s r cause (by decide)).rd
    (by rw [hoff]; exact ownWord_xPage (by decide) (by decide) (absurd · (by decide)) (by decide) (by decide))
    (by rw [hoff]; exact not_atOffs (by decide) (by decide))

theorem ringDrop_bypasses (hcause : cause < 16) :
    rd (ringDrop s r cause) (xPage 0 0) (fRSTATE r) = 0 ∧ rd (ringDrop s r cause) (xPage 0 0) (fRCAUSE r) = cause := by
  have hbits : (fRSTATE r).lo + (fRSTATE r).w ≤ (fRCAUSE r).lo ∧ (fRCAUSE r).lo + (fRCAUSE r).w ≤ 64 := by cases r <;> decide
  rw [rd_ringDrop_status _ _ _ rfl, rd_ringDrop_status _ _ _ rfl, ringMarked, rd_wr_off _ _ _ _ _ (by simp [fRSTATE, fROPEN]),
    rd_wr_ne _ _ _ _ _ _ hbits.2 (.inr (.inl hbits.1)), rd_wr_same _ _ _ _ (by omega), rd_wr_off _ _ _ _ _ (by simp [fRCAUSE, fROPEN]),
    rd_wr_same _ _ _ _ hbits.2]
  exact ⟨rfl, Nat.mod_eq_of_lt hcause⟩

/-- Ring B's bypass leaves ring A's status alone. -/
theorem ringDrop_b_keeps_a : rd (ringDrop s .b cause) (xPage 0 0) (fRSTATE .a) = rd s (xPage 0 0) (fRSTATE .a) ∧
    rd (ringDrop s .b cause) (xPage 0 0) (fRCAUSE .a) = rd s (xPage 0 0) (fRCAUSE .a) := by
  rw [rd_ringDrop_status _ _ _ rfl, rd_ringDrop_status _ _ _ rfl, ringMarked, rd_wr_off _ _ _ _ _ (by decide),
    rd_wr_ne _ _ _ _ _ _ (by decide) (by decide), rd_wr_ne _ _ _ _ _ _ (by decide) (by decide), rd_wr_off _ _ _ _ _ (by decide),
    rd_wr_ne _ _ _ _ _ _ (by decide) (by decide), rd_wr_ne _ _ _ _ _ _ (by decide) (by decide)]
  exact ⟨rfl, rfl⟩

end

theorem ringsDrop_bypasses (s : State) {cause : Nat} (hcause : cause < 16) (r : Ring) :
    rd (ringsDrop s cause) (xPage 0 0) (fRSTATE r) = 0 ∧ rd (ringsDrop s cause) (xPage 0 0) (fRCAUSE r) = cause := by
  unfold ringsDrop
  cases r with
  | a =>
    obtain ⟨hstate, hreason⟩ := ringDrop_b_keeps_a (ringDrop s .a cause) cause
    rw [hstate, hreason]
    exact ringDrop_bypasses s .a cause hcause
  | b => exact ringDrop_bypasses _ .b cause hcause

theorem keepsCores_ringsDrop {l : List Nat} (s : State) (cause : Nat) (hports : 0x120 ∈ l) (hctrl : 0x130 ∈ l) (hstatus : 0x138 ∈ l) :
    KeepsCores (atOffs l) s (ringsDrop s cause) := by
  have hdrop : ∀ t r, KeepsCores (atOffs l) t (ringDrop t r cause) := fun t r =>
    (keepsCores_ringMarked t r cause hctrl hstatus).trans (keepsCores_ringDrop_ports t r cause hports)
  exact (hdrop s .a).trans (hdrop _ .b)

/-! The Curator's cores (R459, R507). -/

section
variable {s t : State} {c : Nat}

theorem coreGet_congr (h : t.boot.cores = s.boot.cores) (c : Nat) : coreGet t c = coreGet s c := by simp only [coreGet, h]

theorem coreGet_corePut_same (hc : c < 2) (x : CurCore) : coreGet (corePut s c x) c = x := by
  obtain rfl | rfl : c = 0 ∨ c = 1 := by omega
  · rfl
  · rfl

theorem ownWord_curPage (c : Nat) {off : Nat} (hlow : 0x100 ≤ off) (hhigh : off < 0x840) (hjournal : off ≠ 0x118) :
    ownWord (curPage c * 4096 + off) := ownWord_xPage (by decide) (by decide) (fun _ => hjournal) hlow hhigh

theorem rd_setRole (s : State) (c synced : Nat) {role : Nat} (hrole : role < 4) : rd (setRole s c role synced) (curPage c) fROLE = role := by
  rw [setRole, rd_wr_ne _ _ _ _ _ _ (by decide) (.inr (by decide)), rd_wr_same _ _ _ _ (by decide)]
  exact Nat.mod_eq_of_lt hrole

theorem keepsCores_setRole {l : List Nat} (s : State) (c role synced : Nat) (hl : 0x100 ∈ l) :
    KeepsCores (atOffs l) s (setRole s c role synced) :=
  (keepsCores_wr_atOffs s _ _ hl (by decide)).trans (keepsCores_wr_atOffs _ _ _ hl (by decide))

/-- ROLE reads as before where no CUR_ROLE is written. -/
theorem KeepsCores.role {l : List Nat} (h : KeepsCores (atOffs l) s t) (hl : 0x100 ∉ l) (c : Nat) :
    rd t (curPage c) fROLE = rd s (curPage c) fROLE :=
  h.rd (ownWord_curPage c (by decide) (by decide) (by decide)) (not_atOffs (by decide) hl)

theorem coreReset_cores : (coreReset s c).boot.cores = (corePut s c coreInRom).boot.cores := by simp only [coreReset, setRole, wr_boot]

theorem coreGet_coreReset (hc : c < 2) : coreGet (coreReset s c) c = coreInRom :=
  (coreGet_congr coreReset_cores c).trans (coreGet_corePut_same hc coreInRom)

theorem coreReset_mem : (coreReset s c).mem = s.mem := by simp only [coreReset, setRole, wr_mem, corePut]

theorem coreReset_guard : (coreReset s c).guard = s.guard := by simp only [coreReset, setRole, wr_guard, corePut]

theorem coreReset_power : (coreReset s c).power = s.power := by simp only [coreReset, setRole, wr_power, corePut]

theorem regGet_boot (s : State) (b : Boot) (a : Nat) : regGet { s with boot := b } a = regGet s a := rfl

theorem regGet_coreReset (a : Nat) : regGet (coreReset s c) a = regGet (setRole s c 3 0) a := by
  simp only [coreReset, setRole, regGet_wr, corePut, regGet_boot]

/-- A core's return to its ROM writes CUR_ROLE alone (R517). -/
theorem keepsBytes_coreReset {l : List Nat} (s : State) (c : Nat) (hl : 0x100 ∈ l) : KeepsBytes (atOffs l) s (coreReset s c) := by
  obtain ⟨⟨_, hregs, hraw⟩, _⟩ := keepsCores_setRole (l := l) s c 3 0 hl
  exact ⟨coreReset_mem, fun a hown hout => (regGet_coreReset a).trans (hregs a hown hout),
    hraw.trans (.of_eq fun pg => regGet_coreReset (pg * 4096 + 0x20))⟩

theorem rd_coreReset_role : rd (coreReset s c) (curPage c) fROLE = 3 := by
  rw [rd, regGet_coreReset, ← rd]
  exact rd_setRole _ c 0 (by decide)

theorem coreReset_active_self (hactive : s.boot.active = some c) : (coreReset s c).boot.active = none := if_pos hactive

theorem coreReset_active_other (hactive : s.boot.active ≠ some c) : (coreReset s c).boot.active = s.boot.active := if_neg hactive

theorem withAlert_power (f : State → State) : (withAlert s f).power = (f s).power := by
  unfold withAlert
  dsimp only
  split
  · rw [tally_power, raise_power]
  · rfl

theorem ownWord_alert : ownWord (pwrPage * 4096 + fALERT.off) :=
  ownWord_xPage (by decide) (by decide) (absurd · (by decide)) (by decide) (by decide)

theorem rd_setAlert (b : Nat) : rd (setAlert s b) pwrPage fALERT = (rd s pwrPage fALERT ||| 1 <<< b) % 2 ^ 6 :=
  ((keepsCores_alerted (W := fun _ => False) s _).rd ownWord_alert not_false).trans (rd_wr_same s pwrPage fALERT _ (by decide))

theorem setAlert_testBit {b : Nat} (hb : b < 6) : (rd (setAlert s b) pwrPage fALERT).testBit b = true := by
  rw [rd_setAlert, Nat.testBit_mod_two_pow, Nat.testBit_or, Nat.testBit_shiftLeft]
  simp [hb]

end

/-! The watchdogs (R459, R507). -/

/-- The module once a standby's expiry is told: an update under way given up, the alert raised, and vector 0 told on a page (R459, R509). -/
def standbyTold (s : State) (pg : Nat) : State := raiseZero (setAlert (updateEnd s mSTATE) 0) pg 9

section
variable (s : State) (pg : Nat)

theorem keepsCores_standbyTold : KeepsCores (atOffs [0x110, 0x130]) (withoutUpdate s) (standbyTold s pg) :=
  ((keepsCores_updateEnd s mSTATE (by decide)).trans (keepsCores_setAlert _ 0 (by decide))).trans (keepsCores_raiseZero _ pg 9)

theorem standbyTold_active : (standbyTold s pg).boot.active = s.boot.active := (keepsCores_standbyTold s pg).active

theorem standbyTold_cores : (standbyTold s pg).boot.cores = s.boot.cores := (keepsCores_standbyTold s pg).cores

theorem standbyTold_update : (standbyTold s pg).boot.update = none := (keepsCores_standbyTold s pg).update

theorem standbyTold_role (c : Nat) : rd (standbyTold s pg) (curPage c) fROLE = rd s (curPage c) fROLE :=
  (keepsCores_standbyTold s pg).role (by decide) c

theorem sameMemory_standbyTold : SameMemory s (standbyTold s pg) := (keepsCores_standbyTold s pg).sameMemory

theorem standbyTold_event : (rd (standbyTold s pg) pg fEVTRAW).testBit 9 = true := raiseZero_testBit _ _ (by decide)

end

section
variable {s : State} {c : Nat} {a : Nat} (hkick : (coreGet s c).kickAt = some a)
include hkick

theorem watchdogExpiry_of_early (hearly : s.now < a + 100000000) : watchdogExpiry s c = s := by
  simp only [watchdogExpiry, hkick, if_pos hearly]

variable (hlate : a + 100000000 ≤ s.now)
include hlate

theorem watchdogExpiry_of_active (hactive : s.boot.active = some c) : watchdogExpiry s c = activeExpires s c := by
  simp only [watchdogExpiry, hkick, if_neg (Nat.not_lt.2 hlate), if_pos hactive]

theorem watchdogExpiry_of_standby (hactive : s.boot.active ≠ some c) : watchdogExpiry s c =
    standbyTold (coreReset s c) (activePage s) := by
  have hpage : activePage (updateEnd (coreReset s c) mSTATE) = activePage s := by
    simp only [activePage, updateEnd_active, coreReset_active_other hactive]
  rw [standbyTold, ← hpage]
  simp only [watchdogExpiry, hkick, if_neg (Nat.not_lt.2 hlate), if_neg hactive]

end

theorem watchdogKick_of_some {s : State} {c : Nat} (h : (coreGet s c).kickAt.isSome = true) :
    watchdogKick s c = corePut s c { coreGet s c with kickAt := some s.now } := if_pos h

theorem watchdogKick_of_none {s : State} {c : Nat} (h : (coreGet s c).kickAt = none) : watchdogKick s c = s :=
  if_neg (by simp [h])

theorem watchdogExpiry_of_none {s : State} {c : Nat} (h : (coreGet s c).kickAt = none) : watchdogExpiry s c = s := by
  simp only [watchdogExpiry, h]

/-- The module as the active core's expiry leaves it before the core returns to its ROM: both rings bypassed, the alert raised (R459). -/
def watchdogAlerted (s : State) : State :=
  setAlert (withAlert (ringsDrop s 2) (fun u => { u with power := { u.power with wdogAlert := true } })) 0

theorem activeExpires_eq (s : State) (c : Nat) : activeExpires s c = coreReset (watchdogAlerted s) c := rfl

theorem setAlert_power (s : State) (b : Nat) : (setAlert s b).power = s.power := withAlert_power _

theorem activeExpires_wdogAlert (s : State) (c : Nat) : (activeExpires s c).power.wdogAlert = true := by
  rw [activeExpires_eq, coreReset_power, watchdogAlerted, setAlert_power, withAlert_power]

/-- Beyond the rings, the alert is all that changes. -/
theorem keepsCores_alertRaised (s : State) : KeepsCores (atOffs [0x130]) (ringsDrop s 2) (watchdogAlerted s) :=
  (keepsCores_withAlert (ringsDrop s 2) (.of_same (fun _ => rfl) ⟨rfl, rfl⟩ rfl rfl rfl)).trans (keepsCores_setAlert _ 0 (by decide))

theorem keepsCores_watchdogAlerted (s : State) : KeepsCores (atOffs [0x120, 0x130, 0x138]) s (watchdogAlerted s) :=
  (keepsCores_ringsDrop s 2 (by decide) (by decide) (by decide)).trans
    ((keepsCores_alertRaised s).mono fun _ => atOffs_mono (by decide))

section
variable (s : State) (c : Nat)

theorem activeExpires_rings (r : Ring) :
    rd (activeExpires s c) (xPage 0 0) (fRSTATE r) = 0 ∧ rd (activeExpires s c) (xPage 0 0) (fRCAUSE r) = 2 := by
  have hsince : KeepsBytes (atOffs [0x130, 0x100]) (ringsDrop s 2) (activeExpires s c) :=
    ((keepsCores_alertRaised s).toKeepsBytes.mono fun _ => atOffs_mono (by decide)).trans (keepsBytes_coreReset _ c (by decide))
  have hown : ownWord (xPage 0 0 * 4096 + 0x138) := ownWord_xPage (by decide) (by decide) (absurd · (by decide)) (by decide) (by decide)
  have hout : ¬ atOffs [0x130, 0x100] (xPage 0 0 * 4096 + 0x138) := not_atOffs (by decide) (by decide)
  obtain ⟨hstate, hcause⟩ := ringsDrop_bypasses s (cause := 2) (by decide) r
  exact ⟨(hsince.rd hown hout).trans hstate, (hsince.rd hown hout).trans hcause⟩

theorem activeExpires_alert : (rd (activeExpires s c) pwrPage fALERT).testBit 0 = true := by
  have hreset : KeepsBytes (atOffs [0x100]) (watchdogAlerted s) (activeExpires s c) := keepsBytes_coreReset _ c (by decide)
  rw [hreset.rd ownWord_alert (not_atOffs (by decide) (by decide))]
  exact setAlert_testBit (by decide)

theorem sameMemory_activeExpires : SameMemory s (activeExpires s c) := by
  obtain ⟨hmem, hguard⟩ := (keepsCores_watchdogAlerted s).sameMemory
  rw [activeExpires_eq]
  exact ⟨coreReset_mem.trans hmem, coreReset_guard.trans hguard⟩

end

/-! The takeover (R507, R509). -/

/-- Whether a core is a standby that has synced (R506). -/
def syncedStandby (s : State) (c : Nat) : Bool := rd s (curPage c) fROLE == 2 && rd s (curPage c) fSYNCED == 1

theorem syncedStandby_iff {s : State} {c : Nat} :
    syncedStandby s c = true ↔ rd s (curPage c) fROLE = 2 ∧ rd s (curPage c) fSYNCED = 1 := by
  simp only [syncedStandby, Bool.and_eq_true, beq_iff_eq]

/-- The one of two cores that has a property is found. -/
theorem find?_core {q : Nat → Bool} {c : Nat} (hc : c < 2) (hthis : q c = true) (hother : q (otherCore c) = false) :
    (List.range 2).find? q = some c := by
  obtain rfl | rfl : c = 0 ∨ c = 1 := by omega
  · simp [List.range_succ, hthis]
  · have hzero : q 0 = false := hother
    simp [List.range_succ, hthis, hzero]

/-- The module once a standby has become active, its event raised (R507). -/
def standbyLeads (s : State) (c : Nat) : State :=
  raise (setRole { s with boot := { s.boot with active := some c, lead := some c } } c 1 0) (curPage c) 8

section
variable {s : State} {c : Nat}

theorem takeover_of_active (hactive : s.boot.active.isSome = true) : takeover s = s := by
  obtain ⟨d, hd⟩ := Option.isSome_iff_exists.1 hactive
  simp only [takeover, hd]

theorem takeover_of_no_standby (hnone : ∀ d < 2, syncedStandby s d = false) : takeover s = s := by
  have hfind : (List.range 2).find? (syncedStandby s) = none := by simpa using hnone
  unfold takeover
  split
  · next hfound =>
    rw [show (List.range 2).find? (syncedStandby s) = some _ from hfound] at hfind
    cases hfind
  · rfl

/-- What follows a standby's taking the lead: the update it runs completes or any other is given up, and the rings open (R507, R509). -/
theorem keepsCores_takeover (hactive : s.boot.active = none) (hfind : (List.range 2).find? (syncedStandby s) = some c) :
    KeepsCores (atOffs [0x110, 0x130, 0x138]) (withoutUpdate (standbyLeads s c)) (takeover s) := by
  unfold takeover
  rw [hactive, show (List.range 2).find? (fun c => rd s (curPage c) fROLE == 2 && rd s (curPage c) fSYNCED == 1) = some c from hfind]
  dsimp only
  refine KeepsCores.trans (KeepsCores.trans ?settled (.foldl (fun t r => keepsCores_ringOpen t r (by decide) (by decide)) _ _))
    (keepsCores_vecTry _ (by decide))
  case settled =>
    split
    · split
      · exact keepsCores_updateFinish (standbyLeads s c) c _ (by decide)
      · exact keepsCores_updateEnd (standbyLeads s c) _ (by decide)
    · next hnone =>
      refine .of_same (fun _ => rfl) ⟨rfl, rfl⟩ rfl rfl ?_
      rw [raise_boot]
      exact hnone

theorem standbyLeads_boot : (standbyLeads s c).boot = { s.boot with active := some c, lead := some c } := by
  rw [standbyLeads, raise_boot]
  rfl

theorem rd_standbyLeads_role : rd (standbyLeads s c) (curPage c) fROLE = 1 := by
  rw [standbyLeads, (keepsCores_raise (W := fun _ => False) _ _ _).rd (ownWord_curPage c (by decide) (by decide) (by decide)) not_false,
    rd_setRole _ _ _ (by decide)]

theorem sameMemory_standbyLeads : SameMemory s (standbyLeads s c) := by
  rw [standbyLeads]
  exact ⟨raise_mem _ _ _, raise_guard _ _ _⟩

end

/-- Settles O48: the watchdog's rows by the equations of their cases, with what the bypass, the alert, the return to ROM and the reports
after it each leave alone; the takeover by what follows the standby's taking the lead. -/
theorem watchdogsAndTakeover : Obligations.WatchdogsAndTakeover := by
  intro s c hlive
  have hkick : exec (.watchdogKick c) s = .next (watchdogKick s c.val) := congrArg Host.Outcome.next (alive_of_live hlive _)
  have hexpiry : exec (.watchdogExpiry c) s = .next (watchdogExpiry s c.val) := congrArg Host.Outcome.next (alive_of_live hlive _)
  have htakeover : exec .takeover s = .next (takeover s) := congrArg Host.Outcome.next (alive_of_live hlive _)
  simp only [hkick, hexpiry, htakeover, Host.Outcome.next.injEq, exists_eq_left']
  refine ⟨?kicked, fun hnone => ⟨watchdogKick_of_none hnone, watchdogExpiry_of_none hnone⟩,
    fun a ha => ⟨watchdogExpiry_of_early ha, fun hlate => ⟨?active, ?standby⟩⟩, takeover_of_active, ?leads, ?noStandby⟩
  case kicked =>
    intro hsome
    rw [watchdogKick_of_some hsome]
    exact ⟨coreGet_corePut_same c.isLt _, rfl⟩
  case active =>
    intro hactive
    rw [watchdogExpiry_of_active ha hlate hactive]
    exact ⟨coreReset_active_self ((keepsCores_watchdogAlerted s).active.trans hactive), coreGet_coreReset c.isLt, rd_coreReset_role,
      activeExpires_rings s c.val, activeExpires_wdogAlert s c.val, activeExpires_alert s c.val, sameMemory_activeExpires s c.val⟩
  case standby =>
    intro hactive
    rw [watchdogExpiry_of_standby ha hlate hactive]
    obtain ⟨hmem, hguard⟩ := sameMemory_standbyTold (coreReset s c.val) (activePage s)
    exact ⟨(standbyTold_active _ _).trans (coreReset_active_other hactive),
      (coreGet_congr (standbyTold_cores _ _) _).trans (coreGet_coreReset c.isLt), (standbyTold_role _ _ _).trans rd_coreReset_role,
      standbyTold_update _ _, standbyTold_event _ _, hmem.trans coreReset_mem, hguard.trans coreReset_guard⟩
  case leads =>
    intro hactive hrole hsynced hother
    have hfind := find?_core c.isLt (syncedStandby_iff.2 ⟨hrole, hsynced⟩) (Bool.eq_false_iff.2 fun h => hother (syncedStandby_iff.1 h))
    have hleads := keepsCores_takeover hactive hfind
    obtain ⟨hmem, hguard⟩ := sameMemory_standbyLeads (s := s) (c := c.val)
    refine ⟨?active, ?role, hleads.raw _ _ (raise_testBit _ _ _ (by decide)),
      hleads.update, hleads.mem.trans hmem, hleads.guard.trans hguard⟩
    case role => rw [hleads.role (by decide), rd_withoutUpdate, rd_standbyLeads_role]
    case active => rw [hleads.active, withoutUpdate, standbyLeads_boot]
  case noStandby =>
    exact fun hnone => takeover_of_no_standby fun d hd => Bool.eq_false_iff.2 fun h => hnone ⟨d, hd⟩ (syncedStandby_iff.1 h)

end Sys2Proof.Machine
end
